-- ==== Sys2Proof/Word.lean ====
section
/-!
DEFINITION. The words the IFV-DX1 moves (00 R3, R4, R8).
-/
namespace Sys2Proof

/-- A byte of memory. -/
abbrev Byte := BitVec 8
/-- A register (00 R8). -/
abbrev Word := BitVec 32
/-- A pair of registers, an instruction, a Gate (00 R8, 04 R94, 12 R293). -/
abbrev DWord := BitVec 64
/-- Bytes in ascending address. -/
abbrev Bytes := List Byte

end Sys2Proof
end

