-- ==== Sys2Proof/Syntax.lean ====
section
/-!
DEFINITION. The commands of the IFV-DX1 (spec/opcode_table.json), and the plain data their operands are made of.
A command is what one step of the block takes: a register or doorbell write of a function, an order or an
instruction that comes to be executed, an event of a unit, a link, a pin or a supply.
-/
namespace Sys2Proof

/-- An order (14 R324): its function (0 to 1,023 the virtual function of tenant t, 1,024 and 1,025 the physical
functions A and B), its ring pair, and its index k in the ring. -/
structure OrderId where
  fn : Nat
  pair : Nat
  k : Nat
deriving DecidableEq, Repr

/-- A device read of host memory (14 R340, 15 R358, 02 R51). -/
inductive HostRead where
  /-- The fetch of the next order of a ring pair. -/
  | ringFetch (fn pair : Nat)
  /-- A read made for an order (a DMA order's source, a CACHE backing read). -/
  | order (o : OrderId)
  /-- The Lockkeeper's read of a survey image. -/
  | image
  /-- The Security block's read for a command of a function. -/
  | security (fn : Nat)
deriving DecidableEq, Repr

/-- Who waits on a Gate (12 R294). -/
inductive Waiter where
  /-- The order at the front of its ring (14 R329). -/
  | order (o : OrderId)
  /-- A core in WAITG. -/
  | core (i : Nat)
  /-- A core DMA descriptor with WAIT set. -/
  | dma (i tag : Nat)
  /-- A steward in FWAITG. -/
  | steward (f s : Nat)
  /-- A suspended instance in WAITG: its field, slot, image, the FRUN that started it, and its index. -/
  | inst (f s img run idx : Nat)
  /-- A core DMA descriptor of a suspended instance. -/
  | instDma (f s img run idx tag : Nat)
deriving DecidableEq, Repr

/-- What the protection of a storage or a path reports of what an engine instruction or a transfer has read (17 R382, R383,
11 R263). Addresses are device addresses. -/
inductive EccStrike where
  /-- A single-bit error, corrected in place. -/
  | corrected (addr : Nat)
  /-- Link retries of a GDDR7 burst that came through. -/
  | retried (addr n : Nat)
  /-- A GDDR7 burst whose link failed its eighth retry. -/
  | linkFailed (addr : Nat)
  /-- An uncorrectable error. -/
  | uncorrectable (addr : Nat)
  /-- Retries of an Aqueduct's link. -/
  | aqueductRetry (q n : Nat)
deriving DecidableEq, Repr

/-- The stop causes of Table 13-2, in precedence. -/
inductive StopCause where
  | fence | teardown | drainLimit | selfTest | realTime | lending | eviction | sharePreempt | programEnd
deriving DecidableEq, Repr

/-- A device found behind a CXL port at link-up (11 R271, R272). -/
structure CxlDev where
  /-- Switch downstream port; 0 for a direct device. -/
  downPort : Nat
  /-- Capacity in bytes. -/
  bytes : Nat
  /-- The device lies within R271. -/
  supported : Bool
deriving DecidableEq, Repr

/-- A requester of memory (11 R273). -/
inductive MemReq where
  /-- The core DMA tag of a core. -/
  | core (i tag : Nat)
  /-- A system DMA order, or another order that reads memory. -/
  | order (o : OrderId)
  /-- A unit job or the device itself, for a context. -/
  | context (c : Nat)
deriving DecidableEq, Repr

/-- Energy metered (16 R366, R368). -/
inductive Charge where
  /-- uJ of program slot s of field f, of which idle. -/
  | slot (f s uj : Nat)
  /-- uJ of the memory of district d. -/
  | memory (d uj : Nat)
  /-- uJ of a field of district d that runs no program. -/
  | idle (d uj : Nat)
  /-- uJ of the rest of the module. -/
  | device (uj : Nat)
deriving DecidableEq, Repr

/-- The logits of one row of a teacher pass, in ascending token order, as FP32 words: the teacher's, and the student's
of the same row (10 R243, R244). -/
structure RowWork where
  teacher : List Nat
  student : List Nat
deriving DecidableEq, Repr

/-- A delta tile that the weight fetch stage merges into what a TLOAD reads (10 R252): the request whose row it is for, the
tensor and the tile of the request's Offtake version, and the row and column of the load at which the tile's first element
stands. -/
structure OftMerge where
  req : Nat
  tensor : Nat
  tileRow : Nat
  tileCol : Nat
  row : Nat
  col : Nat
deriving DecidableEq, Repr

/-- What the end of a system DMA transfer brings: the host bytes read when SRC_HOST is set (14 R340), and the reports of the
memory that it read (17 R382). -/
structure DmaEnd where
  data : Bytes
  ecc : List EccStrike
deriving DecidableEq, Repr

/-- A TLOAD: its core, and the delta tiles merged into what it loads (10 R252). -/
structure TileLoad where
  core : Nat
  merges : List OftMerge
deriving DecidableEq, Repr

/-- An entry of the rotation table, and an instant (13 R312). -/
structure EntryAt where
  entry : Nat
  at_ : Nat
deriving DecidableEq, Repr

/-- What FULL_RESET_N did: its lows, each with the high that follows it, in ns, and the instant at which the last low has
been measured (18 R415). -/
structure PinWave where
  lows : List (Nat × Nat)
  at_ : Nat
deriving DecidableEq, Repr

/-- A binding, and the PLDM type that a message asks about (17 R400). -/
structure PldmQuery where
  binding : Nat
  type : Nat
deriving DecidableEq, Repr

/-- What the programs of a step produced for one request (10 R239 to R247): its tree record, and the rows of the
teacher pass, the anchor's first and that of node i at i + 1. -/
structure ReqWork where
  req : Nat
  tree : Bytes
  rows : List RowWork
deriving DecidableEq, Repr

/-- What the programs of a step produced. -/
structure StepWork where
  reqs : List ReqWork
deriving DecidableEq, Repr

/-- The commands of the block: one constructor per row of the opcode table. -/
inductive Instr where
  /-- REGISTER_WRITE (R8): a write of len (4 or 8) bytes at offset off of function fn's control window. -/
  | registerWrite (fn off len : Nat) (data : DWord)
  /-- PCIE_REG_ACCESS (R8): a register access of function fn at offset off, len bytes wide. -/
  | pcieRegAccess (fn off len : Nat) (write : Bool)
  /-- HR_TAIL (R324): doorbell write of ring pair pair of function fn. -/
  | hrTail (fn pair : Nat) (value : Word)
  /-- TR_HEAD (R324): doorbell write of ring pair pair of function fn. -/
  | trHead (fn pair : Nat) (value : Word)
  /-- PCIE_DOORBELL (R340): a malformed write of len bytes at offset off of doorbell page page. -/
  | pcieDoorbell (fn page off len : Nat)
  /-- ORDER_FETCH (R324): the 64 bytes the host memory holds at the order's place. -/
  | orderFetch (fn pair : Nat) (bytes : Bytes)
  /-- ORDER_DISPATCH (R329): the front undispatched order of the ring. -/
  | orderDispatch (fn pair : Nat)
  /-- ORDER_COMPLETE (R330): the order whose handler has ended it. -/
  | orderComplete (o : OrderId)
  /-- HOLDOFF_EXPIRY (R335): the instant the holdoff ends. -/
  | holdoffExpiry (fn pair at_ : Nat)
  /-- RING_ENABLE (R323): the word written to HIF_RING_CTL, ENABLE 1. -/
  | ringEnable (fn pair : Nat) (ctl : Word)
  /-- RING_DISABLE (R332): the word written to HIF_RING_CTL, ENABLE 0. -/
  | ringDisable (fn pair : Nat) (ctl : Word)
  /-- ABORT (R332): the word written to HIF_RING_CTL, ABORT 1. -/
  | abort (fn pair : Nat) (ctl : Word)
  /-- ERROR_RING_ENABLE (R333): the word written to HIF_ERR_SIZE. -/
  | errorRingEnable (fn : Nat) (value : Word)
  /-- SLC_MSG_WRITE (R338): master identity who writes len (4 or 8) bytes at SLC_MSG_k. -/
  | slcMsgWrite (who sl k len : Nat) (data : DWord)
  /-- SLC_SEND (R338): master identity who writes SEQ to SLC_SEND. -/
  | slcSend (who sl seq : Nat)
  /-- SLUICE_UNBOUND (R336): master identity who writes Sluice sl without being its bound sender. -/
  | sluiceUnbound (who sl : Nat)
  /-- SLUICE_TAKE (R338): the receiver's acknowledgement code. -/
  | sluiceTake (sl code : Nat)
  /-- SLUICE_TIMEOUT (R339): the instant the timeout is judged. -/
  | sluiceTimeout (sl at_ : Nat)
  /-- PING (R337): the receiver takes a PING of Sluice sl. -/
  | ping (sl : Nat)
  /-- PCIE_BAR_MISS (R340): the function addressed. -/
  | pcieBarMiss (fn : Nat)
  /-- PCIE_CPL_TIMEOUT (R340): the device read that is not completed. -/
  | pcieCplTimeout (r : HostRead)
  /-- PCIE_CPL_ERROR (R340): the device read that fails. -/
  | pcieCplError (r : HostRead)
  /-- PCIE_ATS (R340): the order whose translation is refused. -/
  | pcieAts (o : OrderId)
  /-- PCIE_MALFORMED (R340): the function addressed. -/
  | pcieMalformed (fn : Nat)
  /-- VF_FUNCTION_LEVEL_RESET (R322): the tenant of the virtual function. -/
  | vfFunctionLevelReset (t : Nat)
  /-- PF_FUNCTION_LEVEL_RESET (R322): the port. -/
  | pfFunctionLevelReset (port : Nat)
  /-- VF_ENABLE_CLEAR (R322): the port. -/
  | vfEnableClear (port : Nat)
  /-- PERST_ASSERT (R322): the port. -/
  | perstAssert (port : Nat)
  /-- LINK_DOWN (R322): the port. -/
  | linkDown (port : Nat)
  /-- PERST_RELEASE (R419): the port, and whether a reference clock is present (R412). -/
  | perstRelease (port : Nat) (refclk : Bool)
  /-- DMA_ORDER (R292): the order. -/
  | dmaOrder (o : OrderId)
  /-- SYSTEM_DMA_DONE (R292): the order, and what the end of its transfer brings. -/
  | systemDmaDone (o : OrderId) (got : DmaEnd)
  /-- ALLOC (R296): the order. -/
  | alloc (o : OrderId)
  /-- FREE (R296): the order. -/
  | free (o : OrderId)
  /-- SET (R296): the order. -/
  | set (o : OrderId)
  /-- ADD (R296): the order. -/
  | add (o : OrderId)
  /-- MAP (R266): the order. -/
  | map (o : OrderId)
  /-- UNMAP (R267): the order. -/
  | unmap (o : OrderId)
  /-- PROTECT (R266): the order. -/
  | protect (o : OrderId)
  /-- CREATE (R276): the order. -/
  | create (o : OrderId)
  /-- LOAD (R278): the order. -/
  | load (o : OrderId)
  /-- PIN (R277): the order. -/
  | pin (o : OrderId)
  /-- UNPIN (R277): the order. -/
  | unpin (o : OrderId)
  /-- DROP (R279): the order. -/
  | drop (o : OrderId)
  /-- CACHE_LOAD_DONE (R276): the entry index, whether the backing read succeeded, and the bytes read from host backing. -/
  | cacheLoadDone (idx : Nat) (ok : Bool) (data : Bytes)
  /-- TRAIN_STEP (R117): the order. -/
  | trainStep (o : OrderId)
  /-- TRAIN_STEP_START (R159): the order. -/
  | trainStepStart (o : OrderId)
  /-- RUN (R327): the order. -/
  | run (o : OrderId)
  /-- REQUEST (R221): the order. -/
  | request (o : OrderId)
  /-- CANCEL (R234): the order. -/
  | cancel (o : OrderId)
  /-- OFFTAKE_INSTALL (R249): the order. -/
  | offtakeInstall (o : OrderId)
  /-- OFFTAKE_REMOVE (R250): the order. -/
  | offtakeRemove (o : OrderId)
  /-- OFFTAKE_SWITCH (R250): the install order whose copy completes. -/
  | offtakeSwitch (o : OrderId)
  /-- IMPORT (R198): the order. -/
  | importPart (o : OrderId)
  /-- FINAL (R212): the order. -/
  | final (o : OrderId)
  /-- EXPORT (R213): the order. -/
  | exportSum (o : OrderId)
  /-- RING (R214): the order. -/
  | ring (o : OrderId)
  /-- POST (R209): field and slot of the steward at a Confluence FKICK. -/
  | post (f sl : Nat)
  /-- CFL_DEADLINE (R197): district and the instant the deadline is judged. -/
  | cflDeadline (d at_ : Nat)
  /-- REDUCTION_DONE (R204): district. -/
  | reductionDone (d : Nat)
  /-- CFL_FINAL_LIMIT (R212): district and the instant the limit is judged. -/
  | cflFinalLimit (d at_ : Nat)
  /-- LOAD_BUCKETS (R207): issuing function and district. -/
  | loadBuckets (fn d : Nat)
  /-- DROP_PENDING (R207): issuing function and district. -/
  | dropPending (fn d : Nat)
  /-- LOAD_TABLE (R185): issuing function and district. -/
  | loadTable (fn d : Nat)
  /-- SET_RING (R193): issuing function and district. -/
  | setRing (fn d : Nat)
  /-- SET_LS (R193): issuing function and district. -/
  | setLs (fn d : Nat)
  /-- CLEAR_STREAKS (R193): issuing function and district. -/
  | clearStreaks (fn d : Nat)
  /-- SURVEY_IMAGE_READ (R425): the bytes the host holds at SRV_IMAGE_ADDR. -/
  | surveyImageRead (bytes : Bytes)
  /-- STAGE (R51): issuing function. -/
  | stage (fn : Nat)
  /-- INITIAL (R55): issuing function. -/
  | initial (fn : Nat)
  /-- RESURVEY (R53): issuing function and district. -/
  | resurvey (fn d : Nat)
  /-- STORE_DEFAULT (R55): issuing function. -/
  | storeDefault (fn : Nat)
  /-- DISCARD (R51): issuing function. -/
  | discard (fn : Nat)
  /-- RAISE_FLOOR (R55): issuing function, and whether the flash write it needs succeeds. -/
  | raiseFloor (fn : Nat) (flash : Bool)
  /-- SRV_DRAIN_LIMIT (R53): the instant the limit is judged. -/
  | srvDrainLimit (at_ : Nat)
  /-- APPLY_DONE (R53): the district in APPLYING. -/
  | applyDone
  /-- PREFILL_CHUNK_DISPATCH (R226): district. -/
  | prefillChunkDispatch (d : Nat)
  /-- DECODE_STEP (R227): district. -/
  | decodeStep (d : Nat)
  /-- STEP_COMMIT (R243): district, and what the step's programs produced. -/
  | stepCommit (d : Nat) (work : StepWork)
  /-- OUTFALL_RETRY (R232): the stalled request and the instant of the read. -/
  | outfallRetry (req at_ : Nat)
  /-- INT_STALL_LIMIT (R232): the stalled request and the instant the limit is judged. -/
  | intStallLimit (req at_ : Nat)
  /-- LENDING_DECISION (R236): district and the instant of the boundary. -/
  | lendingDecision (d at_ : Nat)
  /-- LOAD_PROFILES (R219): issuing function and district. -/
  | loadProfiles (fn d : Nat)
  /-- FLUSH_PREFIXES (R230): issuing function and district. -/
  | flushPrefixes (fn d : Nat)
  /-- INT_VF_SHARE (R229): the tenant and the value it writes. -/
  | intVfShare (t : Nat) (value : DWord)
  /-- CAPTURE_RING_WRITE (R254): district, whether OFT_CAP_ENTRIES or OFT_CAP_ADDR is written, and the value. -/
  | captureRingWrite (d : Nat) (entries : Bool) (value : DWord)
  /-- NOP (R96): core. -/
  | nop (core : Nat)
  /-- END (R424): core. -/
  | endInst (core : Nat)
  /-- INSTANCE_END (R424): core. -/
  | instanceEnd (core : Nat)
  /-- LOOP (R97): core. -/
  | loop (core : Nat)
  /-- SETP (R90): core. -/
  | setp (core : Nat)
  /-- ADDP (R90): core. -/
  | addp (core : Nat)
  /-- WAITG (R294): core. -/
  | waitg (core : Nat)
  /-- WAIT_RELEASE (R294): the released waiter. -/
  | waitRelease (w : Waiter)
  /-- SIGG (R288): core. -/
  | sigg (core : Nat)
  /-- FENCE (R92): core. -/
  | fence (core : Nat)
  /-- SETT (R98): core. -/
  | sett (core : Nat)
  /-- SETE (R98): core. -/
  | sete (core : Nat)
  /-- SETS (R98): core. -/
  | sets (core : Nat)
  /-- DMA (R289): core. -/
  | dma (core : Nat)
  /-- CORE_DMA_DONE (R291): core and tag, and the reports of the memory that the transfer read (17 R382). -/
  | coreDmaDone (core tag : Nat) (ecc : List EccStrike)
  /-- DMAW (R96): core. -/
  | dmaw (core : Nat)
  /-- TLOAD (R99): core, and the delta tiles merged into what it loads (10 R252). -/
  | tload (load : TileLoad)
  /-- TSTORE (R100): core. -/
  | tstore (core : Nat)
  /-- ACCLD (R100): core. -/
  | accld (core : Nat)
  /-- TRANS (R101): core. -/
  | trans (core : Nat)
  /-- SOUND (R101): core. -/
  | sound (core : Nat)
  /-- MMA (R87): core. -/
  | mma (core : Nat)
  /-- MMAA (R87): core. -/
  | mmaa (core : Nat)
  /-- MMAB (R87): core. -/
  | mmab (core : Nat)
  /-- BGRAD (R103): core. -/
  | bgrad (core : Nat)
  /-- BGRADF (R103): core. -/
  | bgradf (core : Nat)
  /-- IMMA (R76): core. -/
  | imma (core : Nat)
  /-- INSTRUCTION_DONE (R96): core, engine class, and the ECC outcome of its reads. -/
  | instructionDone (core cls : Nat) (ecc : List EccStrike)
  /-- CVT (R68): core. -/
  | cvt (core : Nat)
  /-- ENC (R69): core. -/
  | enc (core : Nat)
  /-- DEC (R64): core. -/
  | dec (core : Nat)
  /-- VADD (R77): core. -/
  | vadd (core : Nat)
  /-- VSUB (R77): core. -/
  | vsub (core : Nat)
  /-- VMUL (R77): core. -/
  | vmul (core : Nat)
  /-- VFMA (R77): core. -/
  | vfma (core : Nat)
  /-- VSCALE (R102): core. -/
  | vscale (core : Nat)
  /-- VDIV (R77): core. -/
  | vdiv (core : Nat)
  /-- VSQRT (R77): core. -/
  | vsqrt (core : Nat)
  /-- VRCP (R77): core. -/
  | vrcp (core : Nat)
  /-- VRSQRT (R77): core. -/
  | vrsqrt (core : Nat)
  /-- VEXP2 (R77): core. -/
  | vexp2 (core : Nat)
  /-- VLOG2 (R77): core. -/
  | vlog2 (core : Nat)
  /-- VMAX (R79): core. -/
  | vmax (core : Nat)
  /-- VMIN (R79): core. -/
  | vmin (core : Nat)
  /-- VGT (R102): core. -/
  | vgt (core : Nat)
  /-- VSEL (R96): core. -/
  | vsel (core : Nat)
  /-- VMOV (R96): core. -/
  | vmov (core : Nat)
  /-- VBCAST (R96): core. -/
  | vbcast (core : Nat)
  /-- VRSUM (R78): core. -/
  | vrsum (core : Nat)
  /-- VRMAX (R96): core. -/
  | vrmax (core : Nat)
  /-- VARGMAX (R102): core. -/
  | vargmax (core : Nat)
  /-- VTOPK (R102): core. -/
  | vtopk (core : Nat)
  /-- VNFIN (R96): core. -/
  | vnfin (core : Nat)
  /-- OPTW (R183): core. -/
  | optw (core : Nat)
  /-- FNOP (R106): field and slot of the steward program. -/
  | fnop (f sl : Nat)
  /-- FRUN (R107): field and slot. -/
  | frun (f sl : Nat)
  /-- FRUN_BIND (R305): field and slot. -/
  | frunBind (f sl : Nat)
  /-- FJOIN (R106): field and slot. -/
  | fjoin (f sl : Nat)
  /-- FGRANT (R363): field and slot. -/
  | fgrant (f sl : Nat)
  /-- FOPPT (R108): field and slot. -/
  | foppt (f sl : Nat)
  /-- FWAITG (R294): field and slot. -/
  | fwaitg (f sl : Nat)
  /-- FSIGG (R106): field and slot. -/
  | fsigg (f sl : Nat)
  /-- FLOOP (R106): field and slot. -/
  | floop (f sl : Nat)
  /-- FSETP (R90): field and slot. -/
  | fsetp (f sl : Nat)
  /-- FEND (R109): field and slot. -/
  | fend (f sl : Nat)
  /-- HEAD_EXACT (R131): field and slot of the steward at a Flume FKICK. -/
  | headExact (f sl : Nat)
  /-- HEAD_TOPK (R134): field and slot. -/
  | headTopk (f sl : Nat)
  /-- FEAT_MSE (R137): field and slot. -/
  | featMse (f sl : Nat)
  /-- FEAT_COS (R138): field and slot. -/
  | featCos (f sl : Nat)
  /-- FLUME_SLOT_TAKE (R128): instance and job context. -/
  | flumeSlotTake (n j : Nat)
  /-- FLUME_SLOT_DONE (R128): instance and slot engine. -/
  | flumeSlotDone (n e : Nat)
  /-- DISPATCH (R121): field and slot of the steward at a Diversion FKICK. -/
  | dispatch (f sl : Nat)
  /-- EXPERT_READY (R122): instance, job context and expert. -/
  | expertReady (n j x : Nat)
  /-- COMBINE (R124): field and slot. -/
  | combine (f sl : Nat)
  /-- CYCLE_LIMIT (R110): core and the instant the limit is judged. -/
  | cycleLimit (core at_ : Nat)
  /-- STOP_REQUEST (R93): core and cause. -/
  | stopRequest (core : Nat) (cause : StopCause)
  /-- TILE_BOUNDARY_STOP (R93): core. -/
  | tileBoundaryStop (core : Nat)
  /-- INSTANCE_SAVE_DONE (R309): core. -/
  | instanceSaveDone (core : Nat)
  /-- CORE_CLEAR_DONE (R111): core. -/
  | coreClearDone (core : Nat)
  /-- INSTANCE_RESTORE_DONE (R309): core, and an uncorrectable error met in the record. -/
  | instanceRestoreDone (core : Nat) (ecc : List EccStrike)
  /-- FLD_PG_DELAY (R112): field and the instant the delay is judged. -/
  | fldPgDelay (f at_ : Nat)
  /-- FIELD_WAKE (R112): field. -/
  | fieldWake (f : Nat)
  /-- SCH_QUANTUM (R306): the instant of the boundary. -/
  | schQuantum (at_ : Nat)
  /-- SCH_DRAIN (R307): context and the instant the window is judged. -/
  | schDrain (c at_ : Nat)
  /-- LATE_RESPONSE (R308): core, tag and generation of the abandoned request. -/
  | lateResponse (core tag gen : Nat)
  /-- ROTATION_LEAD (R312): entry and the instant. -/
  | rotationLead (lead : EntryAt)
  /-- ROTATION_ENTRY_START (R312): entry and the instant. -/
  | rotationEntryStart (j at_ : Nat)
  /-- ROTATION_ENTRY_END (R313): entry and the instant. -/
  | rotationEntryEnd (j at_ : Nat)
  /-- SELFTEST_PIECE (R390): field, the positions of the cores that fail, whether the steward fails, and the instant the piece ends. -/
  | selftestPiece (f : Nat) (failing : List Nat) (steward : Bool) (at_ : Nat)
  /-- RESET_CONTEXT (R316): issuing function and context. -/
  | resetContext (fn c : Nat)
  /-- TEARDOWN (R315): issuing function and context. -/
  | teardown (fn c : Nat)
  /-- TEARDOWN_DONE (R315): context. -/
  | teardownDone (c : Nat)
  /-- CXL_LINK_UP (R272): port and the devices found. -/
  | cxlLinkUp (n : Nat) (devs : List CxlDev)
  /-- CXL_TIMEOUT (R273): port and the instant the response is judged missing. -/
  | cxlTimeout (n at_ : Nat)
  /-- CXL_MALFORMED (R273): port. -/
  | cxlMalformed (n : Nat)
  /-- CXL_LINK (R273): port. -/
  | cxlLink (n : Nat)
  /-- CXL_POISON (R273): port and the requester of the poisoned data. -/
  | cxlPoison (n : Nat) (req : MemReq)
  /-- CXL_MEDIA (R273): port and address. -/
  | cxlMedia (n addr : Nat)
  /-- PATROL_SCRUB (R264): device, corrected errors found, and the address of an uncorrectable one. -/
  | patrolScrub (dev ce : Nat) (addr : Option Nat)
  /-- SELF_REFRESH (R371): device. -/
  | selfRefresh (dev : Nat)
  /-- AQUEDUCT_DEGRADED (R286): Aqueduct, and whether it can run at half width. -/
  | aqueductDegraded (n : Nat) (half : Bool)
  /-- ATTEST (R357): issuing function, and whether the flash write it needs succeeds. -/
  | attest (fn : Nat) (flash : Bool)
  /-- READ_CERTS (R357): issuing function. -/
  | readCerts (fn : Nat)
  /-- INSTALL_POLICY (R354): issuing function and the bytes read at SEC_IN_ADDR, and whether the flash write it needs succeeds. -/
  | installPolicy (fn : Nat) (bytes : Bytes) (flash : Bool)
  /-- TRANSFER_OWNER (R354): issuing function and the bytes read at SEC_IN_ADDR, and whether the flash write it needs succeeds. -/
  | transferOwner (fn : Nat) (bytes : Bytes) (flash : Bool)
  /-- RAISE_FW_FLOOR (R351): issuing function, and whether the flash write it needs succeeds. -/
  | raiseFwFloor (fn : Nat) (flash : Bool)
  /-- ROTATE_SYSTEM (R345): issuing function and district, and whether the flash write it needs succeeds. -/
  | rotateSystem (fn d : Nat) (flash : Bool)
  /-- AK_ROOT_READY (R356): the Security block. -/
  | akRootReady
  /-- SUPPLY_SWITCH (R360): the input voltages in 10 mV. -/
  | supplySwitch (mvA mvB : Nat)
  /-- SUPPLY_RETURN (R360): the instant the 100 ms end. -/
  | supplyReturn (at_ : Nat)
  /-- SUPPLY_LOSS (R361): the input voltages in 10 mV. -/
  | supplyLoss (mvA mvB : Nat)
  /-- PWR_RATING (R360): the word written to PWR_RATING. -/
  | pwrRating (fn : Nat) (value : Word)
  /-- ALLOTMENT_WINDOW (R362): the power drawn from each input in the window that ends, in W, and the instant. -/
  | allotmentWindow (wA wB at_ : Nat)
  /-- ALT_GRANT_LIMIT (R363): field, slot and the instant the limit is judged. -/
  | altGrantLimit (f sl at_ : Nat)
  /-- CHARGE_POST (R368): the energy metered. -/
  | chargePost (charge : Charge)
  /-- DROOP_ENGAGE (R369): field. -/
  | droopEngage (f : Nat)
  /-- DROOP_RESTORE (R369): field. -/
  | droopRestore (f : Nat)
  /-- TIM_SET (R374): the value written. -/
  | timSet (fn : Nat) (value : DWord)
  /-- PPS_EDGE (R375): the oscillator instant of the edge. -/
  | ppsEdge (at_ : Nat)
  /-- HOLDOVER (R375): the instant. -/
  | holdover (at_ : Nat)
  /-- STEP_HOLD_END (R376): the instant. -/
  | stepHoldEnd (at_ : Nat)
  /-- COLD_RESET (R377): T0. -/
  | coldReset (at_ : Nat)
  /-- POWER_GOOD (R377): the input voltages in 10 mV. -/
  | powerGood (mvA mvB : Nat)
  /-- LKK_BOOT (R350): the outcome of each firmware slot and the module's variant letter. -/
  | lkkBoot (slot0 slot1 : Bytes) (variant : Nat)
  /-- IDENTITY (R344): whether the root secret is reconstructed, and whether the replay-protected region reads back. -/
  | identity (ok flash : Bool)
  /-- MEM_TRAIN (R377): device and whether it trained. -/
  | memTrain (dev : Nat) (ok : Bool)
  /-- SURVEY_LOAD (R48): the default slot. -/
  | surveyLoad
  /-- HEADGATE_LOAD (R350): the outcome of each firmware slot. -/
  | headgateLoad (slot0 slot1 : Bytes)
  /-- STAGE_LIMIT (R377): stage and the instant. -/
  | stageLimit (stg at_ : Nat)
  /-- WARM (R398): the function that writes LKK_RESET. -/
  | warm (fn : Nat)
  /-- FULL (R398): the function that writes LKK_RESET. -/
  | full (fn : Nat)
  /-- FULL_RESET_N (R415): what the pin did, and the instant. -/
  | fullResetN (wave : PinWave)
  /-- LKK_FENCE (R386): the Sluice. -/
  | lkkFence (sl : Nat)
  /-- RETURN (R388): the Sluice. -/
  | returnUnit (sl : Nat)
  /-- RETURN_TEST_DONE (R388): unit and outcome. -/
  | returnTestDone (kind unit : Nat) (ok : Bool)
  /-- NOTE (R393): the Sluice. -/
  | note (sl : Nat)
  /-- SELFTEST (R393): the Sluice. -/
  | selftest (sl : Nat)
  /-- COPY_SILT (R405): the Sluice. -/
  | copySilt (sl : Nat)
  /-- FLASH_COPY (R405): the copy in progress. -/
  | flashCopy
  /-- HG_WATCHDOG (R394): Headgate. -/
  | hgWatchdog (h : Nat)
  /-- HG_RESTART (R394): Headgate. -/
  | hgRestart (h : Nat)
  /-- WATCHDOG_KICK (R392): the Lockkeeper. -/
  | watchdogKick
  /-- LKK_FAIL (R395): cause. -/
  | lkkFail (cause : Nat)
  /-- RECOVERY_DONE (R395): the Lockkeeper. -/
  | recoveryDone
  /-- THERMAL_WARN (R385): sensor (0 to 3 terraces, 4 memory) and temperature. -/
  | thermalWarn (t temp : Nat)
  /-- THERMAL_CRIT (R385): terrace and temperature. -/
  | thermalCrit (t temp : Nat)
  /-- DUMP_RAM (R406): issuing function. -/
  | dumpRam (fn : Nat)
  /-- DUMP_FLASH_0 (R406): issuing function. -/
  | dumpFlash0 (fn : Nat)
  /-- DUMP_FLASH_1 (R406): issuing function. -/
  | dumpFlash1 (fn : Nat)
  /-- FKICK (R109): field and slot of the steward. -/
  | fkick (f sl : Nat)
  /-- DIVERSION_JOB_END (R123): instance and job context. -/
  | diversionJobEnd (n j : Nat)
  /-- INPUT_IN_RANGE (R360): input (0 A, 1 B) and its voltage in 10 mV. -/
  | inputInRange (b mv : Nat)
  /-- TEMPERATURE_FALL (R385): sensor and temperature. -/
  | temperatureFall (t temp : Nat)
  /-- REF_10MHZ (R372): whether a signal is present. -/
  | ref10mhz (present : Bool)
  /-- PCIE_LINK_UP (R378): port. -/
  | pcieLinkUp (port : Nat)
  /-- TRANSLATION_ROOT_LOAD (R301): context. -/
  | translationRootLoad (c : Nat)
  /-- OPERATING_POINT_CHANGE (R108): field. -/
  | operatingPointChange (f : Nat)
  /-- MCTP_MALFORMED (R403): binding. -/
  | mctpMalformed (b : Nat)
  /-- SET_ENDPOINT_ID (R399): binding and EID. -/
  | setEndpointId (b eid : Nat)
  /-- GET_ENDPOINT_ID (R399): binding. -/
  | getEndpointId (b : Nat)
  /-- GET_ENDPOINT_UUID (R399): binding. -/
  | getEndpointUuid (b : Nat)
  /-- GET_MCTP_VERSION_SUPPORT (R399): binding. -/
  | getMctpVersionSupport (b : Nat)
  /-- GET_MESSAGE_TYPE_SUPPORT (R399): binding. -/
  | getMessageTypeSupport (b : Nat)
  /-- GET_TID (R400): binding. -/
  | getTid (b : Nat)
  /-- SET_TID (R400): binding and TID. -/
  | setTid (b tid : Nat)
  /-- GET_PLDM_VERSION (R400): binding and type. -/
  | getPldmVersion (q : PldmQuery)
  /-- GET_PLDM_TYPES (R400): binding. -/
  | getPldmTypes (b : Nat)
  /-- GET_PLDM_COMMANDS (R400): binding and type. -/
  | getPldmCommands (q : PldmQuery)
  /-- GET_PDR_REPOSITORY_INFO (R400): binding. -/
  | getPdrRepositoryInfo (b : Nat)
  /-- GET_PDR (R400): binding and record handle. -/
  | getPdr (b rec : Nat)
  /-- GET_SENSOR_READING (R401): binding and sensor. -/
  | getSensorReading (b sensor : Nat)
  /-- GET_STATE_SENSOR_READINGS (R401): binding and sensor. -/
  | getStateSensorReadings (b sensor : Nat)
  /-- SET_EVENT_RECEIVER (R401): binding and receiver EID. -/
  | setEventReceiver (b eid : Nat)
  /-- PLATFORM_EVENT_MESSAGE (R401): binding. -/
  | platformEventMessage (b : Nat)
  /-- REQUEST_UPDATE (R402): binding. -/
  | requestUpdate (b : Nat) (wellFormed : Bool)
  /-- VERIFY_COMPLETE (R402): binding. -/
  | verifyComplete (b : Nat)
  /-- ACTIVATE_FIRMWARE (R402): binding and the request's self-contained activation flag. -/
  | activateFirmware (b : Nat) (wellFormed selfContained : Bool)
  /-- GET_STATUS (R400): binding. -/
  | getStatus (b : Nat)
  /-- CANCEL_UPDATE_COMPONENT (R400): binding. -/
  | cancelUpdateComponent (b : Nat)
  /-- CANCEL_UPDATE (R400): binding. -/
  | cancelUpdate (b : Nat)
  /-- PLDM_UPDATE_TIMEOUT (R402): the instant. -/
  | pldmUpdateTimeout (at_ : Nat)
  /-- SMBUS_STUCK (R403): the SMBus lines. -/
  | smbusStuck
  /-- MCTP_TYPE (R403): binding. -/
  | mctpType (b : Nat)
  /-- ERROR_UNSUPPORTED_PLDM_CMD (R400): binding. -/
  | errorUnsupportedPldmCmd (b : Nat)
  /-- PASS_COMPONENT_TABLE (R400): binding. -/
  | passComponentTable (b : Nat) (wellFormed : Bool)
  /-- UPDATE_COMPONENT (R402): binding and component. -/
  | updateComponent (b comp : Nat) (wellFormed : Bool)
  /-- REQUEST_FIRMWARE_DATA (R400): binding, offset and the block received. -/
  | requestFirmwareData (b off : Nat) (bytes : Bytes)
deriving DecidableEq, Repr

end Sys2Proof
end

