-- ==== Sys2Proof/WellFormed.lean ====
section
/-!
DEFINITION. The commands that the device can be given: every operand names a unit, a function, a slot or a sensor
that it has (01 R18 to R21, 13 R299, 14 R321, R323, R336).
-/
namespace Sys2Proof

/-- Functions (14 R321): 0 to 1,023 the virtual function of tenant t, 1,024 and 1,025 the physical functions. -/
def fnOk (fn : Nat) : Bool := decide (fn < 1026)
/-- Ring pairs of a function (14 R323). -/
def pairsOf (fn : Nat) : Nat := if fn ≥ 1024 then 64 else 8
def pairOk (fn pair : Nat) : Bool := fnOk fn && decide (pair < pairsOf fn)
def orderOk (o : OrderId) : Bool := pairOk o.fn o.pair
def portOk (p : Nat) : Bool := decide (p < 2)
def distOk (d : Nat) : Bool := decide (d < 16)
def fieldOk (f : Nat) : Bool := decide (f < 16)
def slotOk (s : Nat) : Bool := decide (s < 4)
def coreOk (i : Nat) : Bool := decide (i < 256)
/-- Cores of a field, by their place in it (01 R19). -/
def coreInOk (p : Nat) : Bool := decide (p < 16)
def tagOk (t : Nat) : Bool := decide (t < 16)
/-- Contexts (13 R299): 0 to 1,023 the tenants', 1,024 + d the system context of district d. -/
def ctxOk (c : Nat) : Bool := decide (c < 1040)
def tenantOk (t : Nat) : Bool := decide (t < 1024)
def devOk (x : Nat) : Bool := decide (x < 32)
def sluiceOk (s : Nat) : Bool := decide (s < 1040)
/-- Bindings of the management endpoint (17 R399): SMBus, port A, port B. -/
def bindOk (b : Nat) : Bool := decide (b < 3)
def headgateOk (h : Nat) : Bool := decide (h < 8)
def terraceOk (t : Nat) : Bool := decide (t < 4)
/-- Sensors: the terraces 0 to 3, and 4 for the hottest memory device. -/
def sensorOk (t : Nat) : Bool := decide (t < 5)
/-- One of four: an instance of a Flume, Confluence, Diversion or Gauge, a CXL port, an Aqueduct. -/
def instOk (n : Nat) : Bool := decide (n < 4)
def jobOk (j : Nat) : Bool := decide (j < 8)
def divJobOk (j : Nat) : Bool := decide (j < 4)
def engineOk (e : Nat) : Bool := decide (e < 4)
def expertOk (x : Nat) : Bool := decide (x < 4096)
/-- Engine classes 0 to 4 (04 R91). -/
def clsOk (k : Nat) : Bool := decide (k < 5)
/-- Stages of Table 16-9. -/
def stageOk (k : Nat) : Bool := decide (k < 9)
def entryOk (i : Nat) : Bool := decide (i < 131072)
/-- Entries of a ROTATION section (02 R43). -/
def rotOk (j : Nat) : Bool := decide (j < 4096)
/-- A write is 32 or 64 bits (00 R8). -/
def lenOk (n : Nat) : Bool := n == 4 || n == 8
def slcWordOk (k : Nat) : Bool := decide (k < 16)
/-- A master identity (14 R336) is 16 bits. -/
def masterOk (m : Nat) : Bool := decide (m < 65536)

def readOk : HostRead → Bool
  | .ringFetch fn pair => pairOk fn pair
  | .order o => orderOk o
  | .image => true
  | .security fn => fnOk fn

def waiterOk : Waiter → Bool
  | .order o => orderOk o
  | .core i => coreOk i
  | .dma i tag => coreOk i && tagOk tag
  | .steward f s => fieldOk f && slotOk s
  | .inst f s _ _ _ => fieldOk f && slotOk s
  | .instDma f s _ _ _ tag => fieldOk f && slotOk s && tagOk tag

def memReqOk : MemReq → Bool
  | .core i tag => coreOk i && tagOk tag
  | .order o => orderOk o
  | .context c => ctxOk c

def chargeOk : Charge → Bool
  | .slot f s _ => fieldOk f && slotOk s
  | .memory d _ => distOk d
  | .idle d _ => distOk d
  | .device _ => true

/-- A command that the device can be given. -/
@[inline] def Instr.wf : Instr → Bool
  | .registerWrite fn _ _ _ => fnOk fn
  | .pcieRegAccess fn _ _ _ => fnOk fn
  | .hrTail fn pair _ => pairOk fn pair
  | .trHead fn pair _ => pairOk fn pair
  | .pcieDoorbell fn _ _ _ => fnOk fn
  | .orderFetch fn pair _ => pairOk fn pair
  | .orderDispatch fn pair => pairOk fn pair
  | .orderComplete o => orderOk o
  | .holdoffExpiry fn pair _ => pairOk fn pair
  | .ringEnable fn pair _ => pairOk fn pair
  | .ringDisable fn pair _ => pairOk fn pair
  | .abort fn pair _ => pairOk fn pair
  | .errorRingEnable fn _ => fnOk fn
  | .slcMsgWrite who sl k len _ => masterOk who && sluiceOk sl && slcWordOk k && lenOk len
  | .slcSend who sl _ => masterOk who && sluiceOk sl
  | .sluiceUnbound who sl => masterOk who && sluiceOk sl
  | .sluiceTake sl _ => sluiceOk sl
  | .sluiceTimeout sl _ => sluiceOk sl
  | .ping sl => sluiceOk sl
  | .pcieBarMiss fn => fnOk fn
  | .pcieCplTimeout r => readOk r
  | .pcieCplError r => readOk r
  | .pcieAts o => orderOk o
  | .pcieMalformed fn => fnOk fn
  | .vfFunctionLevelReset t => tenantOk t
  | .pfFunctionLevelReset port => portOk port
  | .vfEnableClear port => portOk port
  | .perstAssert port => portOk port
  | .linkDown port => portOk port
  | .perstRelease port _ => portOk port
  | .dmaOrder o => orderOk o
  | .systemDmaDone o _ => orderOk o
  | .alloc o => orderOk o
  | .free o => orderOk o
  | .set o => orderOk o
  | .add o => orderOk o
  | .map o => orderOk o
  | .unmap o => orderOk o
  | .protect o => orderOk o
  | .create o => orderOk o
  | .load o => orderOk o
  | .pin o => orderOk o
  | .unpin o => orderOk o
  | .drop o => orderOk o
  | .cacheLoadDone idx _ _ => entryOk idx
  | .trainStep o => orderOk o
  | .trainStepStart o => orderOk o
  | .run o => orderOk o
  | .request o => orderOk o
  | .cancel o => orderOk o
  | .offtakeInstall o => orderOk o
  | .offtakeRemove o => orderOk o
  | .offtakeSwitch o => orderOk o
  | .importPart o => orderOk o
  | .final o => orderOk o
  | .exportSum o => orderOk o
  | .ring o => orderOk o
  | .post f sl => fieldOk f && slotOk sl
  | .cflDeadline d _ => distOk d
  | .reductionDone d => distOk d
  | .cflFinalLimit d _ => distOk d
  | .loadBuckets fn d => fnOk fn && distOk d
  | .dropPending fn d => fnOk fn && distOk d
  | .loadTable fn d => fnOk fn && distOk d
  | .setRing fn d => fnOk fn && distOk d
  | .setLs fn d => fnOk fn && distOk d
  | .clearStreaks fn d => fnOk fn && distOk d
  | .surveyImageRead _ => true
  | .stage fn => fnOk fn
  | .initial fn => fnOk fn
  | .resurvey fn d => fnOk fn && distOk d
  | .storeDefault fn => fnOk fn
  | .discard fn => fnOk fn
  | .raiseFloor fn _ => fnOk fn
  | .srvDrainLimit _ => true
  | .applyDone => true
  | .prefillChunkDispatch d => distOk d
  | .decodeStep d => distOk d
  | .stepCommit d _ => distOk d
  | .outfallRetry _ _ => true
  | .intStallLimit _ _ => true
  | .lendingDecision d _ => distOk d
  | .loadProfiles fn d => fnOk fn && distOk d
  | .flushPrefixes fn d => fnOk fn && distOk d
  | .intVfShare t _ => tenantOk t
  | .captureRingWrite d _ _ => distOk d
  | .nop core => coreOk core
  | .endInst core => coreOk core
  | .instanceEnd core => coreOk core
  | .loop core => coreOk core
  | .setp core => coreOk core
  | .addp core => coreOk core
  | .waitg core => coreOk core
  | .waitRelease w => waiterOk w
  | .sigg core => coreOk core
  | .fence core => coreOk core
  | .sett core => coreOk core
  | .sete core => coreOk core
  | .sets core => coreOk core
  | .dma core => coreOk core
  | .coreDmaDone core tag _ => coreOk core && tagOk tag
  | .dmaw core => coreOk core
  | .tload x => coreOk x.core
  | .tstore core => coreOk core
  | .accld core => coreOk core
  | .trans core => coreOk core
  | .sound core => coreOk core
  | .mma core => coreOk core
  | .mmaa core => coreOk core
  | .mmab core => coreOk core
  | .bgrad core => coreOk core
  | .bgradf core => coreOk core
  | .imma core => coreOk core
  | .instructionDone core cls _ => coreOk core && clsOk cls
  | .cvt core => coreOk core
  | .enc core => coreOk core
  | .dec core => coreOk core
  | .vadd core => coreOk core
  | .vsub core => coreOk core
  | .vmul core => coreOk core
  | .vfma core => coreOk core
  | .vscale core => coreOk core
  | .vdiv core => coreOk core
  | .vsqrt core => coreOk core
  | .vrcp core => coreOk core
  | .vrsqrt core => coreOk core
  | .vexp2 core => coreOk core
  | .vlog2 core => coreOk core
  | .vmax core => coreOk core
  | .vmin core => coreOk core
  | .vgt core => coreOk core
  | .vsel core => coreOk core
  | .vmov core => coreOk core
  | .vbcast core => coreOk core
  | .vrsum core => coreOk core
  | .vrmax core => coreOk core
  | .vargmax core => coreOk core
  | .vtopk core => coreOk core
  | .vnfin core => coreOk core
  | .optw core => coreOk core
  | .fnop f sl => fieldOk f && slotOk sl
  | .frun f sl => fieldOk f && slotOk sl
  | .frunBind f sl => fieldOk f && slotOk sl
  | .fjoin f sl => fieldOk f && slotOk sl
  | .fgrant f sl => fieldOk f && slotOk sl
  | .foppt f sl => fieldOk f && slotOk sl
  | .fwaitg f sl => fieldOk f && slotOk sl
  | .fsigg f sl => fieldOk f && slotOk sl
  | .floop f sl => fieldOk f && slotOk sl
  | .fsetp f sl => fieldOk f && slotOk sl
  | .fend f sl => fieldOk f && slotOk sl
  | .headExact f sl => fieldOk f && slotOk sl
  | .headTopk f sl => fieldOk f && slotOk sl
  | .featMse f sl => fieldOk f && slotOk sl
  | .featCos f sl => fieldOk f && slotOk sl
  | .flumeSlotTake n j => instOk n && jobOk j
  | .flumeSlotDone n e => instOk n && engineOk e
  | .dispatch f sl => fieldOk f && slotOk sl
  | .expertReady n j x => instOk n && divJobOk j && expertOk x
  | .combine f sl => fieldOk f && slotOk sl
  | .cycleLimit core _ => coreOk core
  | .stopRequest core _ => coreOk core
  | .tileBoundaryStop core => coreOk core
  | .instanceSaveDone core => coreOk core
  | .coreClearDone core => coreOk core
  | .instanceRestoreDone core _ => coreOk core
  | .fldPgDelay f _ => fieldOk f
  | .fieldWake f => fieldOk f
  | .schQuantum _ => true
  | .schDrain c _ => ctxOk c
  | .lateResponse core tag _ => coreOk core && tagOk tag
  | .rotationLead x => rotOk x.entry
  | .rotationEntryStart j _ => rotOk j
  | .rotationEntryEnd j _ => rotOk j
  | .selftestPiece f failing _ _ => fieldOk f && failing.all coreInOk
  | .resetContext fn c => fnOk fn && ctxOk c
  | .teardown fn c => fnOk fn && ctxOk c
  | .teardownDone c => ctxOk c
  | .cxlLinkUp n _ => instOk n
  | .cxlTimeout n _ => instOk n
  | .cxlMalformed n => instOk n
  | .cxlLink n => instOk n
  | .cxlPoison n req => instOk n && memReqOk req
  | .cxlMedia n _ => instOk n
  | .patrolScrub dev _ _ => devOk dev
  | .selfRefresh dev => devOk dev
  | .aqueductDegraded n _ => instOk n
  | .attest fn _ => fnOk fn
  | .readCerts fn => fnOk fn
  | .installPolicy fn _ _ => fnOk fn
  | .transferOwner fn _ _ => fnOk fn
  | .raiseFwFloor fn _ => fnOk fn
  | .rotateSystem fn d _ => fnOk fn && distOk d
  | .akRootReady => true
  | .supplySwitch _ _ => true
  | .supplyReturn _ => true
  | .supplyLoss _ _ => true
  | .pwrRating fn _ => fnOk fn
  | .allotmentWindow _ _ _ => true
  | .altGrantLimit f sl _ => fieldOk f && slotOk sl
  | .chargePost charge => chargeOk charge
  | .droopEngage f => fieldOk f
  | .droopRestore f => fieldOk f
  | .timSet fn _ => fnOk fn
  | .ppsEdge _ => true
  | .holdover _ => true
  | .stepHoldEnd _ => true
  | .coldReset _ => true
  | .powerGood _ _ => true
  | .lkkBoot _ _ _ => true
  | .identity _ _ => true
  | .memTrain dev _ => devOk dev
  | .surveyLoad => true
  | .headgateLoad _ _ => true
  | .stageLimit stg _ => stageOk stg
  | .warm fn => fnOk fn
  | .full fn => fnOk fn
  | .fullResetN _ => true
  | .lkkFence sl => sluiceOk sl
  | .returnUnit sl => sluiceOk sl
  | .returnTestDone _ _ _ => true
  | .note sl => sluiceOk sl
  | .selftest sl => sluiceOk sl
  | .copySilt sl => sluiceOk sl
  | .flashCopy => true
  | .hgWatchdog h => headgateOk h
  | .hgRestart h => headgateOk h
  | .watchdogKick => true
  | .lkkFail _ => true
  | .recoveryDone => true
  | .thermalWarn t _ => sensorOk t
  | .thermalCrit t _ => terraceOk t
  | .dumpRam fn => fnOk fn
  | .dumpFlash0 fn => fnOk fn
  | .dumpFlash1 fn => fnOk fn
  | .fkick f sl => fieldOk f && slotOk sl
  | .diversionJobEnd n j => instOk n && divJobOk j
  | .inputInRange b _ => portOk b
  | .temperatureFall t _ => sensorOk t
  | .ref10mhz _ => true
  | .pcieLinkUp port => portOk port
  | .translationRootLoad c => ctxOk c
  | .operatingPointChange f => fieldOk f
  | .mctpMalformed b => bindOk b
  | .setEndpointId b _ => bindOk b
  | .getEndpointId b => bindOk b
  | .getEndpointUuid b => bindOk b
  | .getMctpVersionSupport b => bindOk b
  | .getMessageTypeSupport b => bindOk b
  | .getTid b => bindOk b
  | .setTid b _ => bindOk b
  | .getPldmVersion q => bindOk q.binding
  | .getPldmTypes b => bindOk b
  | .getPldmCommands q => bindOk q.binding
  | .getPdrRepositoryInfo b => bindOk b
  | .getPdr b _ => bindOk b
  | .getSensorReading b _ => bindOk b
  | .getStateSensorReadings b _ => bindOk b
  | .setEventReceiver b _ => bindOk b
  | .platformEventMessage b => bindOk b
  | .requestUpdate b _ => bindOk b
  | .verifyComplete b => bindOk b
  | .activateFirmware b _ _ => bindOk b
  | .getStatus b => bindOk b
  | .cancelUpdateComponent b => bindOk b
  | .cancelUpdate b => bindOk b
  | .pldmUpdateTimeout _ => true
  | .smbusStuck => true
  | .mctpType b => bindOk b
  | .errorUnsupportedPldmCmd b => bindOk b
  | .passComponentTable b _ => bindOk b
  | .updateComponent b _ _ => bindOk b
  | .requestFirmwareData b _ _ => bindOk b

end Sys2Proof
end

