-- ==== Sys2Proof/Decode.lean ====
section
/-!
DEFINITION. The commands of the block carry no encoding in the opcode table: its rows give no bits. The words that the
device does decode (core and steward instructions, 04 Table 04-4; orders, 14 Table 14-3; descriptors) are read by the
commands that execute them (Machine/Operands.lean).
-/
namespace Sys2Proof

/-- The command that a word spells by the table's bits: none, since no row of the table gives bits. -/
def decodeTableWord (_nbits _w : Nat) : Option Instr := none

end Sys2Proof
end

