-- ==== Sys2Proof/Config.lean ====
section
/-!
DEFINITION. What an implementation fixes and the spec leaves open: constants without a body, so that nothing can be
proved of their values. Each is named in the assumption log.
-/
namespace Sys2Proof

/-- The signature of the identity key over a message with an index (15 R356; log entry 30). -/
opaque Config.ikSign : Nat → Bytes → Bytes
/-- The signature of attestation key g over a message with an index (15 R356; log entry 30). -/
opaque Config.akSign : Nat → Nat → Bytes → Bytes
/-- The public key of attestation key g (15 R345; log entry 30). -/
opaque Config.akPublic : Nat → Bytes
/-- The identity certificate in the flash (15 R355; log entry 30). -/
opaque Config.identityCert : Bytes
/-- The 16 bytes of the device identity digest (15 R355; log entry 30). -/
opaque Config.identityDigest : Bytes
/-- The signature on the certificate of attestation key g that a cold start finds (15 R355; log entry 30). -/
opaque Config.akCertSig : Nat → Bytes
/-- The random 32-byte prefix domain key drawn with number n (15 Table 15-1; log entry 30). -/
opaque Config.domainKey : Nat → Bytes
/-- Old or new: the choice a read makes for a 64-byte unit that a pending write covers (04 R92; log entry 31). -/
opaque Config.freeBool : Nat → Bool
/-- A free value: the n-th that the model draws (log entry 31). -/
opaque Config.freeNat : Nat → Nat
/-- ROWS and COLS of a tensor of a teacher, by its model identifier and its tensor identifier, where the teacher has it:
the spec gives no layout of a model's directory (10 R249; log entry 34). -/
opaque Config.teacherShape : Nat → Nat → Option (Nat × Nat)
/-- The SHAKE256 digest of the vendor root key of a root slot, in the Lockkeeper's ROM (15 R350; log entry 30). -/
opaque Config.rootDigest : Nat → Bytes
/-- The root secret of the PUF, 32 bytes (15 R344; log entry 30). -/
opaque Config.rootSecret : Bytes
/-- The random 64-byte memory key that a context was given with number n (15 Table 15-1; log entry 30). -/
opaque Config.tenantKey : Nat → Bytes
/-- The endpoint UUID (17 R399; log entry 32). -/
opaque Config.uuid : List Nat

end Sys2Proof
end

