-- ==== Sys2Proof/Machine/Bits.lean ====
section
/-!
DEFINITION. Fields of words, little-endian bytes (00 R3, R4) and saturating counters.
-/
namespace Sys2Proof.Machine

/-- Bits [lo + w - 1 : lo] of n (00 R4). -/
def fld (n lo w : Nat) : Nat := n / 2 ^ lo % 2 ^ w

/-- Bit i of n. -/
def bit (n i : Nat) : Bool := n / 2 ^ i % 2 == 1

/-- n with bits [lo + w - 1 : lo] replaced by v. -/
def setFld (n lo w v : Nat) : Nat := n - fld n lo w * 2 ^ lo + v % 2 ^ w * 2 ^ lo

/-- 1 or 0. -/
def b2n (b : Bool) : Nat := if b then 1 else 0

/-- The k little-endian bytes of n (00 R3). -/
def le : Nat → Nat → Bytes
  | 0, _ => []
  | k + 1, n => BitVec.ofNat 8 n :: le k (n / 256)

/-- The number that bytes spell, the least significant first (00 R3). -/
def ofLe : Bytes → Nat
  | [] => 0
  | b :: r => b.toNat + 256 * ofLe r

/-- The little-endian field of k bytes at offset o; bytes beyond the end count as 0. -/
def leAt (bs : Bytes) (o k : Nat) : Nat := ofLe ((bs.drop o).take k)

/-- n modulo 2³². -/
def w32 (n : Nat) : Nat := n % 2 ^ 32
/-- n modulo 2⁶⁴. -/
def w64 (n : Nat) : Nat := n % 2 ^ 64
/-- A counter that saturates at 2³² − 1. -/
def sat32 (n : Nat) : Nat := min n (2 ^ 32 - 1)
/-- A counter that saturates at 2¹⁶ − 1. -/
def sat16 (n : Nat) : Nat := min n (2 ^ 16 - 1)

/-- The two's complement value of the low w bits of n. -/
def sgn (w n : Nat) : Int :=
  let m := n % 2 ^ w
  if m < 2 ^ (w - 1) then (m : Int) else (m : Int) - (2 ^ w : Nat)

/-- The low w bits of an integer's two's complement. -/
def unsgn (w : Nat) (i : Int) : Nat := (i % ((2 ^ w : Nat) : Int)).toNat

/-- An integer held to a range. -/
def clampInt (x lo hi : Int) : Int := max lo (min hi x)

/-- A value held to a range (00 R56: the nearest bound). -/
def clamp (x lo hi : Nat) : Nat := max lo (min hi x)

/-- The numbers of the bits that are set, below n. -/
def bitsOf (m n : Nat) : List Nat := (List.range n).filter (bit m)

/-- The mask whose bits are those listed. -/
def maskOf (l : List Nat) : Nat := l.foldl (fun m i => if bit m i then m else m + 2 ^ i) 0

/-- Division rounded up. -/
def ceilDiv (a b : Nat) : Nat := (a + b - 1) / b

/-- n rounded up to a multiple of k. -/
def roundUp (n k : Nat) : Nat := ceilDiv n k * k

/-- Two ranges of bytes meet. -/
def overlap (a n b m : Nat) : Bool := decide (0 < n ∧ 0 < m ∧ a < b + m ∧ b < a + n)

/-- Bytes laid over a list at an offset. -/
def overlay (bs : Bytes) (o : Nat) (v : Bytes) : Bytes := bs.take o ++ v ++ bs.drop (o + v.length)

/-- n zero bytes. -/
def zeros (n : Nat) : Bytes := List.replicate n 0

/-- All bytes are 0. -/
def allZero (bs : Bytes) : Bool := bs.all (· == 0)

/-- Replace element i of a list. -/
def setAt {α : Type} (l : List α) (i : Nat) (v : α) : List α := l.set i v

/-- Element i of a list, or a default. -/
def nth {α : Type} (d : α) (l : List α) (i : Nat) : α := l.getD i d

/-- Insert into a list sorted by a key, before elements of an equal key. -/
def insertBy {α : Type} (k : α → Nat) (x : α) : List α → List α
  | [] => [x]
  | y :: r => if k x ≤ k y then x :: y :: r else y :: insertBy k x r

/-- A list in rising order of a key; equal keys keep their order. -/
def sortBy {α : Type} (k : α → Nat) : List α → List α
  | [] => []
  | x :: r => insertBy k x (sortBy k r)

/-- The first element whose key is the least. -/
def argMin {α : Type} (k : α → Nat) : List α → Option α
  | [] => none
  | x :: r => match argMin k r with
    | none => some x
    | some y => if k y < k x then some y else some x

/-- No number stands twice in a list. -/
def allDistinct : List Nat → Bool
  | [] => true
  | x :: r => !r.contains x && allDistinct r

/-- Values in 16-bit fields, the first lowest. -/
def pack16 : List Nat → Nat
  | [] => 0
  | v :: r => v % 65536 + 65536 * pack16 r

/-- The sum of a list of numbers. -/
def sumNat (l : List Nat) : Nat := l.foldl (· + ·) 0

end Sys2Proof.Machine
end

