-- ==== Sys2Proof/Machine/Float.lean ====
section
/-!
DEFINITION. Element formats, rounding and conversion, and exactly rounded arithmetic (03 R58 to R60, R64 to R68, R74
to R79). A value is held exactly, as a sign, a natural number and a power of two, and is rounded once.
-/
namespace Sys2Proof.Machine

/-- An exact value: NaN, an infinity, or (−1)^neg · m · 2^e. -/
inductive Val where
  | nan
  | inf (neg : Bool)
  | fin (neg : Bool) (m : Nat) (e : Int)
deriving DecidableEq, Repr

/-- The formats of Table 03-8, with E2M1 as 0. -/
inductive Fmt where
  | fp32 | bf16 | fp16 | e5m2 | e4m3 | int8 | ifb8 | ifb4 | mxfp8 | mxfp4 | int32 | e2m1
deriving DecidableEq, Repr

/-- Format tags (Table 03-8). -/
def fmtOfTag (t : Nat) : Option Fmt :=
  match t with
  | 1 => some .fp32 | 2 => some .bf16 | 3 => some .fp16 | 4 => some .e5m2 | 5 => some .e4m3 | 6 => some .int8
  | 7 => some .ifb8 | 8 => some .ifb4 | 9 => some .mxfp8 | 10 => some .mxfp4 | 11 => some .int32 | _ => none

/-- Block formats (R61 to R63). -/
def Fmt.isBlock : Fmt → Bool
  | .ifb8 => true | .ifb4 => true | .mxfp8 => true | .mxfp4 => true | _ => false

/-- MX layout (R63). -/
def Fmt.isMx : Fmt → Bool
  | .mxfp8 => true | .mxfp4 => true | _ => false

/-- The element format of a block format; a plain format is its own. -/
def Fmt.elem : Fmt → Fmt
  | .ifb8 => .e4m3 | .mxfp8 => .e4m3 | .ifb4 => .e2m1 | .mxfp4 => .e2m1 | f => f

/-- Bits of a plain element (Table 03-1). -/
def Fmt.bits : Fmt → Nat
  | .fp32 => 32 | .int32 => 32 | .bf16 => 16 | .fp16 => 16 | .e5m2 => 8 | .e4m3 => 8 | .int8 => 8 | .e2m1 => 4
  | .ifb8 => 8 | .mxfp8 => 8 | .ifb4 => 4 | .mxfp4 => 4

/-- Bytes that n elements take, apart from MX scales (R61 to R63). Blocks are whole. -/
def Fmt.bytes (f : Fmt) (n : Nat) : Nat :=
  match f with
  | .ifb8 => 34 * ceilDiv n 32
  | .ifb4 => 20 * ceilDiv n 32
  | .mxfp8 => 32 * ceilDiv n 32
  | .mxfp4 => 16 * ceilDiv n 32
  | f => f.bits / 8 * n

/-- Mantissa bits and bias of a floating-point format (Table 03-1). -/
def Fmt.shape : Fmt → Nat × Nat × Nat
  | .fp32 => (8, 23, 127) | .bf16 => (8, 7, 127) | .fp16 => (5, 10, 15) | .e5m2 => (5, 2, 15) | .e4m3 => (4, 3, 7)
  | .e2m1 => (2, 1, 1) | _ => (8, 23, 127)

/-- The exponent of the largest finite value and its mantissa with the hidden bit (Table 03-1). -/
def Fmt.largest : Fmt → Nat × Int
  | .fp32 => (2 ^ 24 - 1, 104) | .bf16 => (2 ^ 8 - 1, 120) | .fp16 => (2 ^ 11 - 1, 5) | .e5m2 => (7, 13)
  | .e4m3 => (14, 5) | .e2m1 => (3, 1) | _ => (2 ^ 24 - 1, 104)

/-- The code of the largest finite magnitude. -/
def Fmt.maxCode : Fmt → Nat
  | .fp32 => 0x7F7FFFFF | .bf16 => 0x7F7F | .fp16 => 0x7BFF | .e5m2 => 0x7B | .e4m3 => 0x7E | .e2m1 => 7
  | .int8 => 127 | _ => 0x7F7FFFFF

/-- The code of positive infinity, for the formats that have one. -/
def Fmt.infCode : Fmt → Nat
  | .fp32 => 0x7F800000 | .bf16 => 0x7F80 | .fp16 => 0x7C00 | .e5m2 => 0x7C | _ => 0

/-- The canonical NaN of a format (R59). -/
def Fmt.nanCode : Fmt → Nat
  | .fp32 => 0x7FC00000 | .bf16 => 0x7FC0 | .fp16 => 0x7E00 | .e5m2 => 0x7E | .e4m3 => 0x7F | _ => 0

/-- The canonical FP32 NaN. -/
def nan32 : Nat := 0x7FC00000

/-- m · 2^e, as a signed value. -/
def Val.ofInt (i : Int) : Val := .fin (decide (i < 0)) i.natAbs 0

/-- The value of an element code (R58). -/
def decodeElem (f : Fmt) (code : Nat) : Val :=
  match f with
  | .int8 => Val.ofInt (sgn 8 code)
  | .int32 => Val.ofInt (sgn 32 code)
  | f =>
    let (eb, mb, bias) := f.shape
    let s := bit code (eb + mb)
    let e := fld code mb eb
    let m := fld code 0 mb
    let top := 2 ^ eb - 1
    if f = .e4m3 ∧ e = top ∧ m = 7 then .nan
    else if f ≠ .e4m3 ∧ f ≠ .e2m1 ∧ e = top then (if m = 0 then .inf s else .nan)
    else if e = 0 then .fin s m (1 - (bias : Int) - mb)
    else .fin s (2 ^ mb + m) ((e : Int) - bias - mb)

/-- floor(log2 v) of a non-zero magnitude. -/
def exOf (m : Nat) (e : Int) : Int := (Nat.log2 m : Int) + e

/-- m · 2^(e − q) as an integer part and the 16 bits below it, and whether anything lies below the integer part
and the half. -/
def scaleTo (m : Nat) (e q : Int) : Nat × Nat × Nat :=
  let d := e - q
  if 0 ≤ d then (m * 2 ^ d.toNat, 0, 1)
  else let k := (-d).toNat; (m / 2 ^ k, m % 2 ^ k, 2 ^ k)

/-- How a conversion rounds: to nearest even, or stochastically with bits [31:16] of its random word (R65, R66). -/
inductive Rnd where
  | rne
  | sr (r : Nat)
deriving DecidableEq, Repr

/-- An integer part n with remainder r of k, rounded. -/
def roundInt (rnd : Rnd) (n r k : Nat) : Nat :=
  match rnd with
  | .rne => if 2 * r > k ∨ (2 * r = k ∧ n % 2 = 1) then n + 1 else n
  | .sr w => if r * 2 ^ 16 / k + w ≥ 2 ^ 16 then n + 1 else n

/-- A magnitude rounded to a format of mb mantissa bits whose smallest normal exponent is emin, with an unbounded
range above (R67): the significand and the exponent of its unit. -/
def roundMag (rnd : Rnd) (mb : Nat) (emin : Int) (m : Nat) (e : Int) : Nat × Int :=
  if m = 0 then (0, emin - mb) else
  let q := max (exOf m e) emin - mb
  let (n, r, k) := scaleTo m e q
  let n' := roundInt rnd n r k
  if n' = 2 ^ (mb + 1) then (2 ^ mb, q + 1) else (n', q)

/-- m · 2^e exceeds m' · 2^e'. -/
def magGt (m : Nat) (e : Int) (m' : Nat) (e' : Int) : Bool :=
  if e ≥ e' then decide (m * 2 ^ (e - e').toNat > m') else decide (m > m' * 2 ^ (e' - e).toNat)

/-- The code of n · 2^q in a floating-point format that holds it. -/
def packMag (f : Fmt) (n : Nat) (q : Int) : Nat :=
  let (_, mb, bias) := f.shape
  if n < 2 ^ mb then n else (q + mb + bias).toNat * 2 ^ mb + (n - 2 ^ mb)

/-- Sign bit of a format. -/
def Fmt.signBit (f : Fmt) : Nat := 2 ^ (f.bits - 1)

/-- Events, as the low digit n of 0x0640 + n (Table 03-6). -/
abbrev Evs := List Nat

/-- Conversion of an exact value to an element format (R67, R68, Table 03-3). -/
def convert (f : Fmt) (rnd : Rnd) (convNan : Bool) (v : Val) : Nat × Evs :=
  match f with
  | .int8 =>
    match v with
    | .nan => (0, [4])
    | .inf s => (if s then 0x80 else 0x7F, [1])
    | .fin s m e =>
      let (n, r, k) := scaleTo m e 0
      let n' := roundInt rnd n r k
      if s then (if n' > 128 then (0x80, [1]) else (unsgn 8 (-(n' : Int)), []))
      else (if n' > 127 then (0x7F, [1]) else (n', []))
  | .int32 =>
    match v with
    | .nan => (0, [])
    | .inf s => (if s then 0x80000000 else 0x7FFFFFFF, [])
    | .fin s m e =>
      let (n, r, k) := scaleTo m e 0
      let n' := roundInt rnd n r k
      if s then (if n' > 2 ^ 31 then (0x80000000, []) else (unsgn 32 (-(n' : Int)), []))
      else (min n' (2 ^ 31 - 1), [])
  | f =>
    let sb (s : Bool) := if s then f.signBit else 0
    let overflow (s : Bool) : Nat × Evs :=
      if f = .e4m3 then (if convNan then (0x7F, [2]) else (sb s + 0x7E, [1])) else (sb s + f.infCode, [5])
    match v with
    | .nan => (f.nanCode, [])
    | .inf s => if f = .e4m3 then overflow s else (sb s + f.infCode, [])
    | .fin s m e =>
      let (_, mb, bias) := f.shape
      let (n, q) := roundMag rnd mb (1 - (bias : Int)) m e
      let (lm, le) := f.largest
      if magGt n q lm le then overflow s else (sb s + packMag f n q, [])

/-- FP32 code of an exact value, rounded by RNE: the result of an arithmetic operation, flushed in fast mode
(R74, R75, R77). -/
def finish32 (strict : Bool) (v : Val) : Nat × Evs :=
  let (c, ev) := convert .fp32 .rne false v
  if !strict ∧ fld c 23 8 = 0 ∧ fld c 0 23 ≠ 0 then (c / 2 ^ 31 * 2 ^ 31, [0]) else (c, ev)

/-- Two magnitudes over one exponent. -/
def align (m : Nat) (e : Int) (m' : Nat) (e' : Int) : Nat × Nat × Int :=
  if e ≤ e' then (m, m' * 2 ^ (e' - e).toNat, e) else (m * 2 ^ (e - e').toNat, m', e')

/-- Exact sum, with the zero signs of round-to-nearest addition. -/
def Val.add : Val → Val → Val
  | .nan, _ => .nan
  | _, .nan => .nan
  | .inf a, .inf b => if a = b then .inf a else .nan
  | .inf a, _ => .inf a
  | _, .inf b => .inf b
  | .fin s m e, .fin t n f =>
    let (a, b, g) := align m e n f
    if s = t then .fin s (a + b) g
    else if a = b then .fin false 0 g
    else if a > b then .fin s (a - b) g
    else .fin t (b - a) g

def Val.neg : Val → Val
  | .nan => .nan
  | .inf s => .inf !s
  | .fin s m e => .fin (!s) m e

/-- Exact product. -/
def Val.mul : Val → Val → Val
  | .nan, _ => .nan
  | _, .nan => .nan
  | .inf a, .inf b => .inf (a != b)
  | .inf a, .fin t n _ => if n = 0 then .nan else .inf (a != t)
  | .fin s m _, .inf b => if m = 0 then .nan else .inf (s != b)
  | .fin s m e, .fin t n f => .fin (s != t) (m * n) (e + f)

/-- A quotient to 96 bits and a sticky bit: enough to round once to any format of the device. -/
def Val.div : Val → Val → Val
  | .nan, _ => .nan
  | _, .nan => .nan
  | .inf _, .inf _ => .nan
  | .inf a, .fin t _ _ => .inf (a != t)
  | .fin s _ _, .inf b => .fin (s != b) 0 0
  | .fin s m e, .fin t n f =>
    if n = 0 then (if m = 0 then .nan else .inf (s != t))
    else if m = 0 then .fin (s != t) 0 0
    else
      let k := 96 + Nat.log2 n
      let a := m * 2 ^ k
      .fin (s != t) (2 * (a / n) + (if a % n = 0 then 0 else 1)) (e - f - k - 1)

/-- floor √n, by one bit of the root at a time. -/
def isqrtGo : Nat → Nat → Nat → Nat
  | 0, _, r => r
  | i + 1, n, r => let t := r + 2 ^ i; isqrtGo i n (if t * t ≤ n then t else r)

def isqrt (n : Nat) : Nat := isqrtGo (Nat.log2 n / 2 + 1) n 0

/-- A square root to 96 bits and a sticky bit. -/
def Val.sqrt : Val → Val
  | .nan => .nan
  | .inf s => if s then .nan else .inf false
  | .fin s m e =>
    if m = 0 then .fin s 0 0
    else if s then .nan
    else
      let odd := e % 2 ≠ 0
      let m' := (if odd then 2 * m else m) * 2 ^ 192
      let e' := (if odd then e - 1 else e) - 192
      let r := isqrt m'
      .fin false (2 * r + (if r * r = m' then 0 else 1)) (e' / 2 - 1)

/-- 2^(2^−i) over 2^192 for i = 1, 2, …: each is the root of the one before. -/
def exp2Go : Nat → Nat → Nat → Nat → Nat
  | 0, _, _, acc => acc
  | k + 1, frac, c, acc =>
    -- frac holds the k + 1 fraction bits not yet used
    let c' := isqrt (c * 2 ^ 192)
    exp2Go k (frac % 2 ^ k) c' (if frac / 2 ^ k % 2 = 1 then acc * c' / 2 ^ 192 else acc)

/-- 2^x to about 180 bits and a sticky bit (R77). -/
def Val.exp2 : Val → Val
  | .nan => .nan
  | .inf s => if s then .fin false 0 0 else .inf false
  | .fin s m e =>
    if m = 0 then .fin false 1 0
    else if exOf m e ≥ 12 then (if s then .fin false 1 (-4096) else .fin false 1 4096)
    else
      let k : Nat := if e < 0 then (-e).toNat else 0
      let i : Int := (if s then -1 else 1) * (m * 2 ^ (if e < 0 then 0 else e.toNat) : Nat)
      let n : Int := i / ((2 ^ k : Nat) : Int)
      let fr : Nat := (i % ((2 ^ k : Nat) : Int)).toNat
      if fr = 0 then .fin false 1 n
      else .fin false (2 * exp2Go k fr (2 ^ 193) (2 ^ 192) + 1) (n - 193)

/-- k bits of log2 of y / 2^400, for y from 2^400 up to 2^401. -/
def log2Go : Nat → Nat → Nat → Nat
  | 0, _, acc => acc
  | k + 1, y, acc =>
    let z := y * y / 2 ^ 400
    if z ≥ 2 ^ 401 then log2Go k (z / 2) (2 * acc + 1) else log2Go k z (2 * acc)

/-- log2 x to 128 fraction bits and a sticky bit (R77). -/
def Val.log2 : Val → Val
  | .nan => .nan
  | .inf s => if s then .nan else .inf false
  | .fin s m e =>
    if m = 0 then .inf true
    else if s then .nan
    else
      let l := Nat.log2 m
      let n : Int := (l : Int) + e
      if m = 2 ^ l then Val.ofInt n
      else
        let y := m * 2 ^ 400 / 2 ^ l
        let a : Int := n * ((2 ^ 128 : Nat) : Int) + (log2Go 128 y 0 : Nat)
        .fin (decide (a < 0)) (2 * a + 1).natAbs (-129)

/-- |v| lies above |w|, for numbers. -/
def Val.magGt : Val → Val → Bool
  | .inf _, .inf _ => false
  | .inf _, _ => true
  | .fin _ m e, .fin _ n f => Sys2Proof.Machine.magGt m e n f
  | _, _ => false

/-- The order of R79: NaN below every number, +0 above −0. -/
def Val.gt : Val → Val → Bool
  | .nan, _ => false
  | _, .nan => true
  | .inf a, .inf b => !a && b
  | .inf a, _ => !a
  | _, .inf b => b
  | .fin s m e, .fin t n f =>
    match s, t with
    | false, true => true
    | true, false => false
    | false, false => Sys2Proof.Machine.magGt m e n f
    | true, true => Sys2Proof.Machine.magGt n f m e

/-- maximumNumber and minimumNumber (R79, Table 03-5). -/
def Val.max (a b : Val) : Val := match a, b with
  | .nan, y => y
  | x, .nan => x
  | x, y => if Val.gt y x then y else x

def Val.min (a b : Val) : Val := match a, b with
  | .nan, y => y
  | x, .nan => x
  | x, y => if Val.gt x y then y else x

def Val.isNan : Val → Bool
  | .nan => true | _ => false

def Val.isInf : Val → Bool
  | .inf _ => true | _ => false

def Val.isZero : Val → Bool
  | .fin _ m _ => m == 0 | _ => false

def Val.sign : Val → Bool
  | .fin s _ _ => s | .inf s => s | .nan => false

def Val.abs : Val → Val
  | .fin _ m e => .fin false m e | .inf _ => .inf false | .nan => .nan

/-- v · 2^k. -/
def Val.scale (k : Int) : Val → Val
  | .fin s m e => .fin s m (e + k)
  | v => v

/-- The value of an FP32 word. -/
def f32 (c : Nat) : Val := decodeElem .fp32 c

/-- The FP32 word of a value that FP32 holds, or its rounding by RNE. -/
def to32 (v : Val) : Nat := (convert .fp32 .rne false v).1

/-- Exponent of a non-zero finite magnitude. -/
def Val.ex : Val → Int
  | .fin _ m e => exOf m e
  | _ => 0

/-- One group of at most 32 exact products in fast mode (R74). -/
def fastGroup (p : List Val) : Val :=
  let pInf := p.any fun v => v.isInf && !v.sign
  let nInf := p.any fun v => v.isInf && v.sign
  if p.any Val.isNan then .nan
  else if pInf && nInf then .nan
  else if pInf then .inf false
  else if nInf then .inf true
  else if p.all Val.isZero then .fin (p.all Val.sign) 0 0
  else
    let emax := p.foldl (fun a v => if v.isZero then a else match a with
      | none => some v.ex
      | some x => some (Max.max x v.ex)) none
    let q := emax.getD 0 - 27
    let s : Int := p.foldl (fun a v => match v with
      | .fin sg m e => let n := (scaleTo m e q).1; if sg then a - (n : Int) else a + n
      | _ => a) 0
    if s = 0 then .fin false 0 0 else .fin (decide (s < 0)) s.natAbs q

/-- The groups of a list, padded with +0 products (R73). -/
def groups32 : Nat → List Val → List (List Val)
  | 0, _ => []
  | n + 1, p => if p.isEmpty then [] else
    let g := p.take 32
    (g ++ List.replicate (32 - g.length) (.fin false 0 0)) :: groups32 n (p.drop 32)

/-- An accumulator (an FP32 word) after exact products, in the mode of the program (R73 to R75). -/
def dotAcc (strict : Bool) (acc : Nat) (p : List Val) : Nat × Evs :=
  if strict then
    p.foldl (fun (a : Nat × Evs) v => let (c, ev) := finish32 true (Val.add (f32 a.1) v); (c, a.2 ++ ev)) (acc, [])
  else
    (groups32 (p.length / 32 + 1) p).foldl (fun (a : Nat × Evs) g =>
      let (c, ev) := finish32 false (Val.add (f32 a.1) (fastGroup g)); (c, a.2 ++ ev)) (acc, [])

/-- An INT32 accumulator after INT8 products (R76). -/
def intAcc (acc : Int) (p : List Int) : Int × Evs :=
  p.foldl (fun (a : Int × Evs) v =>
    let s := a.1 + v
    if s > 2 ^ 31 - 1 then (2 ^ 31 - 1, a.2 ++ [3]) else if s < -(2 ^ 31) then (-(2 ^ 31), a.2 ++ [3]) else (s, a.2))
    (acc, [])

end Sys2Proof.Machine
end

