-- ==== Sys2Proof/Machine/Block.lean ====
section
/-!
DEFINITION. Block formats: decoding and encoding (03 R61 to R64, R69 to R72).
-/
namespace Sys2Proof.Machine

/-- A block of 32 elements, whatever its layout. -/
structure Blk where
  scale : Nat
  z : Bool
  esc : Bool
  oidx : Nat
  outlier : Nat
  elems : List Nat
deriving DecidableEq, Repr

/-- Nibbles of bytes, low first. -/
def nibbles (bs : Bytes) : List Nat := bs.flatMap fun b => [b.toNat % 16, b.toNat / 16]

/-- Bytes of nibbles, low first. -/
def packNibbles : List Nat → Bytes
  | a :: b :: r => BitVec.ofNat 8 (a % 16 + 16 * (b % 16)) :: packNibbles r
  | [a] => [BitVec.ofNat 8 (a % 16)]
  | [] => []

/-- Read a block (R61 to R63). sc is the scale byte of an MX block. -/
def readBlk (f : Fmt) (bs : Bytes) (sc : Nat) : Blk :=
  match f with
  | .ifb8 =>
    let h := leAt bs 0 2
    { scale := fld h 0 8, z := bit h 8, esc := false, oidx := 0, outlier := 0,
      elems := ((bs.drop 2).take 32).map BitVec.toNat }
  | .ifb4 =>
    let h := leAt bs 0 2
    { scale := fld h 0 8, z := bit h 8, esc := bit h 9, oidx := fld h 10 5, outlier := leAt bs 2 2,
      elems := nibbles ((bs.drop 4).take 16) }
  | .mxfp4 => { scale := sc, z := false, esc := false, oidx := 0, outlier := 0, elems := nibbles (bs.take 16) }
  | _ => { scale := sc, z := false, esc := false, oidx := 0, outlier := 0, elems := (bs.take 32).map BitVec.toNat }

/-- The element bytes of a block; MX scales are written apart (R61 to R63). -/
def writeBlk (f : Fmt) (b : Blk) : Bytes :=
  match f with
  | .ifb8 => le 2 (b.scale + 256 * b2n b.z) ++ b.elems.map (BitVec.ofNat 8)
  | .ifb4 =>
    le 2 (b.scale + 256 * b2n b.z + 512 * b2n b.esc + 1024 * (b.oidx % 32)) ++ le 2 (if b.esc then b.outlier else 0)
      ++ packNibbles b.elems
  | .mxfp4 => packNibbles b.elems
  | _ => b.elems.map (BitVec.ofNat 8)

/-- decode_block (R64). -/
def decodeBlk (f : Fmt) (b : Blk) : List Val :=
  if b.z then List.replicate 32 (.fin false 0 0)
  else if b.scale = 0xFF then List.replicate 32 .nan
  else
    let v := b.elems.map fun c => Val.scale ((b.scale : Int) - 127) (decodeElem f.elem c)
    if f = .ifb4 ∧ b.esc then v.set b.oidx (decodeElem .bf16 b.outlier) else v

/-- A block with one scale and 32 zero codes. -/
def flatBlk (scale : Nat) (z : Bool) : Blk :=
  { scale := scale, z := z, esc := false, oidx := 0, outlier := 0, elems := List.replicate 32 0 }

/-- Index of the largest magnitude among the indexes listed, the lowest on a tie. -/
def argMaxMag (x : List Val) (idx : List Nat) : Nat :=
  (idx.foldl (fun (a : Option Nat) i => match a with
    | none => some i
    | some j => if Val.magGt (nth .nan x i) (nth .nan x j) then some i else some j) none).getD 0

/-- encode_block (R69 to R72): the block, its events, and whether it counts as crushed. rnd i is the rounding of
element i, and srcMax the largest finite value of the source format. -/
def encodeBlk (f : Fmt) (srcMax : Val) (rnd : Nat → Rnd) (escOn convNan : Bool) (x : List Val) : Blk × Evs × Bool :=
  if x.any Val.isNan then (flatBlk 0xFF false, [7], false)
  else if convNan ∧ x.any Val.isInf then (flatBlk 0xFF false, [2], false)
  else
    let ev1 : Evs := (x.filter Val.isInf).map fun _ => 1
    let x := x.map fun v => match v with
      | .inf s => if s then Val.neg srcMax else srcMax
      | v => v
    if x.all Val.isZero then
      (if f.isMx then flatBlk 0 false else flatBlk 0 true, ev1, false)
    else
      let mb := f.elem.shape.2.1
      let emaxE : Int := if f.elem = .e4m3 then 8 else 2
      let bias : Int := f.elem.shape.2.2
      let idx := List.range 32
      let at_ (i : Nat) := nth (.fin false 0 0) x i
      let j := argMaxMag x idx
      let k := argMaxMag x (idx.filter (· ≠ j))
      let esc := decide (f = .ifb4) && escOn &&
        ((at_ k).isZero || decide ((at_ j).ex - (at_ k).ex ≥ 3))
      let am := if esc then at_ k else at_ j
      let xs : Int := if am.isZero then -127 else max (am.ex - emaxE) (-127)
      let code (i : Nat) : Nat :=
        if esc ∧ i = j then 0 else
        match at_ i with
        | .fin s m e =>
          let (n, q) := roundMag (rnd i) mb (1 - bias) m (e - xs)
          let (lm, le) := f.elem.largest
          let c := if magGt n q lm le then f.elem.maxCode else packMag f.elem n q
          if f = .ifb4 ∧ esc ∧ c = 0 then 0 else (if s then f.elem.signBit else 0) + c
        | _ => 0
      let elems := idx.map code
      let (out, ev2) : Nat × Evs := if esc then
          match convert .bf16 (rnd j) false (at_ j) with
          | (c, []) => (c, [])
          | (_, _) => ((if (at_ j).sign then 0x8000 else 0) + 0x7F7F, [1])
        else (0, [])
      let n := (x.filter fun v => !v.isZero).length
      let c := (idx.filter fun i => !(at_ i).isZero && (nth 0 elems i % f.elem.signBit == 0)).length
      let crushed := !esc && decide (2 * c ≥ n)
      ({ scale := (xs + 127).toNat, z := false, esc := esc, oidx := if esc then j else 0, outlier := out,
         elems := elems }, ev1 ++ ev2 ++ (if crushed then [6] else []), crushed)

end Sys2Proof.Machine
end

