-- ==== Sys2Proof/Machine/Regs.lean ====
section
/-!
DEFINITION. The register fields that software writes and the device keeps (00 Table 00-5), from the register tables of
the spec: where each stands in the control window (11 R257), its type, reset value and bounds. Fields that are written
by a command of their own (a doorbell, a command register) or only read have no entry here.
-/
namespace Sys2Proof.Machine

/-- The stored register fields. -/
inductive Reg where
  /-- GEN_SCRATCH.VALUE (01 Table 01-10). -/
  | genScratch
  /-- SRV_IMAGE_ADDR.ADDR (02 Table 02-9). -/
  | srvImageAddr
  /-- SRV_IMAGE_LEN.LEN (02 R57). -/
  | srvImageLen
  /-- SRV_DRAIN_LIMIT.MS (02 Table 02-9). -/
  | srvDrainLimit
  /-- SRV_STATUS.DONE (02 Table 02-10). -/
  | srvDone
  /-- COR_FAULT.CODE (04 Table 04-11). -/
  | corFaultCode
  /-- COR_FAULT.VALID. -/
  | corFaultValid
  /-- COR_FAULT_PC.PC. -/
  | corFaultPc
  /-- COR_FAULT_TIME.MARK. -/
  | corFaultTime
  /-- FLD_PG_DELAY.US (04 Table 04-12). -/
  | fldPgDelay
  /-- CIS_EPOCH.EPOCH (06 R162). -/
  | cisEpoch
  /-- CIS_WORK_BASE_0.ADDR (06 R162). -/
  | cisWork0
  /-- CIS_WORK_BASE_1.ADDR (06 R162). -/
  | cisWork1
  /-- GAU_LSCTL.RAISE_STEPS (07 R195). -/
  | gauRaise
  /-- GAU_LSCTL.DIV_LOG2. -/
  | gauDiv
  /-- GAU_NUMCTL.CONV_NAN. -/
  | gauConvNan
  /-- GAU_NUMCTL.MODE. -/
  | gauMode
  /-- GAU_CLIP_MAX.VALUE (07 R178). -/
  | gauClipMax
  /-- GAU_DRY.STEPS. -/
  | gauDry
  /-- GAU_CRUSH.PER_MILLE. -/
  | gauCrush
  /-- GAU_RATIO_HI.VALUE. -/
  | gauRatioHi
  /-- GAU_ALARM.KIND. -/
  | gauAlarm
  /-- GAU_ALARM_MASK.KIND. -/
  | gauAlarmMask
  /-- GAU_TABLE_ADDR.ADDR. -/
  | gauTableAddr
  /-- GAU_TABLE_COUNT.COUNT. -/
  | gauTableCount
  /-- GAU_RING_ENTRIES.COUNT. -/
  | gauRingEntries
  /-- GAU_RING_ADDR.ADDR. -/
  | gauRingAddr
  /-- GAU_RING_TAIL.COUNT. -/
  | gauRingTail
  /-- GAU_CMD_STATUS.DONE. -/
  | gauCmdDone
  /-- GAU_LS_SET.ATTEMPT. -/
  | gauLsSetAttempt
  /-- GAU_LS_SET.LS. -/
  | gauLsSetLs
  /-- GAU_ENTRY_SEL.ENTRY. -/
  | gauEntrySel
  /-- CFL_DEADLINE.US (08 R217). -/
  | cflDeadline
  /-- CFL_CTL.NONFINITE. -/
  | cflNonfinite
  /-- CFL_CTL.EXPECT_IMPORTS. -/
  | cflExpectImports
  /-- CFL_CTL.STAGED. -/
  | cflStaged
  /-- CFL_FINAL_LIMIT.MS. -/
  | cflFinalLimit
  /-- CFL_BUCKET_ADDR.ADDR. -/
  | cflBucketAddr
  /-- CFL_BUCKET_COUNT.COUNT. -/
  | cflBucketCount
  /-- CFL_CMD_STATUS.DONE. -/
  | cflCmdDone
  /-- INT_PARCEL_BASE.ADDR (09 R238). -/
  | intParcelBase
  /-- INT_PARCEL_COUNT.COUNT. -/
  | intParcelCount
  /-- INT_PARCEL_STRIDE.BYTES. -/
  | intParcelStride
  /-- INT_PROFILE_ADDR.ADDR. -/
  | intProfileAddr
  /-- INT_PROFILE_COUNT.COUNT. -/
  | intProfileCount
  /-- INT_CMD_STATUS.DONE. -/
  | intCmdDone
  /-- INT_LEND_CTL.MANUAL. -/
  | intLendManual
  /-- INT_LEND_CTL.STEP. -/
  | intLendStep
  /-- INT_LEND_LIMIT.MAX_RUNNEL. -/
  | intMaxRunnel
  /-- INT_LEND_LIMIT.MAX_BASIN. -/
  | intMaxBasin
  /-- INT_LEND_SET.LR. -/
  | intSetLr
  /-- INT_LEND_SET.LB. -/
  | intSetLb
  /-- INT_ITL_TARGET.US. -/
  | intItlTarget
  /-- INT_TTFT_REF.US. -/
  | intTtftRef
  /-- INT_DECODE_ROWS.ROWS. -/
  | intDecodeRows
  /-- INT_PREFILL_CHUNK.TOKENS. -/
  | intPrefillChunk
  /-- INT_STALL_LIMIT.MS. -/
  | intStallLimit
  /-- INT_TENANT_QUOTA.GIB. -/
  | intQuota
  /-- INT_TENANT_ENERGY.W. -/
  | intEnergy
  /-- INT_TENANT_REQ_MAX.COUNT. -/
  | intReqMax
  /-- INT_TENANT_GROUP.GROUP. -/
  | intGroup
  /-- INT_VF_SHARE.GROUP (09 R229); copy t is tenant t. -/
  | intVfShare
  /-- OFT_SPEC_CTL.PROBE_STEPS (10 R254). -/
  | oftProbe
  /-- OFT_SPEC_CTL.GROW_STEPS. -/
  | oftGrow
  /-- OFT_SPEC_CTL.REJECT_LIMIT. -/
  | oftReject
  /-- OFT_SPEC_CTL.TREE_MAX. -/
  | oftTreeMax
  /-- OFT_CAP_ADDR.ADDR. -/
  | oftCapAddr
  /-- OFT_CAP_ENTRIES.COUNT. -/
  | oftCapEntries
  /-- OFT_CAP_TAIL.COUNT. -/
  | oftCapTail
  /-- OFT_VF_SEL.VARIANT; copy t is tenant t. -/
  | oftVfSel
  /-- MEM_DEV_ERR_ADDR.ADDR (11 Table 11-8). -/
  | memErrAddr
  /-- MEM_DEV_ERR_TIME.MARK. -/
  | memErrTime
  /-- MEM_ARB.CANAL. -/
  | memArbCanal
  /-- MEM_ARB.PRIVATE. -/
  | memArbPrivate
  /-- MEM_SCRUB.HOURS. -/
  | memScrub
  /-- MEM_ENTRY_SEL.HANDLE. -/
  | memEntrySel
  /-- CXL_FENCE_TIME.MARK (11 Table 11-9). -/
  | cxlFenceTime
  /-- CXL_TIMEOUT.MS. -/
  | cxlTimeout
  /-- GAT_SEL.GATE (12 Table 12-8). -/
  | gatSel
  /-- GAT_VF_SEL.GATE; copy t is tenant t. -/
  | gatVfSel
  /-- SCH_QUANTUM.US (13 Table 13-6). -/
  | schQuantum
  /-- SCH_DRAIN.US. -/
  | schDrain
  /-- SCH_RT_LEAD.US. -/
  | schRtLead
  /-- SCH_CMD_STATUS.DONE. -/
  | schCmdDone
  /-- SCH_CTX_SHARES.SHARES (13 Table 13-7). -/
  | schShares
  /-- SCH_CTX_FAULT.CODE. -/
  | schFaultCode
  /-- SCH_CTX_FAULT.VALID. -/
  | schFaultValid
  /-- SCH_CTX_FAULT_TIME.MARK. -/
  | schFaultTime
  /-- HIF_ERR_BASE.ADDR (14 R333). -/
  | hifErrBase
  /-- HIF_ERR_SIZE.ENABLE. -/
  | hifErrEnable
  /-- HIF_ERR_SIZE.LOG2. -/
  | hifErrLog2
  /-- HIF_ERR_TAIL.COUNT. -/
  | hifErrTail
  /-- HIF_HR_BASE.ADDR (14 R323). -/
  | hifHrBase
  /-- HIF_TR_BASE.ADDR. -/
  | hifTrBase
  /-- HIF_RING_SIZE.TR_LOG2. -/
  | hifTrLog2
  /-- HIF_RING_SIZE.HR_LOG2. -/
  | hifHrLog2
  /-- HIF_RING_CTL.IRQ_ALL. -/
  | hifIrqAll
  /-- HIF_RING_CTL.VECTOR (14 R335). -/
  | hifVector
  /-- HIF_RING_CTL.HOLDOFF_US. -/
  | hifHoldoff
  /-- SLC_TIMEOUT.MS (14 Table 14-16). -/
  | slcTimeout
  /-- SEC_NONCE_k.NONCE (15 Table 15-9). -/
  | secNonce
  /-- SEC_OUT_ADDR.ADDR. -/
  | secOutAddr
  /-- SEC_IN_ADDR.ADDR. -/
  | secInAddr
  /-- SEC_IN_LEN.LEN. -/
  | secInLen
  /-- SEC_CMD_STATUS.DONE. -/
  | secDone
  /-- PWR_RATING.RATING_B (16 Table 16-1). -/
  | pwrRatingB
  /-- PWR_RATING.RATING_A. -/
  | pwrRatingA
  /-- PWR_SWITCH_TIME.MARK. -/
  | pwrSwitchTime
  /-- ALT_MARGIN.W (16 Table 16-4). -/
  | altMargin
  /-- ALT_GRANT_LIMIT.MS. -/
  | altGrantLimit
  /-- ALT_CTX_SEL.CONTEXT. -/
  | altCtxSel
  /-- ALT_D_CEIL.CEIL_W (02 R56). -/
  | altCeil
  /-- ALT_D_OPMIN.POINT (02 R56). -/
  | altOpMin
  /-- CLK_REF.REF_EN (16 Table 16-6). -/
  | clkRefEn
  /-- TIM_CTL.SET_AT_PPS (16 Table 16-8). -/
  | timSetAtPps
  /-- TIM_CTL.PPS_EN. -/
  | timPpsEn
  /-- TIM_STATUS.SET_IGNORED. -/
  | timSetIgnored
  /-- TIM_STEP_FROM.MARK. -/
  | timStepFrom
  /-- TIM_STEP_TO.MARK. -/
  | timStepTo
  /-- TIM_PPS_DELAY.NS. -/
  | timPpsDelay
  /-- RAS_UNIT_SEL.KIND (17 Table 17-9). -/
  | rasSelKind
  /-- RAS_UNIT_SEL.UNIT. -/
  | rasSelUnit
  /-- RAS_UNIT_TIME.MARK; one copy per unit, by kind × 65,536 + unit. -/
  | rasUnitTime
  /-- RAS_UE_LIMIT.DEVICE. -/
  | rasUeDevice
  /-- RAS_UE_LIMIT.CORE. -/
  | rasUeCore
  /-- RAS_THERMAL.WARN_C. -/
  | rasWarn
  /-- RAS_TEST_CTL.ENABLE. -/
  | rasTestEnable
  /-- RAS_TEST_CTL.HOURS. -/
  | rasTestHours
  /-- RAS_FATAL.EVENT. -/
  | rasFatal
  /-- SLT_SEL.SEQ (17 Table 17-10). -/
  | sltSel
  /-- SLT_OUT_ADDR.ADDR. -/
  | sltOutAddr
  /-- SLT_CMD_STATUS.DONE. -/
  | sltCmdDone
  /-- LKK_FAIL_TIME.MARK (17 Table 17-11). -/
  | lkkFailTime
  /-- LKK_FAIL_CAUSE.CAUSE. -/
  | lkkFailCause
  /-- LKK_MCTP.SMB_EN. -/
  | lkkSmbEn
  /-- LKK_MCTP.SMB_ADDR. -/
  | lkkSmbAddr
deriving DecidableEq, Repr

/-- Field types (00 Table 00-5). own: written by a command of its own, so that REGISTER_WRITE leaves it. -/
inductive RegType where
  | rw | rw1c | rws | own
deriving DecidableEq, Repr

/-- How many copies a field has, and whose they are. -/
inductive RegScope where
  /-- One copy, in the window of each physical function. -/
  | dev
  /-- One copy per physical function. -/
  | pf
  /-- One copy per function. -/
  | fn
  /-- One copy per function and index. -/
  | fnk
  /-- One copy per tenant, in its virtual function's window. -/
  | vf
  /-- One copy per index (a district, a core, a device, a context), in the window of each physical function. -/
  | idx
  /-- One copy per function and ring pair. -/
  | pair
  /-- One copy per unit that RAS_UNIT_SEL can name. -/
  | sel
deriving DecidableEq, Repr

/-- What a write outside a stated range does: takes the nearest bound (02 R56), or leaves the field (14 R342). -/
inductive RegBound where
  | none | near | keep
deriving DecidableEq, Repr

/-- Where a field stands and how it takes a write. -/
structure RegInfo where
  slot : Nat
  off : Nat
  stride : Nat
  count : Nat
  scope : RegScope
  lo : Nat
  width : Nat
  type : RegType
  reset : Nat
  min : Nat
  max : Nat
  /-- The field must not be zero (00 R13). -/
  nz : Bool
  bound : RegBound
  /-- Offset in the virtual function's view of the slot, if it is writable there. -/
  vfOff : Option Nat

def RegInfo.of (slot off stride count : Nat) (scope : RegScope) (lo width : Nat) (type : RegType) (reset min max : Nat)
    (nz : Bool) (bound : RegBound) (vfOff : Option Nat) : RegInfo :=
  { slot, off, stride, count, scope, lo, width, type, reset, min, max, nz, bound, vfOff }

/-- The register tables of the spec. -/
def Reg.info : Reg → RegInfo
  | .genScratch => .of 0 0x44 0x0 1 .pf 0 32 .rws 0x0 0 4294967295 false .none none
  | .srvImageAddr => .of 1 0x0 0x0 1 .pf 12 52 .rw 0x0 0 4503599627370495 false .none none
  | .srvImageLen => .of 1 0x8 0x0 1 .pf 0 23 .rw 0x0 1 4194304 true .near none
  | .srvDrainLimit => .of 1 0xC 0x0 1 .pf 0 16 .rw 0x1F4 1 60000 true .near none
  | .srvDone => .of 1 0x14 0x0 1 .pf 9 1 .rw1c 0x0 0 1 false .none none
  | .corFaultCode => .of 3 0x8 0x80 256 .idx 16 16 .rws 0x0 0 65535 false .none none
  | .corFaultValid => .of 3 0x8 0x80 256 .idx 0 1 .rw1c 0x0 0 1 false .none none
  | .corFaultPc => .of 3 0xC 0x80 256 .idx 0 22 .rws 0x0 0 4194303 false .none none
  | .corFaultTime => .of 3 0x10 0x80 256 .idx 0 64 .rws 0x0 0 18446744073709551615 false .none none
  | .fldPgDelay => .of 2 0x400 0x0 1 .dev 0 16 .rw 0x7D0 10 60000 true .near none
  | .cisEpoch => .of 5 0x28 0x100 16 .idx 0 64 .rw 0x0 0 18446744073709551615 false .none none
  | .cisWork0 => .of 5 0x30 0x100 16 .idx 12 52 .rw 0x0 0 4503599627370495 false .none none
  | .cisWork1 => .of 5 0x38 0x100 16 .idx 12 52 .rw 0x0 0 4503599627370495 false .none none
  | .gauRaise => .of 6 0x8 0x100 16 .idx 16 16 .rw 0x0 1 65535 true .near none
  | .gauDiv => .of 6 0x8 0x100 16 .idx 0 4 .rw 0x0 1 8 true .near none
  | .gauConvNan => .of 6 0xC 0x100 16 .idx 1 1 .rw 0x0 0 1 false .none none
  | .gauMode => .of 6 0xC 0x100 16 .idx 0 1 .rw 0x0 0 1 false .none none
  | .gauClipMax => .of 6 0x20 0x100 16 .idx 0 32 .rw 0x7F800000 0 4294967295 false .none none
  | .gauDry => .of 6 0x24 0x100 16 .idx 0 16 .rw 0x0 1 65535 true .near none
  | .gauCrush => .of 6 0x28 0x100 16 .idx 0 10 .rw 0x0 1 1000 true .near none
  | .gauRatioHi => .of 6 0x2C 0x100 16 .idx 0 32 .rw 0x0 0 4294967295 false .none none
  | .gauAlarm => .of 6 0x30 0x100 16 .idx 0 3 .rw1c 0x0 0 7 false .none none
  | .gauAlarmMask => .of 6 0x34 0x100 16 .idx 0 3 .rw 0x0 0 7 false .none none
  | .gauTableAddr => .of 6 0x58 0x100 16 .idx 6 58 .rw 0x0 0 288230376151711743 false .none none
  | .gauTableCount => .of 6 0x60 0x100 16 .idx 0 13 .rw 0x0 0 4096 false .near none
  | .gauRingEntries => .of 6 0x64 0x100 16 .idx 0 17 .rw 0x0 0 65536 false .none none
  | .gauRingAddr => .of 6 0x68 0x100 16 .idx 6 58 .rw 0x0 0 288230376151711743 false .none none
  | .gauRingTail => .of 6 0x74 0x100 16 .idx 0 32 .rw 0x0 0 4294967295 false .none none
  | .gauCmdDone => .of 6 0x7C 0x100 16 .idx 0 1 .rw1c 0x0 0 1 false .none none
  | .gauLsSetAttempt => .of 6 0x80 0x100 16 .idx 16 16 .rw 0x0 0 65535 false .none none
  | .gauLsSetLs => .of 6 0x80 0x100 16 .idx 0 8 .rw 0x0 0 127 false .none none
  | .gauEntrySel => .of 6 0xAC 0x100 16 .idx 0 12 .rw 0x0 0 4095 false .none none
  | .cflDeadline => .of 7 0x0 0x100 16 .idx 0 32 .rw 0x0 1 4294967295 true .near none
  | .cflNonfinite => .of 7 0x4 0x100 16 .idx 8 1 .rw 0x0 0 1 false .none none
  | .cflExpectImports => .of 7 0x4 0x100 16 .idx 1 7 .rw 0x0 0 112 false .near none
  | .cflStaged => .of 7 0x4 0x100 16 .idx 0 1 .rw 0x0 0 1 false .none none
  | .cflFinalLimit => .of 7 0x8 0x100 16 .idx 0 16 .rw 0x2710 1 60000 true .near none
  | .cflBucketAddr => .of 7 0x50 0x100 16 .idx 6 58 .rw 0x0 0 288230376151711743 false .none none
  | .cflBucketCount => .of 7 0x58 0x100 16 .idx 0 13 .rw 0x0 0 4096 false .near none
  | .cflCmdDone => .of 7 0x60 0x100 16 .idx 0 1 .rw1c 0x0 0 1 false .none none
  | .intParcelBase => .of 9 0x8 0x200 16 .idx 12 52 .rw 0x0 0 4503599627370495 false .none none
  | .intParcelCount => .of 9 0x10 0x200 16 .idx 0 24 .rw 0x0 0 16777215 false .none none
  | .intParcelStride => .of 9 0x14 0x200 16 .idx 0 32 .rw 0x0 0 4294967295 false .none none
  | .intProfileAddr => .of 9 0x20 0x200 16 .idx 6 58 .rw 0x0 0 288230376151711743 false .none none
  | .intProfileCount => .of 9 0x28 0x200 16 .idx 0 7 .rw 0x0 0 64 false .near none
  | .intCmdDone => .of 9 0x30 0x200 16 .idx 0 1 .rw1c 0x0 0 1 false .none none
  | .intLendManual => .of 9 0x34 0x200 16 .idx 31 1 .rw 0x0 0 1 false .none none
  | .intLendStep => .of 9 0x34 0x200 16 .idx 0 4 .rw 0x1 1 12 true .near none
  | .intMaxRunnel => .of 9 0x38 0x200 16 .idx 8 8 .rw 0x0 0 255 false .near none
  | .intMaxBasin => .of 9 0x38 0x200 16 .idx 0 8 .rw 0x0 0 255 false .near none
  | .intSetLr => .of 9 0x3C 0x200 16 .idx 8 8 .rw 0x0 0 255 false .none none
  | .intSetLb => .of 9 0x3C 0x200 16 .idx 0 8 .rw 0x0 0 255 false .none none
  | .intItlTarget => .of 9 0x50 0x200 16 .idx 0 32 .rw 0x0 0 4294967295 false .none none
  | .intTtftRef => .of 9 0x54 0x200 16 .idx 0 32 .rw 0x0 0 4294967295 false .none none
  | .intDecodeRows => .of 9 0x60 0x200 16 .idx 0 13 .rw 0x400 1 4096 true .near none
  | .intPrefillChunk => .of 9 0x64 0x200 16 .idx 0 21 .rw 0x400 64 1048576 true .near none
  | .intStallLimit => .of 9 0x68 0x200 16 .idx 0 16 .rw 0x3E8 1 60000 true .near none
  | .intQuota => .of 9 0x8000 0x20 1024 .idx 0 16 .rw 0x0 1 65535 true .near none
  | .intEnergy => .of 9 0x8004 0x20 1024 .idx 0 16 .rw 0x0 1 65535 true .near none
  | .intReqMax => .of 9 0x8008 0x20 1024 .idx 0 13 .rw 0x100 1 4096 true .near none
  | .intGroup => .of 9 0x800C 0x20 1024 .idx 0 8 .rw 0x0 0 255 false .none none
  | .intVfShare => .of 9 0x1C 0x0 1 .vf 0 8 .own 0x0 0 255 false .none (some 0x1C)
  | .oftProbe => .of 10 0x0 0x100 16 .idx 24 8 .rw 0x10 1 255 true .near none
  | .oftGrow => .of 10 0x0 0x100 16 .idx 16 8 .rw 0x4 1 255 true .near none
  | .oftReject => .of 10 0x0 0x100 16 .idx 8 8 .rw 0x8 1 255 true .near none
  | .oftTreeMax => .of 10 0x0 0x100 16 .idx 0 7 .rw 0x40 0 64 false .near none
  | .oftCapAddr => .of 10 0x8 0x100 16 .idx 6 58 .own 0x0 0 288230376151711743 false .none none
  | .oftCapEntries => .of 10 0x10 0x100 16 .idx 0 17 .own 0x0 0 65536 false .near none
  | .oftCapTail => .of 10 0x18 0x100 16 .idx 0 32 .rw 0x0 0 4294967295 false .none none
  | .oftVfSel => .of 10 0x0 0x0 1 .vf 0 16 .rw 0x0 0 65535 false .none (some 0x0)
  | .memErrAddr => .of 11 0x10 0x40 32 .idx 0 64 .rws 0x0 0 18446744073709551615 false .none none
  | .memErrTime => .of 11 0x18 0x40 32 .idx 0 64 .rws 0x0 0 18446744073709551615 false .none none
  | .memArbCanal => .of 11 0x2000 0x0 1 .dev 4 4 .rw 0x1 1 15 true .near none
  | .memArbPrivate => .of 11 0x2000 0x0 1 .dev 0 4 .rw 0x1 1 15 true .near none
  | .memScrub => .of 11 0x2004 0x0 1 .dev 0 16 .rw 0x18 1 720 true .near none
  | .memEntrySel => .of 11 0x2008 0x0 1 .dev 0 32 .rw 0x0 0 4294967295 false .none none
  | .cxlFenceTime => .of 12 0x40 0x100 4 .idx 0 64 .rws 0x0 0 18446744073709551615 false .none none
  | .cxlTimeout => .of 12 0x400 0x0 1 .dev 0 16 .rw 0xA 1 1000 true .near none
  | .gatSel => .of 14 0x0 0x0 1 .dev 0 14 .rw 0x0 0 16383 false .none none
  | .gatVfSel => .of 14 0x8 0x0 1 .vf 0 14 .rw 0x0 0 16383 false .none (some 0x8)
  | .schQuantum => .of 15 0x0 0x0 1 .dev 0 16 .rw 0x3E8 100 60000 true .near none
  | .schDrain => .of 15 0x4 0x0 1 .dev 0 16 .rw 0x14 1 10000 true .near none
  | .schRtLead => .of 15 0x8 0x0 1 .dev 0 16 .rw 0x28 0 10000 false .near none
  | .schCmdDone => .of 15 0x2C 0x0 1 .pf 0 1 .rw1c 0x0 0 1 false .none none
  | .schShares => .of 15 0x1004 0x40 1040 .idx 0 16 .rw 0x1 1 65535 true .near none
  | .schFaultCode => .of 15 0x1018 0x40 1040 .idx 16 16 .rws 0x0 0 65535 false .none none
  | .schFaultValid => .of 15 0x1018 0x40 1040 .idx 0 1 .rw1c 0x0 0 1 false .none (some 0x18)
  | .schFaultTime => .of 15 0x1020 0x40 1040 .idx 0 64 .rws 0x0 0 18446744073709551615 false .none none
  | .hifErrBase => .of 16 0x8 0x0 1 .fn 6 58 .rw 0x0 0 288230376151711743 false .none none
  | .hifErrEnable => .of 16 0x10 0x0 1 .fn 8 1 .own 0x0 0 1 false .none none
  | .hifErrLog2 => .of 16 0x10 0x0 1 .fn 0 5 .rw 0x4 4 16 true .keep none
  | .hifErrTail => .of 16 0x18 0x0 1 .fn 0 32 .rw 0x0 0 4294967295 false .none none
  | .hifHrBase => .of 16 0x100 0x40 64 .pair 6 58 .rw 0x0 0 288230376151711743 false .none none
  | .hifTrBase => .of 16 0x108 0x40 64 .pair 6 58 .rw 0x0 0 288230376151711743 false .none none
  | .hifTrLog2 => .of 16 0x110 0x40 64 .pair 16 5 .rw 0x4 4 16 true .keep none
  | .hifHrLog2 => .of 16 0x110 0x40 64 .pair 0 5 .rw 0x4 4 16 true .keep none
  | .hifIrqAll => .of 16 0x114 0x40 64 .pair 29 1 .rw 0x0 0 1 false .none none
  | .hifVector => .of 16 0x114 0x40 64 .pair 16 11 .rw 0x20 0 2047 false .none none
  | .hifHoldoff => .of 16 0x114 0x40 64 .pair 0 16 .rw 0x0 0 65535 false .none none
  | .slcTimeout => .of 17 0x3100 0x0 1 .dev 0 16 .rw 0x64 1 10000 true .keep none
  | .secNonce => .of 18 0x10 0x4 8 .fnk 0 32 .rw 0x0 0 4294967295 false .none none
  | .secOutAddr => .of 18 0x30 0x0 1 .fn 6 58 .rw 0x0 0 288230376151711743 false .none none
  | .secInAddr => .of 18 0x38 0x0 1 .fn 6 58 .rw 0x0 0 288230376151711743 false .none none
  | .secInLen => .of 18 0x40 0x0 1 .fn 0 14 .rw 0x0 0 16383 true .none none
  | .secDone => .of 18 0x48 0x0 1 .fn 0 1 .rw1c 0x0 0 1 false .none none
  | .pwrRatingB => .of 22 0x0 0x0 1 .dev 16 16 .own 0x514 1 1300 true .near none
  | .pwrRatingA => .of 22 0x0 0x0 1 .dev 0 16 .own 0x514 1 1300 true .near none
  | .pwrSwitchTime => .of 22 0x18 0x0 1 .dev 0 64 .rws 0x0 0 18446744073709551615 false .none none
  | .altMargin => .of 19 0x4 0x0 1 .dev 0 16 .rw 0x14 0 200 false .near none
  | .altGrantLimit => .of 19 0x14 0x0 1 .dev 0 16 .rw 0x3E8 1 60000 true .near none
  | .altCtxSel => .of 19 0x20 0x0 1 .dev 0 11 .rw 0x0 0 1039 false .near none
  | .altCeil => .of 19 0x100 0x40 16 .idx 0 16 .rw 0x0 0 65535 false .near none
  | .altOpMin => .of 19 0x138 0x40 16 .idx 0 4 .rw 0x0 0 15 false .near none
  | .clkRefEn => .of 20 0x200 0x0 1 .dev 0 1 .rw 0x0 0 1 false .none none
  | .timSetAtPps => .of 21 0x10 0x0 1 .dev 1 1 .rw 0x0 0 1 false .none none
  | .timPpsEn => .of 21 0x10 0x0 1 .dev 0 1 .rw 0x0 0 1 false .none none
  | .timSetIgnored => .of 21 0x14 0x0 1 .dev 5 1 .rw1c 0x0 0 1 false .none none
  | .timStepFrom => .of 21 0x20 0x0 1 .dev 0 64 .rws 0x0 0 18446744073709551615 false .none none
  | .timStepTo => .of 21 0x28 0x0 1 .dev 0 64 .rws 0x0 0 18446744073709551615 false .none none
  | .timPpsDelay => .of 21 0x30 0x0 1 .dev 0 16 .rw 0x0 0 65535 false .none none
  | .rasSelKind => .of 23 0x0 0x0 1 .dev 16 4 .rw 0x0 0 15 false .none none
  | .rasSelUnit => .of 23 0x0 0x0 1 .dev 0 16 .rw 0x0 0 65535 false .none none
  | .rasUnitTime => .of 23 0x18 0x0 1 .sel 0 64 .rws 0x0 0 18446744073709551615 false .none none
  | .rasUeDevice => .of 23 0x20 0x0 1 .dev 8 8 .rw 0x10 1 255 true .near none
  | .rasUeCore => .of 23 0x20 0x0 1 .dev 0 8 .rw 0x2 1 255 true .near none
  | .rasWarn => .of 23 0x24 0x0 1 .dev 0 8 .rw 0x5F 60 105 false .near none
  | .rasTestEnable => .of 23 0x44 0x0 1 .dev 31 1 .rw 0x1 0 1 false .none none
  | .rasTestHours => .of 23 0x44 0x0 1 .dev 0 16 .rw 0x18 1 8760 true .near none
  | .rasFatal => .of 23 0x48 0x0 1 .dev 0 16 .rws 0x0 0 65535 false .none none
  | .sltSel => .of 24 0x4 0x0 1 .dev 0 32 .rw 0x0 0 4294967295 false .none none
  | .sltOutAddr => .of 24 0x28 0x0 1 .dev 12 52 .rw 0x0 0 4503599627370495 false .none none
  | .sltCmdDone => .of 24 0x34 0x0 1 .dev 0 1 .rw1c 0x0 0 1 false .none none
  | .lkkFailTime => .of 25 0x8 0x0 1 .dev 0 64 .rws 0x0 0 18446744073709551615 false .none none
  | .lkkFailCause => .of 25 0x10 0x0 1 .dev 0 4 .rws 0x0 0 15 false .none none
  | .lkkSmbEn => .of 25 0x18 0x0 1 .dev 7 1 .rws 0x1 0 1 false .none none
  | .lkkSmbAddr => .of 25 0x18 0x0 1 .dev 0 7 .rws 0x32 8 119 false .near none

/-- Every stored field. -/
def Reg.all : List Reg :=
  [.genScratch, .srvImageAddr, .srvImageLen, .srvDrainLimit, .srvDone, .corFaultCode, .corFaultValid,
   .corFaultPc, .corFaultTime, .fldPgDelay, .cisEpoch, .cisWork0, .cisWork1, .gauRaise, .gauDiv, .gauConvNan,
   .gauMode, .gauClipMax, .gauDry, .gauCrush, .gauRatioHi, .gauAlarm, .gauAlarmMask, .gauTableAddr,
   .gauTableCount, .gauRingEntries, .gauRingAddr, .gauRingTail, .gauCmdDone, .gauLsSetAttempt, .gauLsSetLs,
   .gauEntrySel, .cflDeadline, .cflNonfinite, .cflExpectImports, .cflStaged, .cflFinalLimit, .cflBucketAddr,
   .cflBucketCount, .cflCmdDone, .intParcelBase, .intParcelCount, .intParcelStride, .intProfileAddr,
   .intProfileCount, .intCmdDone, .intLendManual, .intLendStep, .intMaxRunnel, .intMaxBasin, .intSetLr,
   .intSetLb, .intItlTarget, .intTtftRef, .intDecodeRows, .intPrefillChunk, .intStallLimit, .intQuota,
   .intEnergy, .intReqMax, .intGroup, .intVfShare, .oftProbe, .oftGrow, .oftReject, .oftTreeMax, .oftCapAddr,
   .oftCapEntries, .oftCapTail, .oftVfSel, .memErrAddr, .memErrTime, .memArbCanal, .memArbPrivate, .memScrub,
   .memEntrySel, .cxlFenceTime, .cxlTimeout, .gatSel, .gatVfSel, .schQuantum, .schDrain, .schRtLead,
   .schCmdDone, .schShares, .schFaultCode, .schFaultValid, .schFaultTime, .hifErrBase, .hifErrEnable,
   .hifErrLog2, .hifErrTail, .hifHrBase, .hifTrBase, .hifTrLog2, .hifHrLog2, .hifIrqAll, .hifVector,
   .hifHoldoff, .slcTimeout, .secNonce, .secOutAddr, .secInAddr, .secInLen, .secDone, .pwrRatingB,
   .pwrRatingA, .pwrSwitchTime, .altMargin, .altGrantLimit, .altCtxSel, .altCeil, .altOpMin, .clkRefEn,
   .timSetAtPps, .timPpsEn, .timSetIgnored, .timStepFrom, .timStepTo, .timPpsDelay, .rasSelKind, .rasSelUnit,
   .rasUnitTime, .rasUeDevice, .rasUeCore, .rasWarn, .rasTestEnable, .rasTestHours, .rasFatal, .sltSel,
   .sltOutAddr, .sltCmdDone, .lkkFailTime, .lkkFailCause, .lkkSmbEn, .lkkSmbAddr]

/-- The number of a field, which keys its copies. -/
def Reg.num : Reg → Nat
  | .genScratch => 0
  | .srvImageAddr => 1
  | .srvImageLen => 2
  | .srvDrainLimit => 3
  | .srvDone => 4
  | .corFaultCode => 5
  | .corFaultValid => 6
  | .corFaultPc => 7
  | .corFaultTime => 8
  | .fldPgDelay => 9
  | .cisEpoch => 10
  | .cisWork0 => 11
  | .cisWork1 => 12
  | .gauRaise => 13
  | .gauDiv => 14
  | .gauConvNan => 15
  | .gauMode => 16
  | .gauClipMax => 17
  | .gauDry => 18
  | .gauCrush => 19
  | .gauRatioHi => 20
  | .gauAlarm => 21
  | .gauAlarmMask => 22
  | .gauTableAddr => 23
  | .gauTableCount => 24
  | .gauRingEntries => 25
  | .gauRingAddr => 26
  | .gauRingTail => 27
  | .gauCmdDone => 28
  | .gauLsSetAttempt => 29
  | .gauLsSetLs => 30
  | .gauEntrySel => 31
  | .cflDeadline => 32
  | .cflNonfinite => 33
  | .cflExpectImports => 34
  | .cflStaged => 35
  | .cflFinalLimit => 36
  | .cflBucketAddr => 37
  | .cflBucketCount => 38
  | .cflCmdDone => 39
  | .intParcelBase => 40
  | .intParcelCount => 41
  | .intParcelStride => 42
  | .intProfileAddr => 43
  | .intProfileCount => 44
  | .intCmdDone => 45
  | .intLendManual => 46
  | .intLendStep => 47
  | .intMaxRunnel => 48
  | .intMaxBasin => 49
  | .intSetLr => 50
  | .intSetLb => 51
  | .intItlTarget => 52
  | .intTtftRef => 53
  | .intDecodeRows => 54
  | .intPrefillChunk => 55
  | .intStallLimit => 56
  | .intQuota => 57
  | .intEnergy => 58
  | .intReqMax => 59
  | .intGroup => 60
  | .intVfShare => 61
  | .oftProbe => 62
  | .oftGrow => 63
  | .oftReject => 64
  | .oftTreeMax => 65
  | .oftCapAddr => 66
  | .oftCapEntries => 67
  | .oftCapTail => 68
  | .oftVfSel => 69
  | .memErrAddr => 70
  | .memErrTime => 71
  | .memArbCanal => 72
  | .memArbPrivate => 73
  | .memScrub => 74
  | .memEntrySel => 75
  | .cxlFenceTime => 76
  | .cxlTimeout => 77
  | .gatSel => 78
  | .gatVfSel => 79
  | .schQuantum => 80
  | .schDrain => 81
  | .schRtLead => 82
  | .schCmdDone => 83
  | .schShares => 84
  | .schFaultCode => 85
  | .schFaultValid => 86
  | .schFaultTime => 87
  | .hifErrBase => 88
  | .hifErrEnable => 89
  | .hifErrLog2 => 90
  | .hifErrTail => 91
  | .hifHrBase => 92
  | .hifTrBase => 93
  | .hifTrLog2 => 94
  | .hifHrLog2 => 95
  | .hifIrqAll => 96
  | .hifVector => 97
  | .hifHoldoff => 98
  | .slcTimeout => 99
  | .secNonce => 100
  | .secOutAddr => 101
  | .secInAddr => 102
  | .secInLen => 103
  | .secDone => 104
  | .pwrRatingB => 105
  | .pwrRatingA => 106
  | .pwrSwitchTime => 107
  | .altMargin => 108
  | .altGrantLimit => 109
  | .altCtxSel => 110
  | .altCeil => 111
  | .altOpMin => 112
  | .clkRefEn => 113
  | .timSetAtPps => 114
  | .timPpsEn => 115
  | .timSetIgnored => 116
  | .timStepFrom => 117
  | .timStepTo => 118
  | .timPpsDelay => 119
  | .rasSelKind => 120
  | .rasSelUnit => 121
  | .rasUnitTime => 122
  | .rasUeDevice => 123
  | .rasUeCore => 124
  | .rasWarn => 125
  | .rasTestEnable => 126
  | .rasTestHours => 127
  | .rasFatal => 128
  | .sltSel => 129
  | .sltOutAddr => 130
  | .sltCmdDone => 131
  | .lkkFailTime => 132
  | .lkkFailCause => 133
  | .lkkSmbEn => 134
  | .lkkSmbAddr => 135

/-- The value of copy i after a cold reset. VECTOR resets to 3 in a virtual function's ring pairs (14 Table 14-15). -/
def Reg.resetOf (r : Reg) (i : Nat) : Nat :=
  match r with
  | .hifVector => if i < 1024 * 64 then 3 else 32
  | r => r.info.reset

/-- Where copy i of a field is kept. -/
def Reg.key (r : Reg) (i : Nat) : Nat := r.num * 2 ^ 21 + i

end Sys2Proof.Machine
end

