-- ==== Sys2Proof/Machine/Tbl.lean ====
section
/-!
DEFINITION. Sparse tables in one canonical form: keys strictly rising, and no entry equal to what an unlisted key
reads as. The default is an argument, so that one form serves registers, units, contexts and memory.
-/
namespace Sys2Proof.Machine

/-- A sparse table from numbers. -/
abbrev Tbl (α : Type) := List (Nat × α)

/-- The element at a key. -/
def Tbl.get {α : Type} (d : α) : Tbl α → Nat → α
  | [], _ => d
  | (k, v) :: r, i => if k = i then v else Tbl.get d r i

/-- Take the element at a key away: it reads as the default afterwards. -/
def Tbl.remove {α : Type} : Tbl α → Nat → Tbl α
  | [], _ => []
  | (k, v) :: r, i => if k = i then Tbl.remove r i else (k, v) :: Tbl.remove r i

/-- Put an element before the first greater key. -/
def Tbl.place {α : Type} : Tbl α → Nat → α → Tbl α
  | [], i, v => [(i, v)]
  | (k, w) :: r, i, v => if i < k then (i, v) :: (k, w) :: r else (k, w) :: Tbl.place r i v

/-- Put an element at a key; the default removes the entry. -/
def Tbl.set {α : Type} [DecidableEq α] (d : α) (t : Tbl α) (i : Nat) (v : α) : Tbl α :=
  if v = d then Tbl.remove t i else Tbl.place (Tbl.remove t i) i v

/-- Every key lies at or above b, keys rise, and no entry holds the default. -/
def Tbl.wfFrom {α : Type} [DecidableEq α] (d : α) : Nat → Tbl α → Bool
  | _, [] => true
  | b, (k, v) :: r => decide (b ≤ k) && decide (v ≠ d) && Tbl.wfFrom d (k + 1) r

/-- The canonical form. -/
def Tbl.wf {α : Type} [DecidableEq α] (d : α) (t : Tbl α) : Bool := Tbl.wfFrom d 0 t

/-- Change the element at a key. -/
def Tbl.modify {α : Type} [DecidableEq α] (d : α) (t : Tbl α) (i : Nat) (f : α → α) : Tbl α :=
  Tbl.set d t i (f (Tbl.get d t i))

/-- Put a list of elements at successive keys. -/
def Tbl.setRun {α : Type} [DecidableEq α] (d : α) : Tbl α → Nat → List α → Tbl α
  | t, _, [] => t
  | t, i, v :: r => Tbl.setRun d (Tbl.set d t i v) (i + 1) r

/-- The n elements from a key on. -/
def Tbl.getRun {α : Type} (d : α) (t : Tbl α) (i n : Nat) : List α :=
  (List.range n).map fun j => Tbl.get d t (i + j)

/-- Drop every entry whose key satisfies p (it reads as the default afterwards). -/
def Tbl.dropIf {α : Type} (p : Nat → Bool) : Tbl α → Tbl α
  | [] => []
  | (k, v) :: r => if p k then Tbl.dropIf p r else (k, v) :: Tbl.dropIf p r

/-- Change every listed element. -/
def Tbl.mapAll {α : Type} [DecidableEq α] (d : α) (f : Nat → α → α) : Tbl α → Tbl α
  | [] => []
  | (k, v) :: r => if f k v = d then Tbl.mapAll d f r else (k, f k v) :: Tbl.mapAll d f r

end Sys2Proof.Machine
end

