-- ==== Sys2Proof/Machine/TypesCfl.lean ====
section
/-!
DEFINITION. The state of the Confluence (08).
-/
namespace Sys2Proof.Machine

/-- A bucket (08 Table 08-2). -/
structure Bucket where
  elements : Nat
  offset : Nat
  tensor : Nat
  elemBase : Nat
  outAddr : Nat
  outFmt : Nat
  inst : Nat
deriving DecidableEq, Repr

/-- A contribution, or a FINAL part (08 R198, R212). -/
structure Contrib where
  /-- Its key. -/
  step : Nat
  attempt : Nat
  ls : Nat
  epoch : Nat
  tokens : Nat
  fmt : Nat
  firstTag : Nat
  tagCount : Nat
  base : Nat
  gate : Nat
  /-- The field of a POST, the module of an IMPORT. -/
  origin : Nat
  isImport : Bool
  fold : Bool
  ctx : Nat
  /-- The order that it belongs to, and that order's TAG (14 Table 14-7). -/
  o : OrderId
  tag : Nat
deriving DecidableEq, Repr

/-- CFL_ROUND.STATE. -/
inductive RoundState where
  | none | admitting | reducing | awaitFinal | finalising | closed
deriving DecidableEq, Repr

/-- A round (08 R196, R197). -/
structure Round where
  state : RoundState
  step : Nat
  attempt : Nat
  ls : Nat
  epoch : Nat
  seed : Nat
  /-- The order that opened it. -/
  order : Option OrderId
  /-- Fields expected, and those that have posted or have ended without posting. -/
  fields : List Nat
  settled : List Nat
  imports : Nat
  importsDone : Nat
  /-- Contributions of its own and folds. -/
  set : List Contrib
  /-- Effective instant of the deadline, once a POST or IMPORT has been accepted. -/
  deadline : Option Nat
  staged : Bool
  /-- NONFINITE at the close. -/
  skipStep : Bool
  present : Nat
  summed : Nat
  tokens : Nat
  openTime : Nat
  closeTime : Nat
  resultTime : Nat
  normsq : Nat
  reason : Nat
  reruns : Nat
  /-- FINAL parts, and the effective instant at which the wait for LAST ends. -/
  parts : List Contrib
  finalEnd : Nat
  /-- The contributions of its set have been released (R205). -/
  freed : Bool
  /-- Its work has ended with a reason or a result, which the Gauge has been handed (R204). -/
  handed : Bool
deriving DecidableEq, Repr

def Round.init : Round :=
  { state := .none, step := 0, attempt := 0, ls := 0, epoch := 0, seed := 0, order := Option.none, fields := [],
    settled := [], imports := 0, importsDone := 0, set := [], deadline := Option.none, staged := false,
    skipStep := false, present := 0, summed := 0, tokens := 0, openTime := 0, closeTime := 0, resultTime := 0,
    normsq := 0, reason := 0, reruns := 0, parts := [], finalEnd := 0, freed := false, handed := false }

/-- The Confluence of a district. -/
structure Cfl where
  round : Round
  /-- Key of the previous round. -/
  prev : Option (Nat × Nat)
  folds : List Contrib
  held : List Contrib
  table : List Bucket
  /-- Counts of the codes 0x0610 to 0x0619. -/
  events : List Nat
  cmdCode : Nat
deriving DecidableEq, Repr

def Cfl.init : Cfl :=
  { round := Round.init, prev := Option.none, folds := [], held := [], table := [], events := List.replicate 10 0,
    cmdCode := 0 }

end Sys2Proof.Machine
end

