-- ==== Sys2Proof/Machine/TypesHost.lean ====
section
/-!
DEFINITION. The state of the host interface (14), of Gates and transfers (12), of contexts (13) and of time (16).
-/
namespace Sys2Proof.Machine

/-- HIF_RING_STATUS.STATE (14 Table 14-15). -/
inductive RingState where
  | disabled | active | draining | error | resetting
deriving DecidableEq, Repr

/-- One ring pair of one function (14 R323, R324, R331, R332, R335). Its base, size and control fields are
registers. -/
structure Ring where
  state : RingState
  /-- HIF_RING_STATUS.CODE. -/
  code : Nat
  hrTail : Nat
  trHead : Nat
  /-- Orders fetched, which is the index of the next order. -/
  fetched : Nat
  /-- The model's own: added to an order's index in its name, so that it differs from those of orders that outlive a
  reset of the function. A multiple of 2³². -/
  base : Nat
  /-- Completion records written. -/
  written : Nat
  /-- Oscillator instant of the vector's last fire for this ring. -/
  lastFire : Option Nat
  /-- A deferred fire waits for the end of the holdoff. -/
  deferred : Bool
deriving DecidableEq, Repr

def Ring.init : Ring :=
  { state := .disabled, code := 0, hrTail := 0, trHead := 0, fetched := 0, base := 0, written := 0, lastFire := none,
    deferred := false }

/-- The error ring counters of one function (14 R333). Its base and size are registers, and so is HIF_ERR_TAIL. -/
structure ErrRing where
  head : Nat
  lost : Nat
  /-- Records dropped since the last written record. -/
  lostSince : Nat
deriving DecidableEq, Repr

def ErrRing.init : ErrRing := { head := 0, lost := 0, lostSince := 0 }

/-- Where an order stands (14 R324 to R330). -/
inductive OrdPhase where
  /-- Fetched and checked, not dispatched. -/
  | fetched
  /-- Handed to its handler, which has not acted on it yet. -/
  | dispatched
  /-- Its handler works on it. -/
  | running
  /-- A TRAIN_STEP order held under R151 or R159. -/
  | held
  /-- Its handler has ended it: it waits for its completion record. -/
  | ended
deriving DecidableEq, Repr

/-- An order fetched and not completed (14 Table 14-3). -/
structure Order where
  id : OrderId
  /-- The time mark of its fetch. -/
  mark : Nat
  opcode : Nat
  flags : Nat
  cond : Nat
  /-- The issuing context, 0xFFFF resolved. -/
  ctx : Nat
  tag : Nat
  energyUj : Nat
  waitGate : Nat
  sigGate : Nat
  sigValue : Nat
  waitValue : Nat
  body : Bytes
  /-- Its 64 bytes as fetched. -/
  raw : Bytes
  phase : OrdPhase
  /-- It has been handed to its handler (R329). -/
  dispatched : Bool
  /-- It has passed the checks of its turn (14 R328). -/
  checked : Bool
  /-- Its Gate wait has been released (12 R294). -/
  released : Bool
  status : Nat
  noop : Bool
  /-- Error records were written for the order. -/
  records : Bool
  /-- Energy charged to the order, in µJ. -/
  charged : Nat
  /-- Source identifier of the handler that ends it. -/
  source : Nat
  /-- The fields whose programs of the order have not ended. -/
  fieldsLeft : List Nat
  /-- The order's record is to be discarded: its function was reset (14 R322). -/
  orphan : Bool
  /-- Times its transfer was abandoned in a row (13 R308). -/
  abandoned : Nat
  /-- Oscillator instant at which its transfer started (11 R273). -/
  since : Nat
deriving DecidableEq, Repr

/-- One Sluice (14 R336 to R339). -/
structure Sluice where
  /-- SLC_MSG_0 to SLC_MSG_15. -/
  msg : List Nat
  seq : Nat
  full : Bool
  ackCode : Nat
  ackSeq : Nat
  /-- SLC_MISUSE.CODE. -/
  misuse : Nat
  sender : Nat
  receiver : Nat
  /-- Oscillator instant of the SEND in flight. -/
  sentAt : Nat
  /-- SEQ and content of the message last taken (Table 14-10, 0x0003). -/
  lastTaken : Option (Nat × List Nat)
deriving DecidableEq, Repr

def Sluice.unbound : Sluice :=
  { msg := List.replicate 16 0, seq := 0, full := false, ackCode := 0, ackSeq := 0, misuse := 0,
    sender := 0xFFFF, receiver := 0xFFFF, sentAt := 0, lastTaken := none }

/-- What the device does at its pins and on its links that it does not hold itself. -/
inductive OutEvent where
  /-- Bytes written to host memory through a port. -/
  | hostWrite (port addr : Nat) (data : Bytes)
  /-- An MSI-X vector of a function fires. -/
  | msix (fn vector : Nat)
  /-- A PCIe completion with Unsupported Request (0) or Completer Abort (1). -/
  | pcieAnswer (fn kind : Nat)
  /-- The answer to a register read. -/
  | registerRead (fn off : Nat) (data : DWord)
  /-- An MCTP or PLDM response on a binding: command's code, completion code and data. -/
  | mgmt (binding command completion : Nat) (data : List Nat)
  /-- A PLDM platform event to the event receiver: the event of the Silt record that it stands for, and its value. -/
  | pldmEvent (event value : Nat)
  /-- The device reads an order from host memory through a port. -/
  | hostRead (port addr len : Nat)
  /-- A Sluice interrupts its receiver. -/
  | sluiceReceiver (sl : Nat)
deriving DecidableEq, Repr

/-- An entry of a function's MSI-X table, with its pending bit (14 R321, R335). -/
structure MsixEnt where
  addr : Nat
  data : Nat
  masked : Bool
  pending : Bool
deriving DecidableEq, Repr

/-- After a reset every vector is masked (PRESUMED from PCIe, log entry 109). -/
def MsixEnt.init : MsixEnt := { addr := 0, data := 0, masked := true, pending := false }

/-- One port (14 R320, R322; 16 R378; 18 R412, R419). -/
structure Port where
  perstReleased : Bool
  /-- Reference clock mode chosen at the release: 0 none yet, 1 common clock, 2 SRIS. -/
  clockMode : Nat
  linkUp : Bool
  /-- The port answers Configuration Request Retry Status. -/
  retry : Bool
deriving DecidableEq, Repr

def Port.init : Port :=
  { perstReleased := false, clockMode := 0, linkUp := false, retry := false }

/-- A Gate (12 R293): its value, its holder (0x7FF none), and the mark and source of its last signal. -/
structure Gate where
  value : DWord
  holder : Nat
  mark : Nat
  source : Nat
deriving DecidableEq, Repr

def Gate.init : Gate := { value := 0, holder := 0x7FF, mark := 0, source := 0 }

/-- A wait registered at a Gate (12 R294). -/
structure GateWait where
  who : Waiter
  ctx : Nat
  gate : Nat
  cond : Nat
  operand : Nat
  released : Bool
deriving DecidableEq, Repr

/-- A core DMA descriptor (12 Table 12-2). -/
structure DmaDesc where
  op : Nat
  flags : Nat
  cond : Nat
  rows : Nat
  rowBytes : Nat
  src : Nat
  dst : Nat
  srcStride : Nat
  dstStride : Nat
  gateWait : Nat
  gateSig : Nat
  sigValue : Nat
  waitValue : Nat
  fill : Nat
deriving DecidableEq, Repr

/-- One core DMA tag in flight (12 R289; 13 R307, R308). -/
structure DmaTag where
  desc : DmaDesc
  ctx : Nat
  /-- It has waited on its Gate, or has no wait. -/
  started : Bool
  /-- Abandoned at a drain window's end and marked for reissue. -/
  reissue : Bool
  /-- Requests of the abandoned transfer not yet answered or discarded. -/
  outstanding : Nat
  /-- Times abandoned in a row. -/
  abandoned : Nat
  /-- Generation tag of its requests. -/
  gen : Nat
  /-- Address of the DMA instruction that started it (04 R115). -/
  pc : Nat
  /-- Oscillator instant at which its requests went out (11 R273). -/
  since : Nat
deriving DecidableEq, Repr

/-- An access of a unit for a context that has failed in the command that runs (11 R265): the fault is taken at the
command's end, so that none stands between commands. -/
structure MemFault where
  ctx : Nat
  code : Nat
  /-- The program's field and slot, or the order, that the unit works for. -/
  prog : Option (Nat × Nat)
  order : Option OrderId
  /-- The location whose uncorrectable error it is. -/
  addr : Option Nat
deriving DecidableEq, Repr

/-- The states of Table 13-1. -/
inductive CtxState where
  | absent | idle | swapped | runnable | blocked | draining | teardown | faulted
deriving DecidableEq, Repr

/-- A leaf of a context's translation tables (11 R265). -/
structure Mapping where
  va : Nat
  bytes : Nat
  phys : Nat
  /-- Bytes of a page: 4 KiB, 2 MiB or 1 GiB. -/
  page : Nat
  write : Bool
  fixed : Bool
deriving DecidableEq, Repr

/-- A context (13 R299 to R304, R311, R315, R316). SHARES, FAULT and FAULT_TIME are registers. -/
structure Ctx where
  state : CtxState
  /-- Resident slot; 0xFF none. -/
  slot : Nat
  /-- SCH_CTX_STATE.BLOCK. -/
  block : Nat
  blockStart : Nat
  /-- Core-cycles charged. -/
  cycles : Nat
  /-- Virtual time, 16 fraction bits. -/
  vtime : Nat
  /-- Generation of its memory key (15 R345, R346); 0 while it has none. -/
  keyGen : Nat
  maps : List Mapping
  /-- Frames of the general pool that its translation tables stand in (11 R265). -/
  tables : List (Nat × Nat)
  /-- Effective instants: no live work since, waiting for a slot since, resident since. -/
  idleSince : Nat
  waitingSince : Nat
  residentSince : Nat
  /-- Its translation root is being loaded (13 R301). -/
  rootLoading : Bool
  /-- Oscillator instant at which its drain window ends. -/
  drainEnd : Nat
  /-- The state it takes when its teardown ends. -/
  afterTeardown : CtxState
  /-- The physical functions whose TEARDOWN command waits for its end. -/
  cmdWaiting : List Nat
  /-- The virtual function whose reset waits for its end. -/
  flrWaiting : Bool
  /-- A function-level reset in the TEARDOWN of a fault counts as leaving FAULTED (R316). -/
  unfault : Bool
deriving DecidableEq, Repr

def Ctx.init : Ctx :=
  { state := .absent, slot := 0xFF, block := 0, blockStart := 0, cycles := 0, vtime := 0, keyGen := 0, maps := [],
    tables := [], idleSince := 0, waitingSince := 0, residentSince := 0, rootLoading := false, drainEnd := 0,
    afterTeardown := .idle, cmdWaiting := [], flrWaiting := false, unfault := false }

/-- The scheduler (13 Table 13-6). -/
structure Sched where
  /-- Context of each of the 64 resident slots; 0x7FF free. -/
  slots : Tbl Nat
  evict : Nat
  preempt : Nat
  abandon : Nat
  rtLate : Nat
  /-- The rotation entry that has taken effect, and its start. -/
  rot : Option (Nat × Nat)
  /-- A REALTIME dispatch has been made in the entry in force. -/
  rtDispatched : Bool
  /-- SCH_CMD_STATUS.CODE of the two physical functions. -/
  cmdCode : List Nat
  /-- The command of each physical function that runs: its context. -/
  cmdRunning : List (Option Nat)
  /-- Last quantum boundary, an effective instant. -/
  lastQuantum : Nat
deriving DecidableEq, Repr

def Sched.init : Sched :=
  { slots := [], evict := 0, preempt := 0, abandon := 0, rtLate := 0, rot := none, rtDispatched := false,
    cmdCode := [0, 0], cmdRunning := [none, none], lastQuantum := 0 }

/-- The time base (16 R372 to R376). -/
structure Time where
  /-- Oscillator nanoseconds on one timeline, which no reset of the module starts anew (the model's own). -/
  osc : Nat
  /-- The TAI counter. -/
  cnt : Nat
  /-- Its fraction, in units of 1/(1,024 × 10⁹) ns. -/
  frac : Nat
  /-- While a backward step is held: the true time and its fraction. -/
  hold : Option (Nat × Nat)
  epochSet : Bool
  /-- TIM_SET waiting for the next accepted edge. -/
  pendingSet : Option Nat
  /-- Compensated counter value at the last edge that was not ignored. -/
  last : Option Int
  /-- Oscillator instant of the last accepted edge. -/
  lastAcceptOsc : Nat
  drift : Int
  slew : Int
  err : Int
  holdover : Bool
  /-- Consecutive accepted edges with |e| ≤ 1 µs, up to 3. -/
  goodEdges : Nat
  steps : Nat
  ppsCount : Nat
  ppsIgnored : Nat
  refPresent : Bool
  /-- Last time mark issued by each source, plus 1 (00 R15). -/
  marks : Tbl Nat
  /-- Oscillator nanoseconds the device has been frozen, and the start of the freeze in force (17 R396). -/
  frozenTotal : Nat
  frozenAt : Option Nat
deriving DecidableEq, Repr

def Time.init : Time :=
  { osc := 0, cnt := 0, frac := 0, hold := none, epochSet := false, pendingSet := none, last := none,
    lastAcceptOsc := 0, drift := 0, slew := 0, err := 0, holdover := false, goodEdges := 0, steps := 0, ppsCount := 0,
    ppsIgnored := 0, refPresent := false, marks := [], frozenTotal := 0, frozenAt := none }

/-- The Canal (12 Table 12-8). -/
structure Canal where
  /-- CAN_AQ_STATUS of Aqueduct n: 0 DOWN, 1 UP, 2 DEGRADED. -/
  aqStatus : List Nat
  aqUp : List Nat
  aqDown : List Nat
  aqRetry : List Nat
  terBytes : List Nat
deriving DecidableEq, Repr

def Canal.init : Canal :=
  { aqStatus := [0, 0, 0, 0], aqUp := [0, 0, 0, 0], aqDown := [0, 0, 0, 0], aqRetry := [0, 0, 0, 0],
    terBytes := [0, 0, 0, 0] }

end Sys2Proof.Machine
end

