-- ==== Sys2Proof/Machine/TypesCore.lean ====
section
/-!
DEFINITION. The state of cores, field stewards and fields (04).
-/
namespace Sys2Proof.Machine

/-- COR_STATUS.STATE. -/
inductive CoreState where
  | off | gated | idle | running | waitGate | waitDma | clearing | faulted | fenced
deriving DecidableEq, Repr

/-- Core and field pools (04 R84). -/
inductive Pool where
  | none | train | prefill | decode
deriving DecidableEq, Repr

/-- An operand slot (04 R85): its format tag, K, and its rows (columns, of a right slot) of exact values. -/
structure Slot where
  fmt : Nat
  k : Nat
  rows : List (List Val)
  /-- What no TLOAD has written since is zero: a clear has written it (R111). -/
  cleared : Bool
deriving DecidableEq, Repr

def Slot.init : Slot := { fmt := 0, k := 0, rows := [], cleared := false }

/-- An accumulator bank (04 R87): 64 columns wide, row by row. A value not listed is 0. -/
structure Bank where
  int : Bool
  vals : List Nat
deriving DecidableEq, Repr

def Bank.init : Bank := { int := false, vals := [] }

/-- One level of LOOP or FLOOP (04 R97): the address of the body, of the instruction after it, and the passes that
remain after this one. -/
structure Loop where
  start : Nat
  stop : Nat
  left : Nat
deriving DecidableEq, Repr

/-- Why a core or a steward does not issue (04 R92, R96). -/
inductive CoreWait where
  | none
  /-- WAITG, its wait registered at the Gate. -/
  | gate
  /-- FENCE of a class mask. -/
  | fence (mask : Nat)
  /-- DMAW of a tag mask. -/
  | dmaw (mask : Nat)
  /-- A DMA on a tag whose descriptor has not completed (12 R289). -/
  | dmaTag (tag : Nat)
  /-- END, until the issued work and the tags complete (04 R424). -/
  | ending
deriving DecidableEq, Repr

/-- A core's report to the Gauge (07 R184, R186): crushed and encoded blocks, and an OPTW's SDW, SW and NZ. -/
structure GaugeRep where
  tensor : Nat
  crushed : Nat
  blocks : Nat
  opt : Option (Nat × Nat × Nat)
deriving DecidableEq, Repr

/-- An engine instruction in flight (04 R91 to R93): its class and its address, what the pond bytes, slots and banks that
it writes held before, and the report it makes when it is done. -/
structure Flight where
  cls : Nat
  pc : Nat
  old : List (Nat × Bytes)
  slots : List (Nat × Slot)
  banks : List (Nat × Bank)
  /-- Its elements, how many lie between two inner tile boundaries, and whether its result comes at its end alone. -/
  elems : Nat
  step : Nat
  atEnd : Bool
  /-- What a stop inside it has left to write. -/
  rest : List (Nat × Bytes)
  report : Option GaugeRep
deriving DecidableEq, Repr

/-- A core instance (04 R90, R97, R98, R113; 13 R309). -/
structure Inst where
  ctx : Nat
  field : Nat
  slot : Nat
  image : Nat
  index : Nat
  pc : Nat
  codeBase : Nat
  codeLen : Nat
  /-- PTR_0 to PTR_15. -/
  ptrs : List Nat
  loops : List Loop
  tensor : Nat
  ebase : Nat
  stride : Nat
  strict : Bool
  /-- The conversion option in force at the start of the program (NUMERICS.CONV_NAN). -/
  convNan : Bool
  /-- COR_EVENT_0 to COR_EVENT_7. -/
  events : List Nat
  wait : CoreWait
  /-- Engine instructions in flight, the oldest first. -/
  flight : List Flight
  /-- Core DMA tags in flight. -/
  tags : Tbl (Option DmaTag)
  /-- Field clocks since its start, without the time pre-empted (04 R110). -/
  ran : Nat
  /-- Effective instant at which the cycle account was last brought up to date. -/
  accountedAt : Nat
  /-- Effective instant of its last start or resume (13 R306). -/
  resumedAt : Nat
  /-- Which FRUN of its image in the program started it, from 1 (06 R148). -/
  run : Nat
  /-- What its start writes into the pond: the image, and a segment block (04 R105, 06 R149). -/
  boot : List (Nat × Bytes)
deriving DecidableEq, Repr

/-- A core (04 Tables 04-1 and 04-11). COR_FAULT, COR_FAULT_PC and COR_FAULT_TIME are registers. -/
structure Core where
  state : CoreState
  pool : Pool
  /-- The pool a lending decision moves it to once it has stopped (04 R114). -/
  toPool : Option Pool
  inst : Option Inst
  /-- The suspended instance it still holds (13 R309). -/
  held : Option Inst
  /-- The suspended instance whose record is being restored into it. -/
  restoring : Option Inst
  /-- The instance that starts when the save, clear or restore ends. -/
  starting : Option Inst
  /-- Context of the instance it last ran; 0x7FF none since its last clear. -/
  lastCtx : Nat
  /-- Operand slots, by buffer code 0 to 7, and accumulator banks, by code 8 to 11. -/
  slots : Tbl Slot
  banks : Tbl Bank
  /-- Field clocks RUNNING, WAIT_GATE or WAIT_DMA. -/
  busyClocks : Nat
  /-- The save of the suspended instance is in progress. -/
  saving : Bool
  /-- A stop request that waits for the next tile boundary, and the oscillator instant at which it came. -/
  stop : Option StopCause
  stopAt : Nat
  /-- It has stopped at a tile boundary, and its transfers are waited for (13 R307). -/
  stopped : Bool
  /-- Generation of the DMA requests of the core. -/
  dmaGen : Nat
  /-- Requests of abandoned transfers not yet answered: tag and generation. -/
  late : List (Nat × Nat)
deriving DecidableEq, Repr

def Core.init : Core :=
  { state := .off, pool := .none, toPool := none, inst := none, held := none, restoring := none, starting := none,
    lastCtx := 0x7FF, slots := [], banks := [], busyClocks := 0, saving := false, stop := none, stopAt := 0,
    stopped := false, dmaGen := 0, late := [] }

/-- A suspended instance in its save record (13 R309): its pond, slots and banks with it. -/
structure SaveRec where
  core : Nat
  /-- Where in the save area it stands. -/
  place : Nat
  inst : Inst
  slots : Tbl Slot
  banks : Tbl Bank
  pond : List Host.Cell
deriving DecidableEq, Repr

/-- FLD_STATUS.STATE. -/
inductive FieldState where
  | off | waking | gated | active | clearing | fenced
deriving DecidableEq, Repr

/-- An entry of a program's image table with its code (04 Table 04-7). -/
structure Img where
  runnel : Bool
  countMin : Nat
  countMax : Nat
  code : Bytes
  pondBase : Nat
deriving DecidableEq, Repr

/-- For what a field program runs. -/
inductive ProgKind where
  | order (o : OrderId)
  /-- A prefill chunk of a request (09 R226). -/
  | prefill (req chunk : Nat)
  /-- A decode step of a district (09 R227). -/
  | decode (d : Nat)
deriving DecidableEq, Repr

/-- Why a steward does not execute its next instruction. -/
inductive StewWait where
  | none
  | frun (image : Nat)
  | fjoin (image : Nat)
  | fgrant
  | gate
  | fend
  /-- A kicked descriptor waits for a job context of its unit (05 R125). -/
  | kick
deriving DecidableEq, Repr

/-- A request in the row table of a serving program (09 R220, 10 R246): its Offtake version, the parcels that its rows
read and write, its tree limit, and whether its rows are masked (09 R234). -/
structure ServRow where
  req : Nat
  tenant : Nat
  offtake : Nat
  version : Nat
  parcels : List Nat
  limit : Nat
  masked : Bool
deriving DecidableEq, Repr

/-- A field program in a slot, or waiting for one (04 R83, R104, R105, R113). -/
structure Prog where
  kind : ProgKind
  ctx : Nat
  district : Nat
  pool : Pool
  strict : Bool
  /-- The conversion option taken at load (07 R192). -/
  convNan : Bool
  imgs : List Img
  /-- Field clocks an instance may run, in units of 65,536. -/
  cycleLimit : Nat
  code : Bytes
  data : Bytes
  pc : Nat
  loops : List Loop
  /-- Pointer values set by FSETP, and which are set. -/
  setp : Tbl Nat
  foppt : Option Nat
  wait : StewWait
  rank : Nat
  /-- Sums of the event counts of its ended instances. -/
  events : List Nat
  /-- Time mark of the FRUN that waits for cores (13 R305). -/
  waitMark : Nat
  /-- It has written its status: the program stops, and ends with this code. -/
  ending : Option Nat
  /-- FRUNs executed of each image, in order of execution (06 R148, R149). -/
  runs : List Nat
  /-- The recompute of the FRUN that waits (06 R155): none before it, 0 while its instances run, 1 once they have
  ended. -/
  afterRecompute : Option Nat
  /-- The row table of a serving program (09 R220). -/
  table : List ServRow
deriving DecidableEq, Repr

/-- A field (04 Table 04-12). -/
structure Field where
  state : FieldState
  /-- District it belongs to, if any. -/
  district : Option Nat
  opPoint : Nat
  /-- A change of operating point is in its 1 µs hold: the new point. -/
  opChange : Option Nat
  lendTime : Nat
  /-- The four program slots. -/
  slots : List (Option Prog)
  /-- Programs waiting for a slot, in arrival order. -/
  queue : List Prog
  /-- Oscillator instant since which no slot has been busy. -/
  idleSince : Nat
  /-- The field has left its pools for a self-test slot. -/
  inTest : Bool
  /-- Held at a tile boundary by the Allotment (16 R367). -/
  held : Bool
  /-- Its clock runs at half rate under the droop guard (16 R369). -/
  droopHalf : Bool
  droops : Nat
  /-- Self-test: pieces done, result (0 none, 1 pass, 2 fail), completion mark, due at once. -/
  testPieces : Nat
  testResult : Nat
  testLast : Nat
  testDue : Bool
deriving DecidableEq, Repr

def Field.init : Field :=
  { state := .off, district := none, opPoint := 0, opChange := none, lendTime := 0,
    slots := [none, none, none, none], queue := [], idleSince := 0, inTest := false, held := false,
    droopHalf := false, droops := 0, testPieces := 0, testResult := 0, testLast := 0, testDue := false }

end Sys2Proof.Machine
end

