-- ==== Sys2Proof/Machine/TypesGauge.lean ====
section
/-!
DEFINITION. The state of the Gauge (07 R173 to R191).
-/
namespace Sys2Proof.Machine

/-- An entry of a watch table with the sums of the open step (R185 to R188). -/
structure Watch where
  tensor : Nat
  kind : Nat
  flags : Nat
  streak : Nat
  /-- FLAGS of its last sample. -/
  last : Nat
  nonfinite : Nat
  crushed : Nat
  blocks : Nat
  bumps : Nat
  /-- It has an OPTW report. -/
  opt : Bool
  sdw : Val
  sw : Val
  nz : Nat
deriving DecidableEq, Repr

def Watch.of (tensor kind flags : Nat) : Watch :=
  { tensor, kind, flags, streak := 0, last := 0, nonfinite := 0, crushed := 0, blocks := 0, bumps := 0, opt := false,
    sdw := .fin false 0 0, sw := .fin false 0 0, nz := 0 }

/-- The Gauge of a district (07 Table 07-8), apart from its registers. -/
structure Gauge where
  ls : Nat
  clean : Nat
  attempt : Nat
  /-- GAU_VERDICT.STATE: 0 NONE, 1 APPLY, 2 SKIP. -/
  verdict : Nat
  reason : Nat
  norm : Nat
  clip : Nat
  vscale : Nat
  verdictTime : Nat
  table : List Watch
  /-- The sample ring that SET_RING has taken, and GAU_RING_HEAD. -/
  ringAddr : Nat
  ringEntries : Nat
  head : Nat
  dryCount : Nat
  ratioCount : Nat
  crushCount : Nat
  dryTime : Nat
  dryEntry : Nat
  dryStreak : Nat
  /-- Counts of the codes 0x0600 to 0x0609. -/
  events : List Nat
  cmdCode : Nat
deriving DecidableEq, Repr

def Gauge.init : Gauge :=
  { ls := 0, clean := 0, attempt := 0, verdict := 0, reason := 0, norm := 0, clip := 0, vscale := 0, verdictTime := 0,
    table := [], ringAddr := 0, ringEntries := 0, head := 0, dryCount := 0, ratioCount := 0, crushCount := 0,
    dryTime := 0, dryEntry := 0, dryStreak := 0, events := List.replicate 10 0, cmdCode := 0 }

end Sys2Proof.Machine
end

