-- ==== Sys2Proof/Machine/TypesPower.lean ====
section
/-!
DEFINITION. The state of the power stage, of the Allotment and of the clocks (16 R360 to R372).
-/
namespace Sys2Proof.Machine

/-- A grant of a program slot (16 R363 to R367). -/
structure Grant where
  point : Nat
  /-- The requested point p, and the point R363 granted. -/
  req : Nat
  given : Nat
  /-- Energy granted, and remaining, in µJ. -/
  energy : Nat
  left : Nat
  /-- Watts. -/
  rate : Rat
  mark : Nat
  /-- Its rate is reserved: some instance of the program is not suspended. -/
  reserved : Bool
deriving DecidableEq, Repr

/-- A request that waits (16 R363, R365). -/
structure GrantReq where
  field : Nat
  slot : Nat
  district : Nat
  energy : Nat
  /-- In units of 10 µs. -/
  dur : Nat
  /-- The effective instant at which it was made. -/
  since : Nat
  /-- A resume asks for its grant's energy at its point. -/
  resume : Bool
deriving DecidableEq, Repr

/-- What a fall of the module limit made the Allotment do (16 R367). -/
inductive AltAct where
  /-- A grant moved one point slower: field, slot, and the point it left. -/
  | move (f s old : Nat)
  | hold (f : Nat)
deriving DecidableEq, Repr

/-- The power stage and the Allotment. -/
structure Power where
  /-- PWR_STATUS.SOURCE: 0 none, 1 P_IN_A, 2 P_IN_B. -/
  source : Nat
  /-- Voltages of the inputs in 10 mV, and power drawn in the last window in W. -/
  mv : List Nat
  watts : List Nat
  switches : Nat
  /-- Oscillator instant since which P_IN_A has been back in range while P_IN_B feeds. -/
  backSince : Option Nat
  /-- ALT_BASE and ALT_INPUT of the last window. -/
  base : Nat
  input : Nat
  overs : Nat
  /-- The window in progress, in multiples of 10 ms of the time base, and the module limit at its start. -/
  window : Nat
  windowLimit : Nat
  /-- Energy of the field domains in the window, in µJ. -/
  windowField : Nat
  floorShort : Bool
  /-- Grants by field × 4 + slot. -/
  grants : Tbl (Option Grant)
  /-- Requests that wait, in arrival order. -/
  waiting : List GrantReq
  /-- What R367 has done and not undone, the latest first. -/
  acts : List AltAct
  /-- Accounts in µJ. -/
  device : Nat
  ctx : Tbl Nat
  fieldUj : List Nat
  mem : List Nat
  idle : List Nat
  overrun : List Nat
  estimate : List Nat
  repoint : List Nat
deriving DecidableEq, Repr

def Power.init : Power :=
  { source := 0, mv := [0, 0], watts := [0, 0], switches := 0, backSince := none, base := 0, input := 0, overs := 0, window := 0,
    windowLimit := 0, windowField := 0, floorShort := false, grants := [], waiting := [], acts := [], device := 0,
    ctx := [], fieldUj := List.replicate 16 0, mem := List.replicate 16 0, idle := List.replicate 16 0,
    overrun := List.replicate 16 0, estimate := List.replicate 16 0, repoint := List.replicate 16 0 }

end Sys2Proof.Machine
end

