-- ==== Sys2Proof/Machine/TypesRas.lean ====
section
/-!
DEFINITION. The state of start-up (16 R377), of units and their fences, of the Silt record, of the Lockkeeper, the
Headgates and the management endpoint (17).
-/
namespace Sys2Proof.Machine

/-- GEN_STATE.STATE (01 Table 01-10). -/
inductive GenState where
  | none | lkkBoot | memTrain | surveyLoad | headgateLoad | ready | recovery | dry
deriving DecidableEq, Repr

/-- Its value in the register, and in the entry STATE of the Silt record (17 Table 17-7). -/
def GenState.code : GenState → Nat
  | .none => 0 | .lkkBoot => 1 | .memTrain => 2 | .surveyLoad => 3 | .headgateLoad => 4 | .ready => 5 | .recovery => 6
  | .dry => 7

/-- Start-up and the availability registers (01 R33 to R36, 16 R377 to R379). -/
structure Startup where
  gen : GenState
  /-- Stage of Table 16-9 in progress; 0 before T0, 9 when ready. -/
  stage : Nat
  /-- Oscillator instant of T0, or of the start of a warm reset. -/
  t0 : Nat
  /-- The start-up in progress is a warm reset's. -/
  warm : Bool
  /-- The Lockkeeper (in Dry the Weir) has filled the GEN_ registers. -/
  filled : Bool
  variant : Nat
  availFields : Nat
  availDevs : Nat
  /-- Bits 0 to 3 the CXL ports, 4 and 5 the PCIe ports. -/
  availPorts : Nat
  /-- Bit i is core i. -/
  availCores : Nat
deriving DecidableEq, Repr

def Startup.init : Startup :=
  { gen := .none, stage := 0, t0 := 0, warm := false, filled := false, variant := 0, availFields := 0, availDevs := 0,
    availPorts := 0, availCores := 0 }

/-- RAS_UNIT_STATE.STATE of a unit that exists. -/
inductive UnitState where
  | available | fenced | testing | fencePending
deriving DecidableEq, Repr

/-- A unit of Table 17-8 (17 R383, R384, R386). Its RAS_UNIT_TIME is a register. -/
structure RasUnit where
  state : UnitState
  reason : Nat
  ce : Nat
  ue : Nat
  /-- Oscillator instants of its uncorrectable errors of the last 24 h. -/
  ueTimes : List Nat
deriving DecidableEq, Repr

def RasUnit.init : RasUnit := { state := .available, reason := 0, ce := 0, ue := 0, ueTimes := [] }

/-- A Silt entry (17 Table 17-6). -/
structure SiltEnt where
  mark : Nat
  seq : Nat
  source : Nat
  event : Nat
  status : Nat
  kind : Nat
  flags : Nat
  unit : Nat
  ctx : Nat
  detail : Nat
deriving DecidableEq, Repr

def SiltEnt.zero : SiltEnt :=
  { mark := 0, seq := 0, source := 0, event := 0, status := 0, kind := 0, flags := 0, unit := 0, ctx := 0,
    detail := 0 }

/-- A copy of the Silt record in flash (17 R405). -/
structure FlashCopy where
  mark : Nat
  seq : Nat
  cause : Nat
  ents : List SiltEnt
deriving DecidableEq, Repr

/-- The Silt record (17 R404 to R406). -/
structure Silt where
  /-- SEQ of the next entry. -/
  next : Nat
  /-- The ring, by slot. -/
  ring : Tbl (Option SiltEnt)
  flash : List (Option FlashCopy)
  /-- The slot the next copy goes to. -/
  nextSlot : Nat
  /-- Copies asked for and not finished, the first in progress. -/
  copying : List FlashCopy
  cmdCode : Nat
deriving DecidableEq, Repr

def Silt.init : Silt :=
  { next := 0, ring := [], flash := [none, none], nextSlot := 0, copying := [], cmdCode := 0 }

/-- A Headgate (17 R394): 0 RUNNING, 1 RESTARTING, 2 FENCED. -/
structure Headgate where
  state : Nat
  restarts : Nat
  /-- Oscillator instants of its restarts of the last 60 s. -/
  times : List Nat
  /-- Effective instant at which the restart in progress began. -/
  since : Nat
deriving DecidableEq, Repr

def Headgate.init : Headgate := { state := 0, restarts := 0, times := [], since := 0 }

/-- A firmware update (17 R402). State 0 IDLE, 1 LEARN COMPONENTS, 2 READY XFER, 3 DOWNLOAD, 4 VERIFY, 5 APPLY,
6 ACTIVATE. -/
structure Update where
  state : Nat
  component : Nat
  binding : Nat
  /-- Oscillator instant of the update agent's last message. -/
  lastReq : Nat
  /-- Components that have passed verification. -/
  verified : List Nat
  /-- The image received so far. -/
  image : Bytes
deriving DecidableEq, Repr

def Update.init : Update := { state := 0, component := 0, binding := 0, lastReq := 0, verified := [], image := [] }

/-- The Lockkeeper, the Weir's view of it, and the management endpoint (17 R392 to R403). -/
structure Lkk where
  /-- 0 BOOT, 1 RUNNING, 2 IN_RESET, 3 HELD_DRY. -/
  state : Nat
  slot : Nat
  svn : Nat
  hgSvn : Nat
  /-- Oscillator instants of its failures of the last 60 s. -/
  fails : List Nat
  takeovers : Nat
  resetIgnored : Nat
  /-- Oscillator instant of the last watchdog kick. -/
  lastKick : Nat
  hgs : List Headgate
  /-- Fence requests written since READY and not completed: kind, unit and reason. -/
  pendingFence : List (Nat × Nat × Nat)
  /-- Return tests queued or running: kind and unit. -/
  tests : List (Nat × Nat)
  /-- EIDs of SMBus, port A and port B. -/
  eids : List Nat
  tid : Nat
  /-- Event receiver: binding and EID. -/
  receiver : Option (Nat × Nat)
  update : Update
  /-- Management records: code, second of the last record and occurrences since. -/
  throttle : Tbl (Option (Nat × Nat))
  /-- Hottest sensor of terraces 0 to 3 and of the GDDR7 devices. -/
  temps : List Nat
  /-- Sensors whose THERMAL_WARN has not re-armed. -/
  warned : List Bool
  /-- MCTP messages dropped while the device is frozen (R396). -/
  dropped : Nat
deriving DecidableEq, Repr

def Lkk.init : Lkk :=
  { state := 0, slot := 0, svn := 0, hgSvn := 0, fails := [], takeovers := 0, resetIgnored := 0, lastKick := 0,
    hgs := List.replicate 8 Headgate.init, pendingFence := [], tests := [],
    eids := [0, 0, 0], tid := 0, receiver := none, update := Update.init, throttle := [], temps := [0, 0, 0, 0, 0],
    warned := [false, false, false, false, false], dropped := 0 }

end Sys2Proof.Machine
end

