-- ==== Sys2Proof/Machine/TypesSec.lean ====
section
/-!
DEFINITION. The state of the Security block and of the authenticated flash (15).
-/
namespace Sys2Proof.Machine

/-- A key of the signed device policy (15 Table 15-5). -/
structure PolKey where
  id : Nat
  /-- 1 survey, 2 Offtake. -/
  use : Nat
  /-- 0xFFFF for any. -/
  tenant : Nat
  pub : Bytes
deriving DecidableEq, Repr

/-- A signed device policy as parsed (15 R352). -/
structure Policy where
  id : Nat
  roles : Nat
  flags : Nat
  floorTotalW : Nat
  serial : Nat
  bind : Bytes
  maxQuotaGib : Nat
  /-- Frequency in MHz, least and largest supply in mV. -/
  opps : List (Nat × Nat × Nat)
  keys : List PolKey
  ownerKey : Bytes
deriving DecidableEq, Repr

/-- The replay-protected region of the flash (15 Table 15-2), the default survey image (02 R48), and the slots of the
firmware in use. -/
structure Flash where
  ownerDigest : Bytes
  ownerSerial : Nat
  /-- The bytes of the policy in force; empty where there is none. -/
  policy : Bytes
  policySerial : Nat
  lkkFloor : Nat
  hgFloor : Nat
  revoke : Nat
  surveyFloor : Nat
  sysEpoch : List Nat
  ikReserved : Nat
  akGen : Nat
  akReserved : Nat
  activeLkk : Nat
  activeHg : Nat
  /-- The two firmware slots of each kind (15 R350); none while the model has not seen what a slot holds. -/
  lkkSlots : List (Option Bytes)
  hgSlots : List (Option Bytes)
  /-- The default survey image; empty where the slot is. -/
  image : Bytes
deriving DecidableEq, Repr

def Flash.init : Flash :=
  { ownerDigest := List.replicate 32 0, ownerSerial := 0, policy := [], policySerial := 0, lkkFloor := 0, hgFloor := 0,
    revoke := 0, surveyFloor := 0, sysEpoch := List.replicate 16 0, ikReserved := 0, akGen := 0, akReserved := 0,
    activeLkk := 0, activeHg := 0, lkkSlots := [none, none], hgSlots := [none, none], image := [] }

/-- The Security block (15 R344 to R359). -/
structure Sec where
  flash : Flash
  identityOk : Bool
  /-- The verified policy (15 R353). -/
  policy : Option Policy
  /-- Next index of the identity key and of the attestation key. -/
  ikNext : Nat
  akNext : Nat
  /-- The root of the next attestation key: 0 not begun, 1 being computed, 2 computed. -/
  akRoot : Nat
  /-- The certificate of the current attestation key; empty before it is signed. -/
  akCert : Bytes
  /-- The command that runs, by function: its OP. -/
  running : Tbl Nat
  /-- SEC_IN_LEN at the start of a function's command that reads an object. -/
  inLen : Tbl Nat
  /-- ATTESTs that wait for the next attestation key, in order. -/
  waiting : List Nat
  /-- SEC_CMD_STATUS.CODE and SEC_DONE_TIME, by function. -/
  code : Tbl Nat
  doneTime : Tbl Nat
  verifyFail : Nat
  signed : Nat
  /-- SHAKE256 digests of the running Lockkeeper and Headgate images. -/
  lkkDigest : Bytes
  hgDigest : Bytes
  /-- SHAKE256 of the last committed survey image; empty before a commit. -/
  surveyDigest : Bytes
deriving DecidableEq, Repr

def Sec.init : Sec :=
  { flash := Flash.init, identityOk := false, policy := none, ikNext := 0, akNext := 0, akRoot := 0, akCert := [],
    running := [], inLen := [], waiting := [], code := [], doneTime := [], verifyFail := 0, signed := 0, lkkDigest := [],
    hgDigest := [], surveyDigest := [] }

end Sys2Proof.Machine
end

