-- ==== Sys2Proof/Machine/TypesServe.lean ====
section
/-!
DEFINITION. The state of Intake (09) and of speculation and Offtakes (10).
-/
namespace Sys2Proof.Machine

/-- A serving profile (09 Table 09-2). -/
structure Profile where
  teacher : Nat
  student : Nat
  parcelBytes : Nat
  maxContext : Nat
  tpms : Nat
  epUj : Nat
  edUj : Nat
  prefillProg : Nat
  decodeProg : Nat
deriving DecidableEq, Repr

/-- A request descriptor (09 Table 09-1). -/
structure ReqDesc where
  id : Nat
  profile : Nat
  realtime : Bool
  flags : Nat
  prompt : Nat
  maxNew : Nat
  ttftUs : Nat
  itlUs : Nat
  stop : Nat
  promptAddr : Nat
  outAddr : Nat
  outEntries : Nat
  handle : Nat
  tailAddr : Nat
  seed : Nat
  offtake : Nat
  gateEnd : Nat
  temperature : Nat
deriving DecidableEq, Repr

/-- Where a request stands (09 R220); one that has ended is not listed. -/
inductive ReqState where
  | queued | prefill | decode
deriving DecidableEq, Repr

/-- A prefill chunk (09 R226). -/
structure Chunk where
  tokens : Nat
  /-- Its start and its finish tag. -/
  start : Nat
  tag : Nat
  dispatched : Bool
  /-- Fields whose programs of the chunk have not ended. -/
  left : List Nat
deriving DecidableEq, Repr

/-- An Outfall TOKEN record that waits for room (09 R232, Table 09-5). -/
structure OutRec where
  flags : Nat
  token : Nat
  mark : Nat
  index : Nat
  latency : Nat
  step : Nat
  accepted : Nat
  tree : Nat
  value : Nat
  cached : Nat
  handle : Nat
deriving DecidableEq, Repr

/-- A live request (09 R220 to R235, 10 R239 to R247). -/
structure Req where
  /-- The model's number, in order of admission. -/
  num : Nat
  order : OrderId
  tenant : Nat
  district : Nat
  desc : ReqDesc
  /-- A, the time mark of its order. -/
  markA : Nat
  state : ReqState
  chunks : List Chunk
  decodeTag : Nat
  /-- Its own parcels, then the entries it hit in block order. -/
  parcels : List Nat
  hits : List Nat
  /-- Tokens its hits do not cover. -/
  uncached : Nat
  /-- Digests of its full prompt blocks, and the key domain they were formed in. -/
  digests : List Bytes
  domain : Nat
  /-- r, and the energy charged, in µJ. -/
  remainder : Nat
  charged : Nat
  /-- Tokens committed, and records written. -/
  emitted : Nat
  records : Nat
  /-- Records that wait for room in the ring. -/
  held : List OutRec
  /-- The end that follows the held records: FLAGS and status. -/
  finish : Option (Nat × Nat)
  stallSince : Option Nat
  /-- The interval in progress includes a stall. -/
  stalled : Bool
  lastMark : Nat
  steps : Nat
  /-- Tree limit n, FR, GR, and steps in a row without drafting. -/
  limit : Nat
  fr : Nat
  gr : Nat
  plain : Nat
  /-- The step in progress is a probe. -/
  probe : Bool
  /-- Pinned Offtake version; 0 none. -/
  version : Nat
  /-- Position and attention mask of the rows of its last decode step, the anchor's first; none for a row that is masked
  (10 R241). -/
  plan : List (Option (Nat × Nat))
deriving DecidableEq, Repr

/-- An entry of a district's prefix table (09 R228 to R231). -/
structure Prefix where
  live : Bool
  gen : Nat
  digest : Bytes
  domain : Nat
  /-- Handle of the entry of the block before, for block 1 and later. -/
  parent : Nat
  block : Nat
  parcel : Nat
  tenant : Nat
  refs : Nat
  lastUse : Nat
deriving DecidableEq, Repr

def Prefix.init : Prefix :=
  { live := false, gen := 0, digest := [], domain := 0, parent := 0, block := 0, parcel := 0, tenant := 0, refs := 0,
    lastUse := 0 }

/-- A decode step in progress (09 R227): the requests in it and their tree limits. -/
structure DecStep where
  reqs : List (Nat × Nat)
  /-- Fields whose programs have not ended. -/
  left : List Nat
deriving DecidableEq, Repr

/-- Intake and speculation in a SERVE district (09 Table 09-8, 10 Table 10-8). -/
structure Serve where
  profiles : List Profile
  /-- V, with 16 fraction bits. -/
  v : Nat
  prefixes : Tbl Prefix
  /-- Key domain of share group g. -/
  groups : Tbl Nat
  step : Option DecStep
  itl : Nat
  ttft : Nat
  /-- Cores lent, the latest last. -/
  lent : List Nat
  lendTime : Nat
  lastLend : Nat
  refused : List Nat
  cancelled : List Nat
  cmdCode : Nat
  capHead : Nat
  capDropped : Nat
  capRefused : Nat
  specSteps : Nat
  specNodes : Nat
  specAccepted : Nat
  fullRej : Nat
  dropped : Nat
  halved : Nat
  oftRefused : List Nat
deriving DecidableEq, Repr

def Serve.init : Serve :=
  { profiles := [], v := 0, prefixes := [], groups := [], step := none, itl := 0, ttft := 0, lent := [], lendTime := 0,
    lastLend := 0, refused := List.replicate 13 0, cancelled := [0, 0, 0, 0], cmdCode := 0, capHead := 0,
    capDropped := 0, capRefused := 0, specSteps := 0, specNodes := 0, specAccepted := 0, fullRej := 0, dropped := 0,
    halved := 0, oftRefused := List.replicate 9 0 }

/-- What Intake keeps of a tenant (09 R224, R226, R229). -/
structure Tenant where
  /-- F_t. -/
  finish : Nat
  /-- L in nJ, and the oscillator instant at which it was last refilled. -/
  bucket : Int
  refilledAt : Nat
  /-- Its private key domain; 0 before its context exists. -/
  domain : Nat
  /-- The share group in force; 0 none. -/
  group : Nat
deriving DecidableEq, Repr

def Tenant.init : Tenant := { finish := 0, bucket := 0, refilledAt := 0, domain := 0, group := 0 }

/-- A version of an Offtake variant (10 R248 to R253). -/
structure OftVer where
  tenant : Nat
  variant : Nat
  version : Nat
  base : Nat
  district : Nat
  /-- Bytes charged, and the device ranges that hold the copy. -/
  charge : Nat
  place : List (Nat × Nat)
  current : Bool
  pins : Nat
deriving DecidableEq, Repr

/-- An install whose copy is in progress. -/
structure OftInst where
  order : OrderId
  ver : OftVer
deriving DecidableEq, Repr

end Sys2Proof.Machine
end

