-- ==== Sys2Proof/Machine/TypesSurvey.lean ====
section
/-!
DEFINITION. The survey image (02), the districts, and the memory devices, ports and model cache (11).
-/
namespace Sys2Proof.Machine

/-- A tenant's entry of TENANT_MAP (02 Table 02-4); district 0xFF for none. -/
structure TenantEnt where
  district : Nat
  weight : Nat
  quotaGib : Nat
  energyW : Nat
deriving DecidableEq, Repr

def TenantEnt.none : TenantEnt := { district := 0xFF, weight := 0, quotaGib := 0, energyW := 0 }

/-- A terrace's entry of RESERVOIR_PLAN. -/
structure PlanEnt where
  cacheMib : Nat
  flumeMib : Nat
  cisternMib : Nat
  conflMib : Nat
  scratchMib : Nat
deriving DecidableEq, Repr

def PlanEnt.none : PlanEnt := { cacheMib := 0, flumeMib := 0, cisternMib := 0, conflMib := 0, scratchMib := 0 }

/-- An entry of ROTATION. -/
structure RotEnt where
  startNs : Nat
  fieldMask : Nat
  district : Nat
  kind : Nat
deriving DecidableEq, Repr

/-- The per-district sections of one district (02 Tables 02-3 and 02-4). -/
structure DistEnt where
  role : Nat
  requireRunnel : Bool
  fieldMask : Nat
  deviceMask : Nat
  wayMask : Nat
  flumeShare : Nat
  conflShare : Nat
  cisternResMib : Nat
  cisternSpillGib : Nat
  scratchMib : Nat
  /-- CXL ranges, base and size in GiB. -/
  cxl : List (Nat × Nat)
  maxBasinLent : Nat
  minBasinPrefill : Nat
  maxRunnelLent : Nat
  minRunnelDecode : Nat
  contW : Nat
  floorW : Nat
  opMin : Nat
  gateFirst : Nat
  gateCount : Nat
  perTenantMax : Nat
  pinBudgetGib : Nat
  stagingGib : Nat
  backing : Nat
  drySteps : Nat
  crushPerMille : Nat
  ratioHi : Nat
  mode : Nat
  convNan : Nat
  scaleDivLog2 : Nat
  nonfinite : Nat
  raiseSteps : Nat
  initScaleLog2 : Nat
  deadlineUs : Nat
  deadlineMaxUs : Nat
deriving DecidableEq, Repr

/-- A survey image as parsed (02 R38 to R43). -/
structure Image where
  serial : Nat
  bound : Bool
  deviceBind : Nat
  policyId : Nat
  signerKey : Nat
  /-- The districts it defines, in ascending number. -/
  districts : List (Nat × DistEnt)
  tenants : Tbl TenantEnt
  /-- One entry per terrace. -/
  plan : List PlanEnt
  /-- CLOCK_PLAN points: frequency in MHz and supply in mV. -/
  clock : List (Nat × Nat)
  /-- FRAME_NS and the entries; none without a ROTATION section. -/
  rotation : Option (Nat × List RotEnt)
deriving DecidableEq, Repr

/-- SRV_DISTRICT_STATE.STATE. -/
inductive DistState where
  | absent | active | draining | applying | inert
deriving DecidableEq, Repr

/-- A district as it stands. -/
structure Dist where
  state : DistState
  /-- Its committed entry. -/
  ent : Option DistEnt
  /-- Fields in effect (02 R49). -/
  fields : Nat
  /-- Its interleave set (11 R258). -/
  devices : List Nat
  /-- Sizes in effect (11 R260), in GiB. -/
  stagingGib : Nat
  spillGib : Nat
  /-- Device addresses of the staging area and of the spill region. -/
  stagingBase : Nat
  spillBase : Nat
  /-- The save area (13 R309). -/
  saveBase : Nat
  saveBytes : Nat
  /-- Chunks still to move (11 R261). -/
  migrate : Nat
  /-- The interleave set that the re-survey in APPLYING gives it (11 R261). -/
  newSet : Option (List Nat)
deriving DecidableEq, Repr

def Dist.init : Dist :=
  { state := .absent, ent := none, fields := 0, devices := [], stagingGib := 0, spillGib := 0, stagingBase := 0,
    spillBase := 0, saveBase := 0, saveBytes := 0, migrate := 0, newSet := none }

/-- SRV_STATUS.STATE. -/
inductive SrvState where
  | idle | verifying | staged | draining | applying | storing
deriving DecidableEq, Repr

/-- The survey unit (02 R48 to R57). -/
structure Survey where
  state : SrvState
  /-- The physical function whose command runs, its OP, and its district, or LEN of a STAGE. -/
  cmd : Option (Nat × Nat × Nat)
  /-- SRV_STATUS.CODE, LAST_OP and SRV_DONE_TIME of the two physical functions. -/
  code : List Nat
  lastOp : List Nat
  doneTime : List Nat
  /-- The staged image, its owner and its bytes. -/
  staged : Option (Nat × Image × Bytes)
  committed : Option Image
  committedSerial : Nat
  /-- The district committed with RWL fields locked (00 R6). -/
  locked : Bool
  /-- Effective instant at which draining began. -/
  drainStart : Nat
  /-- The image of the re-survey in progress: it outlives a reset of its owner (02 R55). -/
  target : Bytes
deriving DecidableEq, Repr

def Survey.init : Survey :=
  { state := .idle, cmd := none, code := [0, 0], lastOp := [0, 0], doneTime := [0, 0], staged := none,
    committed := none, committedSerial := 0, locked := false, drainStart := 0, target := [] }

/-- MEM_DEV_STATUS.STATE. -/
inductive DevState where
  | off | training | active | unowned | fenced | migrating
deriving DecidableEq, Repr

/-- A GDDR7 device (11 R258, R262 to R264). ERR_ADDR and ERR_TIME are registers. -/
structure MemDev where
  state : DevState
  ce : Nat
  ue : Nat
  retry : Nat
  /-- Oscillator instants of the bursts of the last second that failed their eighth retry (17 R384). -/
  linkFails : List Nat
  /-- Its channel is in self-refresh (16 R371). -/
  refresh : Bool
deriving DecidableEq, Repr

def MemDev.init : MemDev := { state := .off, ce := 0, ue := 0, retry := 0, linkFails := [], refresh := false }

/-- CXL_PORT_STATUS.STATE. -/
inductive CxlState where
  | down | training | up | fenced | absent
deriving DecidableEq, Repr

/-- A device mapped behind a CXL port (11 R272). -/
structure CxlMap where
  baseGib : Nat
  sizeGib : Nat
  downPort : Nat
deriving DecidableEq, Repr

/-- A CXL port (11 R271 to R273). FENCE_TIME is a register. -/
structure CxlPort where
  state : CxlState
  reason : Nat
  devs : List CxlMap
  /-- Counts of the codes 0x0420 to 0x0425. -/
  events : List Nat
  readBytes : Nat
  writeBytes : Nat
deriving DecidableEq, Repr

def CxlPort.init : CxlPort :=
  { state := .down, reason := 0, devs := [], events := [0, 0, 0, 0, 0, 0], readBytes := 0, writeBytes := 0 }

/-- MEM_ENTRY.STATE of an entry that exists. -/
inductive EntState where
  | backed | loading | resident | staged
deriving DecidableEq, Repr

/-- A model cache entry (11 R274 to R279). -/
structure CacheEnt where
  live : Bool
  gen : Nat
  modelId : Nat
  kind : Nat
  /-- 1 CXL, 2 host. -/
  backing : Nat
  district : Nat
  parent : Nat
  bytes : Nat
  backAddr : Nat
  /-- Port of the issuing function, for host backing. -/
  port : Nat
  tensor : Nat
  state : EntState
  /-- Device address while RESIDENT or STAGED, or of the place a load fills. -/
  home : Nat
  /-- The load in progress fills the staging area. -/
  toStaging : Bool
  pins : Nat
  usePins : Nat
  lastUse : Nat
  /-- The order that waits for the load, and whether it takes an explicit pin. -/
  waiting : List (OrderId × Bool)
  /-- The descriptor's virtual address and context, where HOME and HANDLE are written. -/
  descAddr : Nat
  descCtx : Nat
  /-- Oscillator instant at which the load in progress began (R273). -/
  since : Nat
deriving DecidableEq, Repr

def CacheEnt.init : CacheEnt :=
  { live := false, gen := 0, modelId := 0, kind := 0, backing := 0, district := 0, parent := 0, bytes := 0,
    backAddr := 0, port := 0, tensor := 0, state := .backed, home := 0, toStaging := false, pins := 0, usePins := 0,
    lastUse := 0, waiting := [], descAddr := 0, descCtx := 0, since := 0 }

end Sys2Proof.Machine
end

