-- ==== Sys2Proof/Machine/TypesTrain.lean ====
section
/-!
DEFINITION. The state of the Flume and Diversion (05), of the Cistern and the epoch ledger (06).
-/
namespace Sys2Proof.Machine

/-- A Flume job descriptor (05 Table 05-4). -/
structure FlumeDesc where
  job : Nat
  flags : Nat
  outFmt : Nat
  tiles : Nat
  topk : Nat
  slots : Nat
  rows : Nat
  width : Nat
  invTau : Nat
  wMain : Nat
  wCe : Nat
  gradTensor : Nat
  slotBase : Nat
  labelAddr : Nat
  targetAddr : Nat
  rowLossAddr : Nat
  resultAddr : Nat
  holdAddr : Nat
  holdBytes : Nat
  rowBase : Nat
  gateIn : Nat
  gateDone : Nat
deriving DecidableEq, Repr

/-- How a row stands (05 R126, R132). -/
inductive RowKind where
  /-- Included, without a hard label. -/
  | plain
  /-- Included, with a hard label. -/
  | labelled (col : Nat)
  | excluded
deriving DecidableEq, Repr

/-- A top-K entry (05 R134): teacher and student logits, column, target probability, and at and as. -/
structure TopEnt where
  zt : Nat
  zs : Nat
  col : Nat
  p : Nat
  at_ : Nat
  as_ : Nat
deriving DecidableEq, Repr

/-- The state of a row (05 R132 to R138), FP32 words. -/
structure RowSt where
  kind : RowKind
  bad : Bool
  degenerate : Bool
  mt : Nat
  st : Nat
  ms : Nat
  ss : Nat
  m1 : Nat
  s1 : Nat
  lt : Nat
  ls : Nat
  l1 : Nat
  ul : Nat
  kl : Nat
  top : List TopEnt
  pTail : Nat
  tailF : Nat
  main : Nat
  fa : Nat
  fb : Nat
  fc : Nat
  fe : Nat
  alpha : Nat
  beta : Nat
  cosv : Nat
deriving DecidableEq, Repr

def RowSt.init : RowSt :=
  { kind := .plain, bad := false, degenerate := false, mt := 0xFF800000, st := 0, ms := 0xFF800000, ss := 0,
    m1 := 0xFF800000, s1 := 0, lt := 0, ls := 0, l1 := 0, ul := 0, kl := 0, top := [], pTail := 0, tailF := 0,
    main := 0, fa := 0, fb := 0, fc := 0, fe := 0, alpha := 0, beta := 0, cosv := 0 }

/-- An open tile (05 R129): the pass and the chunk that comes next, and its rows. -/
structure Tile where
  tile : Nat
  pass : Nat
  chunk : Nat
  rows : List RowSt
deriving DecidableEq, Repr

/-- FLM_JOB.STATE (05 Table 05-9). -/
inductive JobState where
  | free | waiting | running | suspended | ending
deriving DecidableEq, Repr

/-- A Flume job context (05 R125). -/
structure FlumeJob where
  state : JobState
  ctx : Nat
  district : Nat
  /-- The kicking program's field and slot. -/
  field : Nat
  pslot : Nat
  desc : FlumeDesc
  g0 : Nat
  /-- Slots taken and finished. -/
  taken : Nat
  finished : Nat
  ls : Nat
  convNan : Bool
  kt : Nat
  ckd : Nat
  cce : Nat
  cf : Nat
  opened : List Tile
  closed : List Nat
  /-- Exact sums of the losses, and whether a bad row has made them NaN (05 R141). -/
  sumMain : Val
  sumCe : Val
  tokens : Nat
  excluded : Nat
  bad : Nat
  /-- Counts of the events 0x0630 to 0x0634. -/
  events : List Nat
  startMark : Nat
  endMark : Nat
  /-- The Philox key of the kicking step: seed, step index and attempt (07 R168). -/
  seed : Nat
  step : Nat
  attempt : Nat
deriving DecidableEq, Repr

def FlumeDesc.init : FlumeDesc :=
  { job := 0, flags := 0, outFmt := 0, tiles := 0, topk := 0, slots := 0, rows := 0, width := 0, invTau := 0,
    wMain := 0, wCe := 0, gradTensor := 0, slotBase := 0, labelAddr := 0, targetAddr := 0, rowLossAddr := 0,
    resultAddr := 0, holdAddr := 0, holdBytes := 0, rowBase := 0, gateIn := 0, gateDone := 0 }

def FlumeJob.init : FlumeJob :=
  { state := .free, ctx := 0x7FF, district := 0, field := 0, pslot := 0, desc := FlumeDesc.init, g0 := 0, taken := 0,
    finished := 0, ls := 0, convNan := false, kt := 0, ckd := 0, cce := 0, cf := 0, opened := [], closed := [],
    sumMain := .fin false 0 0, sumCe := .fin false 0 0, tokens := 0, excluded := 0, bad := 0,
    events := [0, 0, 0, 0, 0], startMark := 0, endMark := 0, seed := 0, step := 0, attempt := 0 }

/-- A Flume instance (05 R130, Table 05-9). -/
structure Flume where
  /-- Job contexts 0 to 7. -/
  jobs : Tbl FlumeJob
  /-- Slot engines 0 to 3: the job context and the number n of the slot each holds. -/
  engines : List (Option (Nat × Nat))
  events : List Nat
deriving DecidableEq, Repr

def Flume.init : Flume := { jobs := [], engines := [none, none, none, none], events := [0, 0, 0, 0, 0] }

/-- A Diversion job descriptor (05 Table 05-2). -/
structure DivDesc where
  op : Nat
  topk : Nat
  rowFmt : Nat
  outFmt : Nat
  rows : Nat
  experts : Nat
  rowBytes : Nat
  hints : Nat
  gateReady : Nat
  routeAddr : Nat
  srcAddr : Nat
  placeAddr : Nat
  destAddr : Nat
  indexAddr : Nat
  hintAddr : Nat
deriving DecidableEq, Repr

/-- An expert of a DISPATCH not yet signalled: its index, its rows, its entry, and the source its weights come from
once they are readable (0 resident, 1 staged, 2 direct). -/
structure DivExpert where
  expert : Nat
  offset : Nat
  count : Nat
  entry : Nat
  source : Nat
deriving DecidableEq, Repr

/-- A Diversion job context (05 R120). -/
structure DivJob where
  ctx : Nat
  district : Nat
  field : Nat
  pslot : Nat
  desc : DivDesc
  /-- Experts still to be signalled. -/
  pending : List DivExpert
  /-- Counts of the events 0x0638 to 0x063A. -/
  events : List Nat
  /-- Every row is copied, and only signals remain. -/
  copied : Bool
deriving DecidableEq, Repr

/-- Pins that a DISPATCH holds until its COMBINE or the end of its program (05 R123). -/
structure DivPin where
  ctx : Nat
  field : Nat
  pslot : Nat
  indexAddr : Nat
  entries : List Nat
deriving DecidableEq, Repr

/-- A Diversion instance (05 Table 05-10). -/
structure Diversion where
  jobs : Tbl (Option DivJob)
  rows : Nat
  fetches : Nat
  hints : Nat
  events : List Nat
deriving DecidableEq, Repr

def Diversion.init : Diversion := { jobs := [], rows := 0, fetches := 0, hints := 0, events := [0, 0, 0] }

/-- What occupies Cistern granules (06 R150). -/
inductive ClaimKind where
  | stash (mb seg : Nat)
  | anchor
  | recompute
deriving DecidableEq, Repr

/-- A placement of a field part in a Cistern: device address and bytes of whole granules. -/
structure Claim where
  o : OrderId
  field : Nat
  district : Nat
  base : Nat
  bytes : Nat
  kind : ClaimKind
deriving DecidableEq, Repr

/-- A live TRAIN_STEP order (06 R423). -/
structure StepOrd where
  o : OrderId
  district : Nat
  /-- Its programs have been started. -/
  started : Bool
  epoch : Nat
  ls : Nat
  attempt : Nat
  seed : Nat
  step : Nat
  microBatches : Nat
  /-- Some field carries a plan with an OPT_IMAGE. -/
  hasOpt : Bool
  /-- The first OPT_IMAGE FRUN has retired the previous epoch. -/
  optBegun : Bool
  optEnded : Bool
  /-- The verdict of its step has been formed (07 R174). -/
  verdict : Bool
  /-- An OPT_IMAGE instance of it was stopped before its END, so the epoch cannot advance (R161). -/
  optLost : Bool
  /-- The order is stopped as a whole: by a drain, a cancel, a fence or a teardown (02 R53, 08 R197). -/
  stopped : Bool
  /-- The reason of its verdict SKIP; 0 without one. -/
  skip : Nat
  /-- Fields of the order. -/
  fields : List Nat
deriving DecidableEq, Repr

/-- A live field part of a TRAIN_STEP order: what the Cistern and the Confluence know of it. -/
structure Part where
  o : OrderId
  field : Nat
  district : Nat
  epoch : Nat
  /-- Segments marked for recomputation, by micro-batch. -/
  marked : List (Nat × Nat)
  /-- Counts of the events 0x0621 and 0x0622 in the program. -/
  spilled : Nat
  recomputed : Nat
  /-- It has posted its partial gradient (08 R197). -/
  posted : Bool
  /-- Instances of RCP_IMAGE or of a BWD_IMAGE read the recompute run. -/
  rcpBusy : Bool
  /-- Sums of token counts its Flume jobs have recorded. -/
  tokens : Nat
deriving DecidableEq, Repr

/-- The epoch ledger and counters of a TRAIN district (06 Table 06-9). -/
structure Cistern where
  events : List Nat
  retired : Nat
  retiring : Bool
  markTime : Nat
  markField : Nat
  markSeg : Nat
  markMb : Nat
  epochTime : Nat
deriving DecidableEq, Repr

def Cistern.init : Cistern :=
  { events := [0, 0, 0], retired := 0, retiring := false, markTime := 0, markField := 0, markSeg := 0, markMb := 0,
    epochTime := 0 }

end Sys2Proof.Machine
end

