-- ==== Sys2Proof/Machine/State.lean ====
section
/-!
DEFINITION. The state of the block: what the spec gives the machine, as plain data, and the state after a cold reset.
Every indexed family is a sparse table whose unlisted elements are in their reset state, so that the reset state lists
nothing. A field of a register that software writes stands in regs; a field it only reads is computed from the rest
(Machine/RegRead.lean).
-/
namespace Sys2Proof.Machine

/-- Everything the device holds, apart from the commands that wait. -/
structure Dev where
  /-- The time base (16 R372 to R376). -/
  time : Time
  /-- What the device has done at its links and pins, the latest first. -/
  out : List OutEvent
  /-- The model's own: how many free values have been drawn. -/
  draws : Nat
  /-- Register fields that software writes, by field and copy (00 Table 00-5). -/
  regs : Tbl DWord
  /-- The PCIe ports (14 R320, R322). -/
  ports : List Port
  /-- Ring pairs, by function × 64 + pair (14 R323). -/
  rings : Tbl Ring
  /-- Error rings, by function (14 R333). -/
  errs : Tbl ErrRing
  /-- Orders fetched and not completed, in the order of their fetch (14 R324). -/
  orders : List Order
  /-- Sluices (14 R336). -/
  sluices : Tbl Sluice
  /-- MSI-X entries, by function × 2,048 + vector (14 R321, R335). -/
  msix : Tbl MsixEnt
  /-- Gates (12 R293). -/
  gates : Tbl Gate
  /-- Waits registered at Gates (12 R294). -/
  waits : List GateWait
  /-- The Canal's counters (12 R298). -/
  canal : Canal
  /-- Contexts (13 R299). -/
  ctxs : Tbl Ctx
  /-- The scheduler (13 R301, R311, R312). -/
  sched : Sched
  /-- The survey unit (02). -/
  survey : Survey
  /-- Districts (02 R49, R53). -/
  dists : Tbl Dist
  /-- GDDR7 devices (11 R258). -/
  devs : Tbl MemDev
  /-- CXL ports (11 R272). -/
  cxl : Tbl CxlPort
  /-- Model cache entries, by index (11 R274). -/
  cache : Tbl CacheEnt
  /-- Reservoir cache lines by slice × 2²⁰ + set: way and line address, most recent first (11 R269). -/
  lines : Tbl (List (Nat × Nat))
  /-- Memory by device physical address (11 R255); an unlisted byte reads 0. -/
  mem : List Host.Cell
  /-- Device addresses of the 64-byte bursts whose errors no code corrects (11 R263, 17 R382). -/
  bad : List Nat
  /-- Failed accesses of units, taken at the end of the command that runs (11 R265). -/
  memFaults : List MemFault
  /-- Cores (04). -/
  cores : Tbl Core
  /-- Fields (04). -/
  fields : Tbl Field
  /-- Save records of suspended instances (13 R309). -/
  saves : List SaveRec
  /-- Start-up and availability (16 R377, 01 R34). -/
  startup : Startup
  /-- Units, by kind × 65,536 + unit (17 Table 17-8). -/
  units : Tbl RasUnit
  /-- The Silt record (17 R404). -/
  silt : Silt
  /-- The Lockkeeper, the Headgates and management (17 R392, R399). -/
  lkk : Lkk
  /-- Flume instances (05). -/
  flumes : Tbl Flume
  /-- Diversion instances (05). -/
  divs : Tbl Diversion
  /-- Pins that DISPATCHes hold (05 R123). -/
  divPins : List DivPin
  /-- Cistern placements (06 R150). -/
  claims : List Claim
  /-- Live TRAIN_STEP orders, in arrival order (06 R159, R423). -/
  steps : List StepOrd
  /-- Live field parts of TRAIN_STEP orders (06 R160). -/
  parts : List Part
  /-- Cistern counters, by district (06 Table 06-9). -/
  cis : Tbl Cistern
  /-- The Gauge, by district (07 Table 07-8). -/
  gauges : Tbl Gauge
  /-- GAU_REPORTS of the four instances (07 Table 07-9). -/
  gaugeReports : List Nat
  /-- The Confluence, by district (08 Table 08-8). -/
  cfls : Tbl Cfl
  /-- CFL_INST_ELEMS of the four instances (08 Table 08-9). -/
  cflElems : List Nat
  /-- The Security block and the authenticated flash (15). -/
  sec : Sec
  /-- The power stage and the Allotment (16 R360 to R369). -/
  power : Power
  /-- CLK_WAKE of the 60 clock domains (16 Table 16-6). -/
  wakes : Tbl Nat
  /-- Intake and speculation, by district (09, 10). -/
  serves : Tbl Serve
  /-- What Intake keeps of each tenant (09). -/
  tenants : Tbl Tenant
  /-- Live requests, in order of admission (09 R220). -/
  reqs : List Req
  /-- The model's own: the number of the next request. -/
  nextReq : Nat
  /-- Offtake versions resident (10 R250). -/
  ofts : List OftVer
  /-- Installs whose copies are in progress (10 R250). -/
  oftInsts : List OftInst
  /-- Switch instants, by tenant × 65,536 + variant (10 Table 10-9). -/
  oftTimes : Tbl Nat
deriving DecidableEq, Repr

/-- The device right after a cold reset (00 R5): every register field at its Reset column, every unit in its reset
state. -/
def Dev.reset : Dev :=
  { time := Time.init,
    out := [],
    draws := 0,
    regs := [],
    ports := [Port.init, Port.init],
    rings := [],
    errs := [],
    orders := [],
    sluices := [],
    msix := [],
    gates := [],
    waits := [],
    canal := Canal.init,
    ctxs := [],
    sched := Sched.init,
    survey := Survey.init,
    dists := [],
    devs := [],
    cxl := [],
    cache := [],
    lines := [],
    mem := [],
    bad := [],
    memFaults := [],
    cores := [],
    fields := [],
    saves := [],
    startup := Startup.init,
    units := [],
    silt := Silt.init,
    lkk := Lkk.init,
    flumes := [],
    divs := [],
    divPins := [],
    claims := [],
    steps := [],
    parts := [],
    cis := [],
    gauges := [],
    gaugeReports := [0, 0, 0, 0],
    cfls := [],
    cflElems := [0, 0, 0, 0],
    sec := Sec.init,
    power := Power.init,
    wakes := [],
    serves := [],
    tenants := [],
    reqs := [],
    nextReq := 0,
    ofts := [],
    oftInsts := [],
    oftTimes := [] }

/-- Put time. -/
def Dev.setTime (d : Dev) (v : Time) : Dev := { d with time := v }
/-- Put out. -/
def Dev.setOut (d : Dev) (v : List OutEvent) : Dev := { d with out := v }
/-- Put draws. -/
def Dev.setDraws (d : Dev) (v : Nat) : Dev := { d with draws := v }
/-- Put regs. -/
def Dev.setRegs (d : Dev) (v : Tbl DWord) : Dev := { d with regs := v }
/-- Put ports. -/
def Dev.setPorts (d : Dev) (v : List Port) : Dev := { d with ports := v }
/-- Put rings. -/
def Dev.setRings (d : Dev) (v : Tbl Ring) : Dev := { d with rings := v }
/-- Put errs. -/
def Dev.setErrs (d : Dev) (v : Tbl ErrRing) : Dev := { d with errs := v }
/-- Put orders. -/
def Dev.setOrders (d : Dev) (v : List Order) : Dev := { d with orders := v }
/-- Put sluices. -/
def Dev.setSluices (d : Dev) (v : Tbl Sluice) : Dev := { d with sluices := v }
/-- Put msix. -/
def Dev.setMsix (d : Dev) (v : Tbl MsixEnt) : Dev := { d with msix := v }
/-- Put gates. -/
def Dev.setGates (d : Dev) (v : Tbl Gate) : Dev := { d with gates := v }
/-- Put waits. -/
def Dev.setWaits (d : Dev) (v : List GateWait) : Dev := { d with waits := v }
/-- Put canal. -/
def Dev.setCanal (d : Dev) (v : Canal) : Dev := { d with canal := v }
/-- Put ctxs. -/
def Dev.setCtxs (d : Dev) (v : Tbl Ctx) : Dev := { d with ctxs := v }
/-- Put sched. -/
def Dev.setSched (d : Dev) (v : Sched) : Dev := { d with sched := v }
/-- Put survey. -/
def Dev.setSurvey (d : Dev) (v : Survey) : Dev := { d with survey := v }
/-- Put dists. -/
def Dev.setDists (d : Dev) (v : Tbl Dist) : Dev := { d with dists := v }
/-- Put devs. -/
def Dev.setDevs (d : Dev) (v : Tbl MemDev) : Dev := { d with devs := v }
/-- Put cxl. -/
def Dev.setCxl (d : Dev) (v : Tbl CxlPort) : Dev := { d with cxl := v }
/-- Put cache. -/
def Dev.setCache (d : Dev) (v : Tbl CacheEnt) : Dev := { d with cache := v }
/-- Put lines. -/
def Dev.setLines (d : Dev) (v : Tbl (List (Nat × Nat))) : Dev := { d with lines := v }
/-- Put mem. -/
def Dev.setMem (d : Dev) (v : List Host.Cell) : Dev := { d with mem := v }
/-- Put bad. -/
def Dev.setBad (d : Dev) (v : List Nat) : Dev := { d with bad := v }
/-- Put memFaults. -/
def Dev.setMemFaults (d : Dev) (v : List MemFault) : Dev := { d with memFaults := v }
/-- Put cores. -/
def Dev.setCores (d : Dev) (v : Tbl Core) : Dev := { d with cores := v }
/-- Put fields. -/
def Dev.setFields (d : Dev) (v : Tbl Field) : Dev := { d with fields := v }
/-- Put saves. -/
def Dev.setSaves (d : Dev) (v : List SaveRec) : Dev := { d with saves := v }
/-- Put startup. -/
def Dev.setStartup (d : Dev) (v : Startup) : Dev := { d with startup := v }
/-- Put units. -/
def Dev.setUnits (d : Dev) (v : Tbl RasUnit) : Dev := { d with units := v }
/-- Put silt. -/
def Dev.setSilt (d : Dev) (v : Silt) : Dev := { d with silt := v }
/-- Put lkk. -/
def Dev.setLkk (d : Dev) (v : Lkk) : Dev := { d with lkk := v }
/-- Put flumes. -/
def Dev.setFlumes (d : Dev) (v : Tbl Flume) : Dev := { d with flumes := v }
/-- Put divs. -/
def Dev.setDivs (d : Dev) (v : Tbl Diversion) : Dev := { d with divs := v }
/-- Put divPins. -/
def Dev.setDivPins (d : Dev) (v : List DivPin) : Dev := { d with divPins := v }
/-- Put claims. -/
def Dev.setClaims (d : Dev) (v : List Claim) : Dev := { d with claims := v }
/-- Put steps. -/
def Dev.setSteps (d : Dev) (v : List StepOrd) : Dev := { d with steps := v }
/-- Put parts. -/
def Dev.setParts (d : Dev) (v : List Part) : Dev := { d with parts := v }
/-- Put cis. -/
def Dev.setCis (d : Dev) (v : Tbl Cistern) : Dev := { d with cis := v }
/-- Put gauges. -/
def Dev.setGauges (d : Dev) (v : Tbl Gauge) : Dev := { d with gauges := v }
/-- Put gaugeReports. -/
def Dev.setGaugeReports (d : Dev) (v : List Nat) : Dev := { d with gaugeReports := v }
/-- Put cfls. -/
def Dev.setCfls (d : Dev) (v : Tbl Cfl) : Dev := { d with cfls := v }
/-- Put cflElems. -/
def Dev.setCflElems (d : Dev) (v : List Nat) : Dev := { d with cflElems := v }
/-- Put sec. -/
def Dev.setSec (d : Dev) (v : Sec) : Dev := { d with sec := v }
/-- Put power. -/
def Dev.setPower (d : Dev) (v : Power) : Dev := { d with power := v }
/-- Put wakes. -/
def Dev.setWakes (d : Dev) (v : Tbl Nat) : Dev := { d with wakes := v }
/-- Put serves. -/
def Dev.setServes (d : Dev) (v : Tbl Serve) : Dev := { d with serves := v }
/-- Put tenants. -/
def Dev.setTenants (d : Dev) (v : Tbl Tenant) : Dev := { d with tenants := v }
/-- Put reqs. -/
def Dev.setReqs (d : Dev) (v : List Req) : Dev := { d with reqs := v }
/-- Put nextReq. -/
def Dev.setNextReq (d : Dev) (v : Nat) : Dev := { d with nextReq := v }
/-- Put ofts. -/
def Dev.setOfts (d : Dev) (v : List OftVer) : Dev := { d with ofts := v }
/-- Put oftInsts. -/
def Dev.setOftInsts (d : Dev) (v : List OftInst) : Dev := { d with oftInsts := v }
/-- Put oftTimes. -/
def Dev.setOftTimes (d : Dev) (v : Tbl Nat) : Dev := { d with oftTimes := v }

/-- The machine: the commands that wait, first in, first out, and the device. -/
structure State where
  pending : List Instr
  dev : Dev
deriving DecidableEq, Repr

/-- The machine right after a cold reset: no command waits. -/
def State.reset : State := { pending := [], dev := Dev.reset }

/-- Why the model stops: for no reason. Every command has an effect, or none, and the machine goes on; an uncorrectable
error, a violation or a fault that the spec names is an effect on the state. -/
inductive Fault where
deriving DecidableEq, Repr

/-- Why the model has no meaning for a command. -/
inductive Refusal where
  /-- An arm of the dispatch whose meaning has not been written. Safe: the model stops. -/
  | notModelled (mnemonic : String)
deriving DecidableEq, Repr

end Sys2Proof.Machine
end

