-- ==== Sys2Proof/Machine/Ops.lean ====
section
/-!
DEFINITION. The named operations that the commands share: registers, units, time marks (00 R15), error records
(14 R333), interrupts (14 R334), the Silt record (17 R404) and memory by device address (11 R255).
-/
namespace Sys2Proof.Machine

/-! ### Registers -/

/-- The value of copy i of a register field. -/
def Dev.reg (d : Dev) (r : Reg) (i : Nat) : Nat :=
  (Tbl.get (BitVec.ofNat 64 (r.resetOf i)) d.regs (r.key i)).toNat

/-- Put a value into copy i of a register field. -/
def Dev.putReg (d : Dev) (r : Reg) (i v : Nat) : Dev :=
  d.setRegs (Tbl.set (BitVec.ofNat 64 (r.resetOf i)) d.regs (r.key i) (BitVec.ofNat 64 (v % 2 ^ r.info.width)))

/-! ### Units -/

def Dev.core (d : Dev) (i : Nat) : Core := Tbl.get Core.init d.cores i
def Dev.putCore (d : Dev) (i : Nat) (c : Core) : Dev := d.setCores (Tbl.set Core.init d.cores i c)
def Dev.modCore (d : Dev) (i : Nat) (f : Core → Core) : Dev := d.putCore i (f (d.core i))

def Dev.field (d : Dev) (i : Nat) : Field := Tbl.get Field.init d.fields i
def Dev.putField (d : Dev) (i : Nat) (c : Field) : Dev := d.setFields (Tbl.set Field.init d.fields i c)
def Dev.modField (d : Dev) (i : Nat) (f : Field → Field) : Dev := d.putField i (f (d.field i))

def Dev.ctx (d : Dev) (i : Nat) : Ctx := Tbl.get Ctx.init d.ctxs i
def Dev.putCtx (d : Dev) (i : Nat) (c : Ctx) : Dev := d.setCtxs (Tbl.set Ctx.init d.ctxs i c)
def Dev.modCtx (d : Dev) (i : Nat) (f : Ctx → Ctx) : Dev := d.putCtx i (f (d.ctx i))

def Dev.dist (d : Dev) (i : Nat) : Dist := Tbl.get Dist.init d.dists i
def Dev.putDist (d : Dev) (i : Nat) (c : Dist) : Dev := d.setDists (Tbl.set Dist.init d.dists i c)
def Dev.modDist (d : Dev) (i : Nat) (f : Dist → Dist) : Dev := d.putDist i (f (d.dist i))

def Dev.gate (d : Dev) (i : Nat) : Gate := Tbl.get Gate.init d.gates i
def Dev.putGate (d : Dev) (i : Nat) (g : Gate) : Dev := d.setGates (Tbl.set Gate.init d.gates i g)

def ringKey (fn pair : Nat) : Nat := fn * 64 + pair
def Dev.ring (d : Dev) (fn pair : Nat) : Ring := Tbl.get Ring.init d.rings (ringKey fn pair)
def Dev.putRing (d : Dev) (fn pair : Nat) (r : Ring) : Dev := d.setRings (Tbl.set Ring.init d.rings (ringKey fn pair) r)
def Dev.modRing (d : Dev) (fn pair : Nat) (f : Ring → Ring) : Dev := d.putRing fn pair (f (d.ring fn pair))

def Dev.err (d : Dev) (fn : Nat) : ErrRing := Tbl.get ErrRing.init d.errs fn
def Dev.putErr (d : Dev) (fn : Nat) (e : ErrRing) : Dev := d.setErrs (Tbl.set ErrRing.init d.errs fn e)

def Dev.memDev (d : Dev) (i : Nat) : MemDev := Tbl.get MemDev.init d.devs i
def Dev.putMemDev (d : Dev) (i : Nat) (m : MemDev) : Dev := d.setDevs (Tbl.set MemDev.init d.devs i m)

def Dev.cxlPort (d : Dev) (i : Nat) : CxlPort := Tbl.get CxlPort.init d.cxl i
def Dev.putCxlPort (d : Dev) (i : Nat) (m : CxlPort) : Dev := d.setCxl (Tbl.set CxlPort.init d.cxl i m)

def Dev.entry (d : Dev) (i : Nat) : CacheEnt := Tbl.get CacheEnt.init d.cache i
def Dev.putEntry (d : Dev) (i : Nat) (m : CacheEnt) : Dev := d.setCache (Tbl.set CacheEnt.init d.cache i m)

/-- Unit kinds (17 Table 17-8). -/
def kField : Nat := 1
def kCore : Nat := 2
def kDevice : Nat := 3
def kCxl : Nat := 4
def kHeadgate : Nat := 5
def kAqueduct : Nat := 6
def kUncore : Nat := 7
def kPcie : Nat := 8

def unitKey (kind u : Nat) : Nat := kind * 65536 + u
def Dev.unit (d : Dev) (kind u : Nat) : RasUnit := Tbl.get RasUnit.init d.units (unitKey kind u)
def Dev.putUnit (d : Dev) (kind u : Nat) (x : RasUnit) : Dev :=
  d.setUnits (Tbl.set RasUnit.init d.units (unitKey kind u) x)

/-- The unit takes no work: it is fenced, or under a return test (17 R386). -/
def Dev.fenced (d : Dev) (kind u : Nat) : Bool :=
  match (d.unit kind u).state with
  | .fenced => true | .testing => true | .available => false | .fencePending => false

/-- A Sluice's binding at a cold reset (14 R336, Table 14-9). -/
def sluiceReset (s : Nat) : Sluice :=
  let b (x y : Nat) : Sluice := { Sluice.unbound with sender := x, receiver := y }
  if s < 1024 then b s (0x500 + s / 128)
  else if s = 1024 then b 0x400 0x600
  else if s = 1025 then b 0x401 0x600
  else if s = 1026 then b 0x400 0x500
  else if s = 1027 then b 0x401 0x506
  else if s < 1036 then b (0x500 + (s - 1028)) 0x600
  else Sluice.unbound

def Dev.sluice (d : Dev) (i : Nat) : Sluice := Tbl.get (sluiceReset i) d.sluices i
def Dev.putSluice (d : Dev) (i : Nat) (x : Sluice) : Dev := d.setSluices (Tbl.set (sluiceReset i) d.sluices i x)

/-- GEN_STATE reads READY. -/
def Dev.ready (d : Dev) : Bool := d.startup.gen == .ready
/-- The device is in Dry (17 R397). -/
def Dev.dry (d : Dev) : Bool := d.startup.gen == .dry
/-- The device is frozen (17 R396). -/
def Dev.frozen (d : Dev) : Bool := d.time.frozenAt.isSome

/-! ### Functions (14 R321, R299) -/

/-- The physical function of a port. -/
def pf (port : Nat) : Nat := 1024 + port
def isPf (fn : Nat) : Bool := fn == 1024 || fn == 1025
/-- The port of a function: virtual function v serves tenant v on port A and 512 + v on port B. -/
def portOf (fn : Nat) : Nat := if fn ≥ 1024 then fn - 1024 else fn / 512
/-- Master identity of a function (14 R336). -/
def masterOf (fn : Nat) : Nat := if isPf fn then 0x400 + (fn - 1024) else fn

/-! ### Source identifiers (16 Table 16-7) -/

def srcTime : Nat := 0x0000
def srcCore (i : Nat) : Nat := 0x1000 + i
def srcSteward (f : Nat) : Nat := 0x1100 + f
def srcHeadgate (h : Nat) : Nat := 0x1200 + h
def srcLkk : Nat := 0x1300
def srcWeir : Nat := 0x1301
def srcSec : Nat := 0x1302
def srcAllot : Nat := 0x1303
def srcFlume (n : Nat) : Nat := 0x1400 + n
def srcCfl (n : Nat) : Nat := 0x1410 + n
def srcDiv (n : Nat) : Nat := 0x1420 + n
def srcGauge (n : Nat) : Nat := 0x1430 + n
def srcMem (k : Nat) : Nat := 0x1500 + k
def srcCxl (n : Nat) : Nat := 0x1540 + n
def srcDma (t : Nat) : Nat := 0x1550 + t
def srcGate (t : Nat) : Nat := 0x1560 + t
def srcRing (port : Nat) : Nat := 0x1570 + port
def srcPower : Nat := 0x1580

/-! ### Time (16 R373 to R376) -/

/-- One nanosecond of the oscillator in the units of the counter's fraction. -/
def fracUnit : Nat := 1024 * 10 ^ 9

/-- Add fraction units to a counter and its fraction. -/
def addFrac (c f u : Nat) : Nat × Nat := (c + (f + u) / fracUnit, (f + u) % fracUnit)

/-- Fraction units that t oscillator nanoseconds add at the slew in force. -/
def slewUnits (slew : Int) (t : Nat) : Nat := (((10 ^ 9 : Int) + slew) * 1024 * (t : Int)).toNat

/-- The counter after t oscillator nanoseconds (R375, R376): while a backward step is held, the counter runs at
1/1,024 of its rate and the true time at the full rate, until they meet. -/
def Time.tick (x : Time) (t : Nat) : Time :=
  let u := slewUnits x.slew t
  match x.hold with
  | none => let (c, f) := addFrac x.cnt x.frac u; { x with osc := x.osc + t, cnt := c, frac := f }
  | some (tc, tf) =>
    let (c, f) := addFrac x.cnt x.frac (u / 1024)
    let (tc', tf') := addFrac tc tf u
    if c < tc' ∨ (c = tc' ∧ f ≤ tf') then
      { x with osc := x.osc + t, cnt := max x.cnt tc', frac := tf', hold := none }
    else { x with osc := x.osc + t, cnt := c, frac := f, hold := some (tc', tf') }

/-- Let time run to an oscillator instant; an instant that has passed leaves the time base alone. -/
def Dev.advance (d : Dev) (at_ : Nat) : Dev :=
  if d.time.osc < at_ then d.setTime (d.time.tick (at_ - d.time.osc)) else d

/-- Nanoseconds that limits and deadlines count: the oscillator's, less those of every freeze (17 R396). -/
def Dev.eff (d : Dev) : Nat :=
  (match d.time.frozenAt with | none => d.time.osc | some t => t) - d.time.frozenTotal

/-- The next time mark of a source: the counter, or the nanosecond after its last mark (00 R15). -/
def Dev.nextMark (d : Dev) (src : Nat) : Nat := max d.time.cnt (Tbl.get 0 d.time.marks src)

/-- Record that a source has issued a mark. -/
def Dev.issue (d : Dev) (src m : Nat) : Dev :=
  d.setTime { d.time with marks := Tbl.set 0 d.time.marks src (m + 1) }

/-- A time mark of a source, issued (00 R15). -/
def Dev.mark (d : Dev) (src : Nat) : Nat × Dev := (d.nextMark src, d.issue src (d.nextMark src))

/-! ### Outputs -/

def Dev.emit (d : Dev) (e : OutEvent) : Dev := d.setOut (e :: d.out)

/-- Write bytes to host memory through a port. -/
def Dev.hostWrite (d : Dev) (port addr : Nat) (bs : Bytes) : Dev := d.emit (.hostWrite port addr bs)

/-- An entry of a function's MSI-X table (14 R321). -/
def Dev.msixEnt (d : Dev) (fn v : Nat) : MsixEnt := Tbl.get MsixEnt.init d.msix (2048 * fn + v)
def Dev.putMsix (d : Dev) (fn v : Nat) (x : MsixEnt) : Dev := d.setMsix (Tbl.set MsixEnt.init d.msix (2048 * fn + v) x)

/-- Fire an MSI-X vector (14 R334): one that is masked stays pending (R335). -/
def Dev.fire (d : Dev) (fn vector : Nat) : Dev :=
  let x := d.msixEnt fn vector
  if x.masked then d.putMsix fn vector { x with pending := true } else d.emit (.msix fn vector)

/-- Vectors of a function (14 Table 14-1). -/
def vectorsOf (fn : Nat) : Nat := if isPf fn then 2048 else 64

/-- Where the MSI-X table of BAR4 stands among the offsets that a register access names: behind BAR0 (log entry 109). -/
def msixAt (fn : Nat) : Nat := if isPf fn then 0x4000000 else 0x10000

/-- A word of a function's MSI-X table is written: an entry's address, its data, or its mask bit, whose clearing sends a
vector that is pending (14 R335). The pending bits take no write. -/
def Dev.msixWrite (d : Dev) (fn o v : Nat) : Dev :=
  let n := o / 16
  let x := d.msixEnt fn n
  if vectorsOf fn ≤ n then d
  else if o % 16 = 0 then d.putMsix fn n { x with addr := x.addr / 2 ^ 32 * 2 ^ 32 + v % 2 ^ 32 }
  else if o % 16 = 4 then d.putMsix fn n { x with addr := x.addr % 2 ^ 32 + 2 ^ 32 * (v % 2 ^ 32) }
  else if o % 16 = 8 then d.putMsix fn n { x with data := v % 2 ^ 32 }
  else if v % 2 = 1 then d.putMsix fn n { x with masked := true }
  else
    let d := d.putMsix fn n { x with masked := false, pending := false }
    if x.masked && x.pending then d.fire fn n else d

/-- A word of BAR4 as it reads: the table, and behind it the pending bits. -/
def Dev.msixRead (d : Dev) (fn o : Nat) : Nat :=
  let n := o / 16
  let p := o - 16 * vectorsOf fn
  let x := d.msixEnt fn n
  if n < vectorsOf fn then
    (if o % 16 = 0 then x.addr % 2 ^ 32 else if o % 16 = 4 then x.addr / 2 ^ 32
      else if o % 16 = 8 then x.data else if x.masked then 1 else 0)
  else if p < vectorsOf fn / 8 then
    (List.range 32).foldl (fun m j => if (d.msixEnt fn (8 * p + j)).pending then m + 2 ^ j else m) 0
  else 0

/-- DONE of a management command sets and vector 0 fires (14 Table 14-8). -/
def Dev.mgmtDone (d : Dev) (fn : Nat) (r : Reg) (i : Nat) : Dev := (d.putReg r i 1).fire fn 0

/-! ### Error records (14 R333) -/

/-- What an error record says (14 Table 14-7). -/
structure ErrRec where
  status : Nat
  /-- Context 0 to 1,039, or 0xFFFF for none. -/
  ctx : Nat
  source : Nat
  mark : Nat
  count : Nat
  tag : Nat
  detail : List Nat
deriving DecidableEq, Repr

/-- The 64 bytes of an error record (14 Table 14-7). -/
def ErrRec.bytes (r : ErrRec) (phase copy : Bool) (lost : Nat) : Bytes :=
  le 2 r.status ++ le 1 (b2n phase + 2 * b2n copy) ++ le 1 0 ++ le 2 r.ctx ++ le 2 r.source ++ le 8 r.mark ++
  le 4 r.count ++ le 4 r.tag ++ (List.range 4).flatMap (fun k => le 8 (nth 0 r.detail k)) ++ le 4 lost ++ le 4 0

/-- PHASE of record j of a ring (14 R331). -/
def phaseOf (j entries : Nat) : Bool := (j / entries + 1) % 2 == 1

/-- Write a record to a function's error ring, or drop and count it (14 R333). -/
def Dev.errTo (d : Dev) (fn : Nat) (copy : Bool) (r : ErrRec) : Dev :=
  let e := d.err fn
  let n := 2 ^ d.reg .hifErrLog2 fn
  if d.reg .hifErrEnable fn = 1 ∧ w32 (e.head + 2 ^ 32 - d.reg .hifErrTail fn) < n then
    ((d.hostWrite (portOf fn) (64 * d.reg .hifErrBase fn + 64 * (e.head % n))
        (r.bytes (phaseOf e.head n) copy e.lostSince)).putErr fn
      { e with head := w32 (e.head + 1), lostSince := 0 }).fire fn 1
  else d.putErr fn { e with lost := sat32 (e.lost + 1), lostSince := sat32 (e.lostSince + 1) }

/-- Route a record: a tenant context's to its virtual function with a copy to its port's physical function, any other
to both physical functions (14 R333). -/
def Dev.record (d : Dev) (r : ErrRec) : Dev :=
  if r.ctx < 1024 then (d.errTo r.ctx false r).errTo (pf (portOf r.ctx)) true r
  else (d.errTo 1024 false r).errTo 1025 false r

/-- A record of a code by a source, marked at this instant. -/
def Dev.raise (d : Dev) (src ctx status tag : Nat) (detail : List Nat) : Dev :=
  let (m, d) := d.mark src
  d.record { status, ctx, source := src, mark := m, count := 1, tag, detail }

/-! ### The Silt record (17 R404, R405) -/

/-- Put one entry into the ring. -/
def Dev.siltPut (d : Dev) (e : SiltEnt) : Dev :=
  d.setSilt { d.silt with
    next := d.silt.next + 1
    ring := Tbl.set none d.silt.ring (d.silt.next % 8192) (some { e with seq := w32 d.silt.next }) }

/-- The entries of the ring, oldest first. -/
def Silt.entries (s : Silt) : List SiltEnt :=
  let n := min s.next 8192
  (List.range n).filterMap fun k => Tbl.get none s.ring ((s.next - n + k) % 8192)

/-- Ask for a copy of the record to flash: it holds every entry up to now (17 R405). -/
def Dev.siltCopy (d : Dev) (cause : Nat) : Dev :=
  let c : FlashCopy := { mark := d.time.cnt, seq := w32 (d.silt.next - 1), cause := cause, ents := d.silt.entries }
  d.setSilt { d.silt with copying := d.silt.copying ++ [c] }

/-- The entries for which the device sends a PLDM state event: FENCED, RETURNED, LKK_FAIL and HG_RESTART (17 R401). -/
def eventSent (event : Nat) : Bool := event == 0x0013 || event == 0x0014 || event == 0x0020 || event == 0x0023

/-- A PLDM event to the event receiver, where one is set (17 R401). -/
def Dev.pldmEvent (d : Dev) (event value : Nat) : Dev :=
  if d.lkk.receiver.isSome then d.emit (.pldmEvent event value) else d

/-- Write a Silt entry of a source; a fatal one sets FATAL and RAS_FATAL and starts a copy (17 R385, R404, R405). -/
def Dev.siltAt (d : Dev) (src event status kind unit ctx detail : Nat) (fatal : Bool) : Dev :=
  let (m, d) := d.mark src
  let d := d.siltPut { mark := m, seq := 0, source := src, event, status, kind, flags := b2n fatal, unit, ctx,
                       detail := w64 detail }
  let d := if eventSent event then d.pldmEvent event detail else d
  if fatal then (d.putReg .rasFatal 0 event).siltCopy event else d

/-- Write a Silt entry. -/
def Dev.siltEv (d : Dev) (src event status kind unit detail : Nat) : Dev :=
  d.siltAt src event status kind unit 0xFFFF detail false

/-- Write a Silt entry with one continuation, which carries the head entry's mark and source (17 R404). -/
def Dev.silt2 (d : Dev) (src event x y : Nat) : Dev :=
  let (m, d) := d.mark src
  let e : SiltEnt := { mark := m, seq := 0, source := src, event, status := 0, kind := 0, flags := 0, unit := 0,
                       ctx := 0xFFFF, detail := w64 x }
  (d.siltPut e).siltPut { e with flags := 2, detail := w64 y }

/-! ### Memory by device physical address (11 R255) -/

/-- The one form of a memory: addresses rise strictly, and no listed byte is what an unlisted address reads as. -/
def Memory.wf (m : Tbl Byte) : Bool := Tbl.wf 0 m

/-- One byte of memory; a byte that nothing has written reads 0. -/
def Dev.byte (d : Dev) (a : Nat) : Byte := Tbl.get 0 d.mem a

/-- n bytes from an address on. -/
def Dev.read (d : Dev) (a n : Nat) : Bytes := (List.range n).map fun i => d.byte (a + i)

/-- The little-endian number in n bytes at an address. -/
def Dev.readLe (d : Dev) (a n : Nat) : Nat := ofLe (d.read a n)

/-- A write over a whole 64-byte burst gives it a code of its own again (DESIGN CHOICE, log entry 114). -/
def Dev.mend (d : Dev) (a n : Nat) : Dev := d.setBad (d.bad.filter fun b => !decide (a ≤ b ∧ b + 64 ≤ a + n))

/-- Write bytes from an address on. -/
def Dev.write (d : Dev) (a : Nat) (bs : Bytes) : Dev := (d.mend a bs.length).setMem (Tbl.setRun 0 d.mem a bs)

/-- Write zeros over n bytes from an address on. -/
def Dev.scrub (d : Dev) (a n : Nat) : Dev :=
  (d.mend a n).setMem (Tbl.dropIf (fun k => decide (a ≤ k ∧ k < a + n)) d.mem)

/-- Global address of local byte 0 of a core's pond (01 R19). -/
def pondBase (i : Nat) : Nat := 0xF10000000000 + i * 0x400000

/-- A Runnel core (01 R19: positions 12 to 15). -/
def isRunnel (i : Nat) : Bool := decide (i % 16 ≥ 12)

/-- Bytes of a core's backed pond (04 R88). -/
def pondSize (i : Nat) : Nat := if isRunnel i then 0x180000 else 0x300000

/-- Draw a free value's index (the model's own counter). -/
def Dev.draw (d : Dev) : Nat × Dev := (d.draws, d.setDraws (d.draws + 1))

/-- The wake of a clock domain is counted (16 Table 16-6). -/
def Dev.wake (d : Dev) (dom : Nat) : Dev := d.setWakes (Tbl.set 0 d.wakes dom (sat32 (Tbl.get 0 d.wakes dom + 1)))

/-! ### Districts and tenants -/

/-- The committed entry of a district that is not absent. -/
def Dev.ent? (d : Dev) (k : Nat) : Option DistEnt :=
  if (d.dist k).state = .absent then none else (d.dist k).ent

/-- The committed TENANT_MAP entry of a tenant. -/
def Dev.tenant (d : Dev) (t : Nat) : TenantEnt :=
  match d.survey.committed with
  | none => TenantEnt.none
  | some i => Tbl.get TenantEnt.none i.tenants t

/-- The district of a context (13 R299): TENANT_MAP's for a tenant, its own for a system context. -/
def Dev.districtOf (d : Dev) (c : Nat) : Option Nat :=
  if c < 1024 then
    let k := (d.tenant c).district
    if k < 16 ∧ (d.dist k).state ≠ .absent then some k else none
  else if c < 1040 then (if (d.dist (c - 1024)).state ≠ .absent then some (c - 1024) else none)
  else none

/-- The role of a district: 1 TRAIN, 2 SERVE, 0 absent. -/
def Dev.role (d : Dev) (k : Nat) : Nat := match d.ent? k with | none => 0 | some e => e.role

/-- A TRAIN district. -/
def Dev.isTrain (d : Dev) (k : Nat) : Bool := d.role k == 1
/-- A SERVE district. -/
def Dev.isServe (d : Dev) (k : Nat) : Bool := d.role k == 2

/-- The other Headgate of a terrace: h XOR 1 (17 R394). -/
def partner (h : Nat) : Nat := if h % 2 = 0 then h + 1 else h - 1

/-- The Headgate that serves a context, or its partner while it is fenced: tenant t's is t div 128; a system context's the first of the terrace of its
district's lowest field (DESIGN CHOICE, log entry 12). -/
def Dev.headgateOf (d : Dev) (c : Nat) : Nat :=
  let h :=
    if c < 1024 then c / 128
    else match bitsOf (d.dist (c - 1024)).fields 16 with
      | [] => 0
      | f :: _ => 2 * (f / 4)
  if d.fenced kHeadgate h then partner h else h

/-- The fields that belong to a district, in ascending number. -/
def Dev.fieldsOf (d : Dev) (k : Nat) : List Nat := bitsOf (d.dist k).fields 16

/-! ### The step's outcome -/

/-- A command of a device in Dry does nothing (17 R397); elsewhere it has its effect on everything but the queue. A
command that names a unit the device does not have reaches none of its units, and changes nothing (DESIGN CHOICE, log
entry 115). -/
@[inline] def live (i : Instr) (s : State) (f : Dev → Dev) : Host.Outcome State Fault Refusal :=
  if i.wf then .next { s with dev := if s.dev.dry then s.dev else f s.dev } else .next s

/-- A command that Dry does not stop. -/
@[inline] def always (i : Instr) (s : State) (f : Dev → Dev) : Host.Outcome State Fault Refusal :=
  if i.wf then .next { s with dev := f s.dev } else .next s

/-- A function whose port answers Configuration Request Retry Status: writes to its BARs are discarded (16 R380). -/
def Dev.deaf (d : Dev) (fn : Nat) : Bool := (nth Port.init d.ports (portOf fn)).retry

/-- A write of the host to a function's BARs. -/
@[inline] def hosted (fn : Nat) (i : Instr) (s : State) (f : Dev → Dev) : Host.Outcome State Fault Refusal :=
  live i s fun d => if d.deaf fn then d else f d

end Sys2Proof.Machine
end

