-- ==== Sys2Proof/Machine/MemOps.lean ====
section
/-!
DEFINITION. Places in memory: the interleave of a district (11 R258), its regions and general pool (R260, R266), the
shares of the Reservoir (R268), translation (R265) and reads and writes of a context.
-/
namespace Sys2Proof.Machine

def mib : Nat := 0x100000
def gib : Nat := 0x40000000
/-- Bytes of a home range (11 Table 11-1). -/
def homeBytes : Nat := 0xF80000000
def chunkBytes : Nat := 0x200000
def sinkBase : Nat := 0x01F000000000
def sinkBytes : Nat := 0x100000000
def cxlBase : Nat := 0x100000000000
def cxlPortBytes : Nat := 0x40000000000
def resBase : Nat := 0xF00000000000
def sliceBytes : Nat := 0xA000000
def pondsBase : Nat := 0xF10000000000
def pondSlot : Nat := 0x400000
/-- The views of the two physical functions' control registers (R255): 64 MiB each. -/
def controlBase : Nat := 0xFF0000000000
def controlBytes : Nat := 0x4000000

/-! ### The interleave (R258) -/

/-- Position of an element in a list. -/
def posOf (x : Nat) : List Nat → Nat
  | [] => 0
  | y :: r => if x = y then 0 else posOf x r + 1

/-- Where an address stands: device, offset on the device, half, offset in the half. -/
def locate (a : Nat) (set : List Nat) : Nat × Nat × Nat × Nat :=
  let n := set.length
  let k := posOf (a / homeBytes) set
  let x := k * homeBytes + a % homeBytes
  let c := x / chunkBytes
  let off := (c / n) * chunkBytes + x % chunkBytes
  (nth 0 set (c % n), off, (x / 256) % 2, (off / 512) * 256 + off % 256)

/-- The district whose interleave set holds a device. -/
def Dev.districtOfDev (d : Dev) (x : Nat) : Option Nat :=
  (List.range 16).find? fun k => (d.dist k).state != .absent && (d.dist k).devices.contains x

/-- A device of a set that the set has lost: it has been fenced, and rejoins at the next commit (R262, 17 R388). -/
def Dev.lost (d : Dev) (x : Nat) : Bool :=
  match (d.memDev x).state with | .active => false | .migrating => false | _ => true

/-- An address on a GDDR7 device that its district's set has lost: a hole (R262). -/
def Dev.hole (d : Dev) (k a : Nat) : Bool := d.lost (locate a (d.dist k).devices).1

/-! ### Ranges -/

/-- A range without another. -/
def cut1 (r u : Nat × Nat) : List (Nat × Nat) :=
  if overlap r.1 r.2 u.1 u.2 then
    (if r.1 < u.1 then [(r.1, u.1 - r.1)] else []) ++
    (if u.1 + u.2 < r.1 + r.2 then [(u.1 + u.2, r.1 + r.2 - (u.1 + u.2))] else [])
  else [r]

/-- Ranges without a list of others. -/
def cutAll (rs us : List (Nat × Nat)) : List (Nat × Nat) := us.foldl (fun rs u => rs.flatMap fun r => cut1 r u) rs

/-- Runs of consecutive home ranges of a set in ascending order (R260). -/
def homeRuns (set : List Nat) : List (Nat × Nat) :=
  (set.foldl (fun (acc : List (Nat × Nat)) h => match acc with
    | (a, n) :: r => if a + n = h * homeBytes then (a, n + homeBytes) :: r else (h * homeBytes, homeBytes) :: acc
    | [] => [(h * homeBytes, homeBytes)]) []).reverse

/-- The ranges of a district that its general pool leaves out: staging area, spill region, save area (R260, R309). -/
def Dist.reserved (x : Dist) : List (Nat × Nat) :=
  [(x.stagingBase, x.stagingGib * gib), (x.spillBase, x.spillGib * gib), (x.saveBase, x.saveBytes)]

/-- The general pool of a district (R260). -/
def Dist.pool (x : Dist) : List (Nat × Nat) := cutAll (homeRuns x.devices) x.reserved

/-- Contexts of a district that hold mappings. -/
def Dev.ctxsOf (d : Dev) (k : Nat) : List Nat :=
  (d.ctxs.map Prod.fst).filter fun c => d.districtOf c == some k

/-- Device ranges that the mappings and the translation tables of a district's contexts use (R265). -/
def Dev.mapped (d : Dev) (k : Nat) : List (Nat × Nat) :=
  (d.ctxsOf k).flatMap fun c => ((d.ctx c).maps.map fun m => (m.phys, m.bytes)) ++ (d.ctx c).tables

/-- Entries of a district that stand in GDDR7, or are being loaded there. -/
def Dev.placed (d : Dev) (k : Nat) (staging : Bool) : List (Nat × CacheEnt) :=
  d.cache.filter fun (_, e) => e.live && e.district == k &&
    match e.state with
    | .backed => false
    | .loading => e.toStaging == staging && e.home != 0
    | .resident => !staging
    | .staged => staging

/-- Where the Offtake versions of a district stand, and those being installed (10 R250). -/
def Dev.oftPlaces (d : Dev) (k : Nat) : List (Nat × Nat) :=
  ((d.ofts ++ d.oftInsts.map fun x => x.ver).filter fun v => v.district == k).flatMap fun v => v.place

/-- Frames of the general pool in use. -/
def Dev.used (d : Dev) (k : Nat) : List (Nat × Nat) :=
  d.mapped k ++ ((d.placed k false).map fun (_, e) => (e.home, e.bytes)) ++ d.oftPlaces k

/-- The holes of a range (R262). -/
def Dev.holesIn (d : Dev) (k : Nat) (r : Nat × Nat) : List (Nat × Nat) :=
  if (d.dist k).devices.any d.lost then
    ((List.range (ceilDiv (r.1 % chunkBytes + r.2) chunkBytes)).map fun i =>
      (r.1 / chunkBytes * chunkBytes + i * chunkBytes, chunkBytes)).filter fun c => d.hole k c.1
  else []

/-- A range holds a byte in a hole (R262). -/
def Dev.holed (d : Dev) (k : Nat) (r : Nat × Nat) : Bool := !(d.holesIn k r).isEmpty

/-- The parts of a range that hold no hole (R262). -/
def Dev.sound (d : Dev) (k : Nat) (r : Nat × Nat) : List (Nat × Nat) := cutAll [r] (d.holesIn k r)

/-- Free runs of the general pool, lowest first: no hole lies in one (R262). -/
def Dev.freeRuns (d : Dev) (k : Nat) : List (Nat × Nat) :=
  (sortBy Prod.fst (cutAll (d.dist k).pool (d.used k))).flatMap (d.sound k)

/-- Take frames of a page size from free runs, lowest first: the pieces, and the bytes still missing. -/
def takeFrames (page : Nat) : Nat → List (Nat × Nat) → List (Nat × Nat) × Nat
  | need, [] => ([], need)
  | need, (a, n) :: r =>
    let s := roundUp a page
    let have_ := (a + n - s) / page * page
    let t := min need have_
    if t = 0 then takeFrames page need r
    else let (l, m) := takeFrames page (need - t) r; ((s, t) :: l, m)

/-- Frames for n bytes of a page size in district k (R266; which frames is a DESIGN CHOICE, log entry 20). -/
def Dev.frames (d : Dev) (k page n : Nat) : List (Nat × Nat) × Nat := takeFrames page n (d.freeRuns k)

/-- The lowest-addressed fit of n bytes in runs (R278). -/
def fit (n : Nat) (runs : List (Nat × Nat)) : Option Nat :=
  ((sortBy Prod.fst runs).find? fun r => decide (n ≤ r.2)).map Prod.fst

/-! ### Reservoir shares (R268, R130) -/

/-- The part of slice t: its offset and its length. 0 cache, 1 Flume buffer, 2 Cistern, 3 Confluence, 4 scratch. -/
def PlanEnt.part (p : PlanEnt) (i : Nat) : Nat × Nat :=
  let l := [p.cacheMib, p.flumeMib, p.cisternMib, p.conflMib, p.scratchMib]
  (sumNat (l.take i) * mib, nth 0 l i * mib)

/-- The committed plan of terrace t. -/
def Dev.plan (d : Dev) (t : Nat) : PlanEnt :=
  match d.survey.committed with
  | none => PlanEnt.none
  | some i => nth PlanEnt.none i.plan t

/-- A district's own share of part i of slice t, in units of that part's measure. -/
def DistEnt.share (e : DistEnt) (i t : Nat) : Nat :=
  let onT := decide (fld e.fieldMask (4 * t) 4 ≠ 0)
  if i = 1 then e.flumeShare
  else if i = 3 then e.conflShare
  else if i = 2 then (if onT then e.cisternResMib else 0)
  else if i = 4 then (if onT then e.scratchMib else 0)
  else 0

/-- Device range of district k's share of part i of slice t: Cistern and scratch in MiB, the Flume buffer and the
Confluence working space in sixty-fourths, each behind the shares of lower-numbered districts. -/
def Dev.shareOf (d : Dev) (k i t : Nat) : Nat × Nat :=
  let (off, len) := (d.plan t).part i
  let unit := if i = 1 ∨ i = 3 then len / 64 else mib
  let units (j : Nat) := match d.ent? j with | none => 0 | some e => e.share i t
  (resBase + t * sliceBytes + off + sumNat ((List.range k).map units) * unit, units k * unit)

/-- The shares of a district: Cistern, Confluence working space, scratch, and Flume buffer. -/
def Dev.shares (d : Dev) (k : Nat) : List (Nat × Nat) :=
  (List.range 4).flatMap fun t => [1, 2, 3, 4].map fun i => d.shareOf k i t

def inRange (a : Nat) (r : Nat × Nat) : Bool := decide (r.1 ≤ a ∧ a < r.1 + r.2)

/-! ### Reaching memory -/

/-- The region of an address (Table 11-1). -/
inductive Region where
  | gddr (h : Nat) | sink (k : Nat) | cxl (n : Nat) | reservoir (t : Nat) | pond (i : Nat) | control (port : Nat) | none
deriving DecidableEq, Repr

def regionOf (a : Nat) : Region :=
  if a < sinkBase then .gddr (a / homeBytes)
  else if a < sinkBase + 16 * sinkBytes then .sink ((a - sinkBase) / sinkBytes)
  else if cxlBase ≤ a ∧ a < cxlBase + 4 * cxlPortBytes then .cxl ((a - cxlBase) / cxlPortBytes)
  else if resBase ≤ a ∧ a < resBase + 4 * sliceBytes then .reservoir ((a - resBase) / sliceBytes)
  else if pondsBase ≤ a ∧ a < pondsBase + 256 * pondSlot then .pond ((a - pondsBase) / pondSlot)
  else if controlBase ≤ a ∧ a < controlBase + 2 * controlBytes then .control ((a - controlBase) / controlBytes)
  else .none

/-- A device of the port backs the window address (R272). -/
def Dev.cxlBacked (d : Dev) (n a : Nat) : Bool :=
  (d.cxlPort n).devs.any fun m => inRange a (cxlBase + n * cxlPortBytes + m.baseGib * gib, m.sizeGib * gib)

/-- A CXL window address lies in a district's CXL ranges (02 Table 02-3, R28). -/
def Dev.ownCxl (d : Dev) (k a : Nat) : Bool :=
  match d.ent? k with
  | none => false
  | some e => e.cxl.any fun r => inRange a (cxlBase + r.1 * gib, r.2 * gib)

/-- The fault of an access of district k to a device address, 0 for none (R256, R262, R268, R273). Memory of another
district answers as memory that the district does not have (01 R28, R29; DEDUCED, log entry 113); no mapping leads to the
control registers. -/
def Dev.physCheck (d : Dev) (k a : Nat) : Nat :=
  match regionOf a with
  | .gddr h => match d.districtOfDev h with
    | none => 0x0327
    | some j => if j ≠ k then 0x0327 else if d.hole j a then 0x0326 else 0
  | .sink j => if j = k then 0 else 0x0327
  | .cxl n =>
    if (d.cxlPort n).state = .fenced then 0x0325 else if d.cxlBacked n a && d.ownCxl k a then 0 else 0x0327
  | .reservoir _ => if (d.shares k).any (inRange a) then 0 else 0x0327
  | .pond i => if (a - pondsBase) % pondSlot < pondSize i then 0 else 0x0327
  | .control _ => 0x0320
  | .none => 0x0327

/-- The fixed mappings of district k (R265): device range and whether it may be written. -/
def Dev.fixedMaps (d : Dev) (k : Nat) : List ((Nat × Nat) × Bool) :=
  let x := d.dist k
  let ents := d.cache.filter fun (_, e) => e.live && e.district == k
  (ents.flatMap fun (_, e) =>
      (match e.state with
        | .resident => [((e.home, e.bytes), false)] | .staged => [((e.home, e.bytes), false)] | _ => []) ++
      (if e.backing = 1 then [((e.backAddr, e.bytes), false)] else [])) ++
    [((x.spillBase, x.spillGib * gib), true), ((sinkBase + k * sinkBytes, sinkBytes), true)] ++
    (d.shares k).map fun r => (r, true)

/-- The parcel pool of a SERVE district (09 R220). -/
def Dev.parcelPool (d : Dev) (k : Nat) : Nat × Nat :=
  (4096 * d.reg .intParcelBase k, d.reg .intParcelCount k * d.reg .intParcelStride k)

/-- A parcel of a district's pool. -/
def Dev.parcel (d : Dev) (k i : Nat) : Nat × Nat :=
  (4096 * d.reg .intParcelBase k + i * d.reg .intParcelStride k, d.reg .intParcelStride k)

/-- The rows in the row tables of the serving programs that district k's stewards run (09 R220). -/
def Dev.servRows (d : Dev) (k : Nat) : List ServRow :=
  (List.range 16).flatMap fun f => (d.field f).slots.flatMap fun p => match p with
    | some p => if p.ctx = 1024 + k then p.table else []
    | none => []

/-- The parcels that the serving context of a district reaches: those of its programs' row tables. -/
def Dev.servParcels (d : Dev) (k : Nat) : List ((Nat × Nat) × Bool) :=
  (d.servRows k).flatMap fun r => r.parcels.map fun i => (d.parcel k i, true)

/-- Translate one address of a context: the device address and the bytes that follow it in the same mapping, or the
fault (R265, R268). -/
def Dev.translate (d : Dev) (c va : Nat) (write : Bool) : Except Nat (Nat × Nat) :=
  match (d.ctx c).maps.find? fun m => inRange va (m.va, m.bytes) with
  | some m => if write && !m.write then .error 0x0321 else .ok (m.phys + (va - m.va), m.va + m.bytes - va)
  | none =>
    match d.districtOf c with
    | none => .error 0x0320
    | some k =>
      let fixed := d.fixedMaps k ++ (if c = 1024 + k ∧ d.isServe k then d.servParcels k else [])
      match fixed.find? fun f => inRange va f.1 with
      | some f => if write && !f.2 then .error 0x0321 else .ok (va, f.1.1 + f.1.2 - va)
      | none => match regionOf va with
        | .reservoir _ => .error 0x0327
        | _ => .error 0x0320

/-- The device pieces of a range of a context, each within one mapping and one 2 MiB chunk, or the first fault. -/
def Dev.pieces (d : Dev) (c : Nat) (write : Bool) : Nat → Nat → Nat → Except Nat (List (Nat × Nat))
  | 0, _, _ => .ok []
  | fuel + 1, va, n =>
    if n = 0 then .ok [] else
    match d.translate c va write with
    | .error e => .error e
    | .ok (p, room) =>
      let e := d.physCheck ((d.districtOf c).getD 16) p
      if e ≠ 0 then .error e else
      let t := max 1 (min n (min room (chunkBytes - p % chunkBytes)))
      match d.pieces c write fuel (va + t) (n - t) with
      | .error e => .error e
      | .ok l => .ok ((p, t) :: l)

/-- A range of a context, or the first fault met. -/
def Dev.range (d : Dev) (c va n : Nat) (write : Bool) : Except Nat (List (Nat × Nat)) := d.pieces c write n va n

/-- The whole range is the context's to read or write. -/
def Dev.rangeOk (d : Dev) (c va n : Nat) (write : Bool) : Bool :=
  match d.range c va n write with | .ok _ => true | .error _ => false

/-- Bytes at a device address: a sink reads as zero (06 R154). -/
def Dev.readDev (d : Dev) (a n : Nat) : Bytes :=
  match regionOf a with | .sink _ => zeros n | _ => d.read a n

/-- Bytes written at a device address: a sink discards them (06 R154). -/
def Dev.writeDev (d : Dev) (a : Nat) (bs : Bytes) : Dev :=
  match regionOf a with | .sink _ => d | _ => d.write a bs

/-- Bytes over pieces. -/
def Dev.readPieces (d : Dev) (l : List (Nat × Nat)) : Bytes := l.flatMap fun (a, n) => d.readDev a n

def Dev.writePieces (d : Dev) : List (Nat × Nat) → Bytes → Dev
  | [], _ => d
  | (a, n) :: r, bs => (d.writeDev a (bs.take n)).writePieces r (bs.drop n)

/-! ### The Reservoir cache (R269) -/

/-- The slice whose cache part serves a device address, the district that looks up, and the set of the address. -/
def Dev.cacheSet (d : Dev) (a : Nat) : Option (Nat × Nat × Nat) :=
  let at_ (t k : Nat) : Option (Nat × Nat × Nat) :=
    let sets := (d.plan t).cacheMib * mib / 16 / 128
    if sets = 0 then none else some (t, k, (a / 128) % sets)
  match regionOf a with
  | .gddr h => match d.districtOfDev h with
    | none => none
    | some k => at_ ((locate a (d.dist k).devices).1 / 8) k
  | .cxl n => match (List.range 16).find? fun k => match d.ent? k with
      | none => false
      | some e => e.cxl.any fun (b, s) => inRange a (cxlBase + b * gib, s * gib) with
    | none => none
    | some k => at_ n k
  | _ => none

/-- The way of a set that a line of a district takes: its own, a free one of the district's, or the least recently
used of them. Lines stand most recent first. -/
def cacheTouch (ways : Nat) (ls : List (Nat × Nat)) (tag : Nat) (alloc : Bool) : List (Nat × Nat) :=
  match ls.find? fun l => l.2 == tag with
  | some l => l :: ls.filter fun m => m.2 != tag
  | none =>
    if !alloc then ls else
    let mine := bitsOf ways 16
    match mine.find? fun w => ls.all fun l => l.1 != w with
    | some w => (w, tag) :: ls
    | none => match (ls.filter fun l => mine.contains l.1).getLast? with
      | none => ls
      | some v => (v.1, tag) :: ls.filter fun m => m != v

/-- One line looked up, and allocated unless the access is a private port's (R259, R269). -/
def Dev.touchLine (d : Dev) (a : Nat) (alloc : Bool) : Dev :=
  match d.cacheSet a with
  | none => d
  | some (t, k, set) =>
    let ways := match d.ent? k with | none => 0 | some e => fld e.wayMask (16 * t) 16
    let key := t * 0x100000 + set
    d.setLines (Tbl.set [] d.lines key (cacheTouch ways (Tbl.get [] d.lines key) (a / 128) alloc))

/-- The lines of a piece. -/
def Dev.touch (d : Dev) (p : Nat × Nat) (alloc : Bool) : Dev :=
  (List.range (ceilDiv (p.1 % 128 + p.2) 128)).foldl (fun d i => d.touchLine (p.1 / 128 * 128 + 128 * i) alloc) d

/-- Traffic wakes the channel of a device from self-refresh (16 R371). -/
def Dev.unrefresh (d : Dev) (x : Nat) : Dev :=
  if (d.memDev x).refresh then (d.putMemDev x { d.memDev x with refresh := false }).wake (18 + x) else d

/-! ### Routes (12 R284) -/

/-- The terraces of the route from a to b, both ends included. -/
def route (a b : Nat) : List Nat :=
  if a = b then [a]
  else if (a = 1 ∧ b = 2) ∨ (a = 2 ∧ b = 1) then [a, 0, b]
  else if (a = 0 ∧ b = 3) ∨ (a = 3 ∧ b = 0) then [a, 1, b]
  else [a, b]

/-- The Aqueduct between two terraces it joins. -/
def aqueductOf (a b : Nat) : Nat :=
  let (x, y) := if a < b then (a, b) else (b, a)
  if x = 0 ∧ y = 1 then 0 else if x = 1 then 1 else if x = 2 then 2 else 3

/-- n bytes pass along a route: each terrace's Canal and each Aqueduct counts them (12 Table 12-8). -/
def Canal.pass (c : Canal) (n : Nat) : List Nat → Canal
  | a :: b :: r =>
    let q := aqueductOf a b
    let add (l : List Nat) (i : Nat) : List Nat := l.set i (min (nth 0 l i + n) (2 ^ 64 - 1))
    let c := { c with terBytes := add c.terBytes a }
    (if a < b then { c with aqUp := add c.aqUp q } else { c with aqDown := add c.aqDown q }).pass n (b :: r)
  | [a] => { c with terBytes := c.terBytes.set a (min (nth 0 c.terBytes a + n) (2 ^ 64 - 1)) }
  | [] => c

/-- The terrace that an address of device memory is reached on; none for a sink. -/
def Dev.terraceOf (d : Dev) (a : Nat) : Option Nat :=
  match regionOf a with
  | .gddr h => match d.districtOfDev h with
    | none => some (h / 8)
    | some k => some ((locate a (d.dist k).devices).1 / 8)
  | .sink _ => none
  | .cxl n => some n
  | .reservoir t => some t
  | .pond i => some (i / 64)
  | .control _ => none
  | .none => none

/-- A piece of memory moves between its terrace and an engine's (12 R284). -/
def Dev.canalPiece (d : Dev) (engine : Nat) (p : Nat × Nat) (write : Bool) : Dev :=
  match d.terraceOf p.1 with
  | none => d
  | some t => d.setCanal (d.canal.pass p.2 (if write then route engine t else route t engine))

/-! ### Accesses -/

/-- Who reaches memory: the terrace of the engine or unit, the core whose private port it may use, and the program or
order that a fault of the access ends. -/
structure Accessor where
  terrace : Nat
  core : Option Nat
  prog : Option (Nat × Nat)
  order : Option OrderId
deriving DecidableEq, Repr

/-- The DMA engine of a core. -/
def coreAcc (i : Nat) : Accessor := { terrace := i / 64, core := some i, prog := none, order := none }

/-- An engine or unit of a terrace, at work for no program or order. -/
def unitAcc (t : Nat) : Accessor := { terrace := t, core := none, prog := none, order := none }

/-- A unit of a terrace at work for a program of a field's slot. -/
def progAcc (t f s : Nat) : Accessor := { terrace := t, core := none, prog := some (f, s), order := none }

/-- A unit of a terrace at work for an order. -/
def orderAcc (t : Nat) (o : OrderId) : Accessor := { terrace := t, core := none, prog := none, order := some o }

/-- A Headgate's accesses for a context (01 R21: Headgate h is on terrace h div 2). -/
def Dev.hgAcc (d : Dev) (c : Nat) : Accessor := unitAcc (d.headgateOf c / 2)

/-- The half-device of a Runnel core's private port (01 R20): the device and the half. -/
def portHalf (i : Nat) : Nat × Nat := (2 * (i / 16) + (i % 16 - 12) / 2, (i % 16 - 12) % 2)

/-- An access of a core to an address goes by its private port (R259): the address stands in the core's own half-device,
whose device belongs to the core's district and is not fenced (01 R24). -/
def Dev.viaPort (d : Dev) (w : Accessor) (a : Nat) : Bool :=
  match w.core, regionOf a with
  | some i, .gddr h => isRunnel i && match d.districtOfDev h with
    | none => false
    | some k =>
      let l := locate a (d.dist k).devices
      (d.field (i / 16)).district == some k && (l.1, l.2.2.1) == portHalf i && !d.lost l.1
  | _, _ => false

/-- The parts of a piece that lie in one 256-byte unit of the interleave each (R258). -/
def unitsOf (p : Nat × Nat) : List (Nat × Nat) :=
  (List.range (ceilDiv (p.1 % 256 + p.2) 256)).map fun j =>
    let b := p.1 / 256 * 256 + 256 * j
    (max p.1 b, min (p.1 + p.2) (b + 256) - max p.1 b)

/-- Traffic of a piece: cache lines, the Canal's bytes, the wake of its device, and the byte counters of a CXL port
(Table 11-9). What goes by a private port allocates no line and passes no Canal (R259, R269). -/
def Dev.traffic (d : Dev) (w : Accessor) (p : Nat × Nat) (write : Bool) : Dev :=
  let parts := if w.core.any isRunnel then unitsOf p else [p]
  let d := parts.foldl (fun d q =>
    if d.viaPort w q.1 then d.touch q false else (d.touch q true).canalPiece w.terrace q write) d
  match regionOf p.1 with
  | .gddr h => match d.districtOfDev h with
    | none => d
    | some k => d.unrefresh (locate p.1 (d.dist k).devices).1
  | .cxl n =>
    let x := d.cxlPort n
    d.putCxlPort n (if write then { x with writeBytes := min (x.writeBytes + p.2) (2 ^ 64 - 1) }
      else { x with readBytes := min (x.readBytes + p.2) (2 ^ 64 - 1) })
  | _ => d

/-- Traffic of pieces. -/
def Dev.trafficAll (d : Dev) (w : Accessor) (l : List (Nat × Nat)) (write : Bool) : Dev :=
  l.foldl (fun d p => d.traffic w p write) d

/-- The first location of pieces whose error no code corrects (R263, 17 R382). -/
def Dev.badIn (d : Dev) (l : List (Nat × Nat)) : Option Nat :=
  d.bad.find? fun b => l.any fun p => overlap p.1 p.2 b 64

/-- The code of an uncorrectable error at a device address (Table 11-7, 17 Table 17-1). -/
def eccCode (a : Nat) : Nat := match regionOf a with | .reservoir _ => 0x0323 | .pond _ => 0x0345 | _ => 0x0322

/-- The program for which an engine or unit works. -/
def Dev.progFor (d : Dev) (w : Accessor) : Option Prog :=
  match w.prog with
  | some (f, s) => nth none (d.field f).slots s
  | none => (w.core.bind fun i => (d.core i).inst).bind fun x => nth none (d.field x.field).slots x.slot

/-- The row of a serving program's table whose parcel holds a piece; none where the piece lies in no parcel. -/
def Dev.rowAt (d : Dev) (p : Prog) (q : Nat × Nat) : Option ServRow :=
  p.table.find? fun r => r.parcels.any fun i => inRange q.1 (d.parcel p.district i)

/-- A program of a serving context reaches the parcels of its own row table alone (09 R220). -/
def Dev.rowsOk (d : Dev) (w : Accessor) (c : Nat) (l : List (Nat × Nat)) : Bool :=
  c < 1024 || match d.progFor w with
    | none => true
    | some p => l.all fun q => !overlap q.1 q.2 (d.parcelPool p.district).1 (d.parcelPool p.district).2 || (d.rowAt p q).isSome

/-- A piece lies in a parcel whose row the program has masked: nothing is written there any more (09 R234). -/
def Dev.rowMasked (d : Dev) (w : Accessor) (c : Nat) (q : Nat × Nat) : Bool :=
  decide (1024 ≤ c) && match d.progFor w with
    | none => false
    | some p => (d.rowAt p q).any fun r => r.masked

/-- Bytes over the pieces of a context's range, but for masked rows. -/
def Dev.putPieces (d : Dev) (w : Accessor) (c : Nat) : List (Nat × Nat) → Bytes → Dev
  | [], _ => d
  | (a, n) :: r, bs => (if d.rowMasked w c (a, n) then d else d.writeDev a (bs.take n)).putPieces w c r (bs.drop n)

/-- Read a context's memory: the bytes, or the fault. -/
def Dev.readCtx (d : Dev) (w : Accessor) (c va n : Nat) : Except Nat (Bytes × Dev) :=
  match d.range c va n false with
  | .error e => .error e
  | .ok l =>
    if !d.rowsOk w c l then .error 0x0320 else
    match d.badIn l with
    | some b => .error (eccCode b)
    | none => .ok (d.readPieces l, d.trafficAll w l false)

/-- Write a context's memory: the device, or the fault with nothing written. -/
def Dev.writeCtx (d : Dev) (w : Accessor) (c va : Nat) (bs : Bytes) : Except Nat Dev :=
  match d.range c va bs.length true with
  | .error e => .error e
  | .ok l => if !d.rowsOk w c l then .error 0x0320 else .ok ((d.trafficAll w l true).putPieces w c l bs)

/-- An access of a unit for a context has failed: the fault is taken when the command ends (Machine/RasOps.lean), and the
first of a context stands. -/
def Dev.noteFault (d : Dev) (w : Accessor) (c code : Nat) (addr : Option Nat) : Dev :=
  if d.memFaults.any fun f => f.ctx == c then d
  else d.setMemFaults (d.memFaults ++ [{ ctx := c, code, prog := w.prog, order := w.order, addr }])

/-- Write a context's memory for a unit; an access that fails writes nothing, nor does one after it (R265). -/
def Dev.storeCtx (d : Dev) (w : Accessor) (c va : Nat) (bs : Bytes) : Dev :=
  if d.memFaults.any fun f => f.ctx == c then d else
  match d.writeCtx w c va bs with | .ok d => d | .error e => d.noteFault w c e none

/-- Write a context's memory as work is given up: an access that fails writes nothing, and ends nothing more. -/
def Dev.storeQuiet (d : Dev) (w : Accessor) (c va : Nat) (bs : Bytes) : Dev :=
  match d.writeCtx w c va bs with | .ok d => d | .error _ => d

/-- Bytes of a context's memory; zeros where it has none, which a fault keeps from every use. -/
def Dev.loadCtx (d : Dev) (c va n : Nat) : Bytes :=
  match d.range c va n false with | .ok l => d.readPieces l | .error _ => zeros n

/-- The location in a range of a context whose error no code corrects. -/
def Dev.badAt (d : Dev) (c va n : Nat) : Option Nat :=
  match d.range c va n false with | .ok l => d.badIn l | .error _ => none

/-- What reading a context's memory for a unit does: its traffic, or its fault (R265). -/
def Dev.reads (d : Dev) (w : Accessor) (c va n : Nat) : Dev :=
  match d.readCtx w c va n with | .ok (_, d) => d | .error e => d.noteFault w c e (d.badAt c va n)

/-- Bytes of a context's memory read for a unit. -/
def Dev.fetchCtx (d : Dev) (w : Accessor) (c va n : Nat) : Bytes × Dev := (d.loadCtx c va n, d.reads w c va n)

/-- The parts of a range that lie in one 2 MiB chunk each. -/
def chunksOf (a n : Nat) : List (Nat × Nat) :=
  (List.range (ceilDiv (a % chunkBytes + n) chunkBytes)).map fun j =>
    let b := a / chunkBytes * chunkBytes + chunkBytes * j
    (max a b, min (a + n) (b + chunkBytes) - max a b)

/-- Bytes at a device address read by a unit that reaches it without translation. -/
def Dev.fetchDev (d : Dev) (w : Accessor) (a n : Nat) : Bytes × Dev :=
  (d.readDev a n, d.trafficAll w (chunksOf a n) false)

/-- What reading a device range for a context does: its traffic, or the fault of an error in it (17 Table 17-1). -/
def Dev.readsDev (d : Dev) (w : Accessor) (c a n : Nat) : Dev :=
  match d.badIn [(a, n)] with
  | some b => d.noteFault w c (eccCode b) (some b)
  | none => d.trafficAll w (chunksOf a n) false

/-- Bytes written at a device address by a unit that reaches it without translation. -/
def Dev.storeDev (d : Dev) (w : Accessor) (a : Nat) (bs : Bytes) : Dev :=
  (d.trafficAll w (chunksOf a bs.length) true).writeDev a bs

/-! ### Translation tables (R265) -/

/-- How many numbers lie in at least one of a list of ranges. -/
def unionSize (l : List (Nat × Nat)) : Nat :=
  (l.foldl (fun (acc : List (Nat × Nat) × Nat) r =>
    (r :: acc.1, acc.2 + sumNat ((cutAll [r] acc.1).map Prod.snd))) ([], 0)).2

/-- The table entries of one size that mappings touch, as a range of entry numbers. -/
def Mapping.entries (m : Mapping) (size : Nat) : Nat × Nat :=
  (m.va / size, (m.va + m.bytes - 1) / size - m.va / size + 1)

/-- 4 KiB tables of a context with mappings: the root, and one for each 512 GiB, 1 GiB and 2 MiB that a walk to a leaf
passes through (four levels of 512 entries). -/
def tableCount (maps : List Mapping) : Nat :=
  let l := maps.filter fun m => m.bytes != 0
  if l.isEmpty then 0 else
    1 + unionSize (l.map fun m => m.entries (512 * gib)) +
      unionSize ((l.filter fun m => decide (m.page < gib)).map fun m => m.entries gib) +
      unionSize ((l.filter fun m => decide (m.page < chunkBytes)).map fun m => m.entries chunkBytes)

/-- The first n bytes of a list of ranges. -/
def takeBytes : Nat → List (Nat × Nat) → List (Nat × Nat)
  | _, [] => []
  | n, (a, m) :: r => if n = 0 then [] else (a, min n m) :: takeBytes (n - m) r

/-- Put the mappings of a context of district k: its tables take frames of the general pool, or give back those they no
longer need. None where the pool lacks a frame. -/
def Dev.remap (d : Dev) (k c : Nat) (maps : List Mapping) : Option Dev :=
  let need := 4096 * tableCount maps
  let old := (d.ctx c).tables
  let have_ := sumNat (old.map Prod.snd)
  let d := d.modCtx c fun x => { x with maps }
  if need ≤ have_ then some (d.modCtx c fun x => { x with tables := takeBytes need old })
  else
    let (fr, lack) := d.frames k 4096 (need - have_)
    if lack ≠ 0 then none
    else some ((fr.foldl (fun d r => d.scrub r.1 r.2) d).modCtx c fun x => { x with tables := old ++ fr })

/-- The tables of a context of district k are built anew in frames without holes, as far as the pool has them. -/
def Dev.retable (d : Dev) (k c : Nat) : Dev :=
  let d := d.modCtx c fun x => { x with tables := [] }
  let fr := (d.frames k 4096 (4096 * tableCount (d.ctx c).maps)).1
  (fr.foldl (fun d r => d.scrub r.1 r.2) d).modCtx c fun x => { x with tables := fr }

end Sys2Proof.Machine
end

