-- ==== Sys2Proof/Machine/GateOps.lean ====
section
/-!
DEFINITION. Gates and the waits at them (12 R293 to R296).
-/
namespace Sys2Proof.Machine

/-- A condition of Table 12-4. -/
def condHolds (cond g v : Nat) : Bool :=
  if cond = 0 then decide (g ≥ v)
  else if cond = 1 then decide (g = v)
  else if cond = 2 then decide (g ≠ v)
  else if cond = 3 then decide (g < v)
  else if cond = 4 then decide ((g % 2 ^ 32 + 2 ^ 32 - v % 2 ^ 32) % 2 ^ 32 < 2 ^ 31)
  else false

/-- COND is defined (Table 12-4). -/
def condOk (cond : Nat) : Bool := decide (cond ≤ 4)

def gateCount : Nat := 16384
def noHolder : Nat := 0x7FF

/-- A context holds a Gate (R295). -/
def Dev.holds (d : Dev) (c g : Nat) : Bool := decide (g < gateCount) && (d.gate g).holder == c

/-- Release every wait at a Gate whose condition holds with its value (R294). -/
def Dev.releaseWaits (d : Dev) (g v : Nat) : Dev :=
  d.setWaits (d.waits.map fun w => if w.gate = g ∧ condHolds w.cond v w.operand then { w with released := true } else w)

/-- A signal: a Gate takes a value, with the time mark of this instant and the source (R293). -/
def Dev.signalTo (d : Dev) (g v src : Nat) : Dev :=
  let (m, d) := d.mark src
  (d.putGate g { d.gate g with value := BitVec.ofNat 64 v, mark := m, source := src }).releaseWaits g (v % 2 ^ 64)

/-- Add to a Gate modulo 2⁶⁴ (R293). -/
def Dev.signal (d : Dev) (g v src : Nat) : Dev := d.signalTo g ((d.gate g).value.toNat + v) src

/-- Start a wait: its first test releases it if its condition holds (R294). -/
def Dev.startWait (d : Dev) (who : Waiter) (ctx g cond v : Nat) : Dev :=
  d.setWaits (d.waits ++ [{ who, ctx, gate := g, cond, operand := v,
                             released := condHolds cond (d.gate g).value.toNat v }])

/-- The wait of a waiter. -/
def Dev.waitOf (d : Dev) (who : Waiter) : Option GateWait := d.waits.find? fun w => w.who == who

/-- Take waits away. -/
def Dev.dropWaits (d : Dev) (p : GateWait → Bool) : Dev := d.setWaits (d.waits.filter fun w => !p w)

/-- Waits of a waiter end. -/
def Dev.endWait (d : Dev) (who : Waiter) : Dev := d.dropWaits fun w => w.who == who

/-- Gates that an instance's descriptors in flight name (R296). -/
def Inst.gates (i : Inst) : List Nat :=
  i.tags.flatMap fun (_, t) => match t with
    | none => []
    | some t => (if bit t.desc.flags 0 then [t.desc.gateWait] else []) ++
        (if bit t.desc.flags 1 then [t.desc.gateSig] else [])

/-- Gates that unit jobs and live requests name (R296, 09 R235); a GATE_END of 0 names none (09 Table 09-2). -/
def Dev.unitGates (d : Dev) : List Nat :=
  (d.flumes.flatMap fun (_, x) => x.jobs.flatMap fun (_, j) =>
      if j.state = .free then [] else [j.desc.gateIn, j.desc.gateDone]) ++
    (d.divs.flatMap fun (_, x) => x.jobs.flatMap fun (_, j) => match j with
      | none => []
      | some j => if j.desc.op = 1 then [j.desc.gateReady] else []) ++
    (d.cfls.flatMap fun (_, x) =>
      ((match x.round.state with | .admitting => x.round.set | .reducing => x.round.set | _ => []) ++ x.folds ++ x.held ++
        (match x.round.state with | .awaitFinal => x.round.parts | _ => [])).map fun c => c.gate) ++
    (d.reqs.map fun r => r.desc.gateEnd).filter fun g => g != 0

/-- Gates that an order not completed names, as its wait or its signal. -/
def Order.gates (o : Order) (noWait : Bool) : List Nat :=
  (if bit o.flags 0 && !noWait then [o.waitGate] else []) ++ (if bit o.flags 1 then [o.sigGate] else [])

/-- A Gate is in use (Table 12-5, FREE): a waiter, an uncompleted order, a descriptor or a unit job names it. The FREE
order's own WAIT_GATE does not count. -/
def Dev.gateBusy (d : Dev) (self : OrderId) (g : Nat) : Bool :=
  (d.waits.any fun w => w.gate == g && !w.released) ||
  (d.orders.any fun o => (o.gates (o.id == self)).contains g) ||
  (d.cores.any fun (_, x) => (x.inst.toList ++ x.held.toList ++ x.restoring.toList).any fun i => i.gates.contains g) ||
  (d.saves.any fun r => r.inst.gates.contains g) ||
  d.unitGates.contains g

/-- Free a Gate: released, and set to 0 (Table 12-5). -/
def Dev.freeGate (d : Dev) (g : Nat) : Dev := d.putGate g Gate.init

/-- Gates of a context. -/
def Dev.gatesOf (d : Dev) (c : Nat) : List Nat := (d.gates.filter fun (_, g) => g.holder == c).map Prod.fst

/-- A Gate lies in a pool that a context may hold Gates of (R295). -/
def Dev.mayHold (d : Dev) (c g : Nat) : Bool :=
  match d.districtOf c with
  | none => false
  | some k =>
    let own := match d.ent? k with
      | none => false
      | some e => inRange g (e.gateFirst, e.gateCount)
    decide (g < gateCount) && (own || (decide (1024 ≤ c) && decide (g < 256)))

end Sys2Proof.Machine
end

