-- ==== Sys2Proof/Machine/OrderOps.lean ====
section
/-!
DEFINITION. Orders as they stand between their fetch and their completion (14 R324 to R332).
-/
namespace Sys2Proof.Machine

/-- Order opcodes (14 Table 14-4). -/
def opDma : Nat := 0x01
def opGate : Nat := 0x02
def opMemory : Nat := 0x03
def opCache : Nat := 0x04
def opTrain : Nat := 0x10
def opConfluence : Nat := 0x11
def opRun : Nat := 0x12
def opRequest : Nat := 0x20
def opCancel : Nat := 0x21
def opInstall : Nat := 0x22
def opRemove : Nat := 0x23

/-- A status of class 0x00 or 0x06 (00 Table 00-6). -/
def signals (status : Nat) : Bool := status / 256 == 0 || status / 256 == 6

def Dev.order? (d : Dev) (o : OrderId) : Option Order := d.orders.find? fun x => x.id == o

/-- Change an order. -/
def Dev.modOrder (d : Dev) (o : OrderId) (f : Order → Order) : Dev :=
  d.setOrders (d.orders.map fun x => if x.id = o then f x else x)

/-- End an order: it waits for its completion record (R330). -/
def Dev.endOrder (d : Dev) (o : OrderId) (status source : Nat) (noop : Bool) : Dev :=
  d.modOrder o fun x => if x.phase = .ended then x else { x with phase := .ended, status, source, noop }

/-- End an order with DONE. -/
def Dev.doneOrder (d : Dev) (o : OrderId) (source : Nat) : Dev := d.endOrder o 0 source false

/-- End an order with a refusal or a fault code. -/
def Dev.failOrder (d : Dev) (o : OrderId) (status source : Nat) : Dev := d.endOrder o status source false

/-- Its handler works on an order. -/
def Dev.runOrder (d : Dev) (o : OrderId) : Dev := d.modOrder o fun x => { x with phase := .running }

/-- Source of the Headgate that handles a context's orders. -/
def Dev.hgSource (d : Dev) (c : Nat) : Nat := srcHeadgate (d.headgateOf c)

/-- Orders of one ring, in ring order. -/
def Dev.ringOrders (d : Dev) (fn pair : Nat) : List Order :=
  d.orders.filter fun x => x.id.fn == fn && x.id.pair == pair && !x.orphan

/-- The order of a ring that comes next for dispatch. -/
def Dev.front (d : Dev) (fn pair : Nat) : Option Order :=
  (d.ringOrders fn pair).find? fun x => x.phase == .fetched

/-- The order's Gate wait no longer holds it: it has none, or it has been released. -/
def Dev.waitOver (d : Dev) (o : Order) : Bool :=
  (o.checked && !bit o.flags 0) || o.released || match d.waitOf (.order o.id) with | none => false | some w => w.released

/-- The orders before one on its ring have all completed (FENCE, R329). -/
def Dev.fenceOver (d : Dev) (o : Order) : Bool :=
  !bit o.flags 2 || match d.ringOrders o.id.fn o.id.pair with
    | [] => true
    | x :: _ => x.id == o.id

/-- The Headgate of a context takes work: the device is READY, not frozen, and the Headgate is not held in reset (17
R394, R396). -/
def Dev.hgUp (d : Dev) (c : Nat) : Bool :=
  d.ready && (nth Headgate.init d.lkk.hgs (d.headgateOf c)).state == 0

/-- The order, if its opcode is op, it is dispatched, and its handler has not acted on it. -/
def Dev.taken (d : Dev) (o : OrderId) (op : Nat) : Option Order :=
  match d.order? o with
  | none => none
  | some x => if x.opcode = op ∧ x.phase = .dispatched ∧ d.hgUp x.ctx = true then some x else none

/-- An order that its handler runs. -/
def Dev.runningOrder (d : Dev) (o : OrderId) (op : Nat) : Option Order :=
  match d.order? o with
  | none => none
  | some x => if x.opcode = op ∧ x.phase = .running then some x else none

/-- A context that a function may name (R326). -/
def mayName (fn c : Nat) : Bool :=
  if isPf fn then (decide (1024 ≤ c ∧ c < 1040)) || (decide (c < 1024) && portOf c == fn - 1024) else c == fn

/-- The target context of a MEMORY or GATE body (R326): 0xFFFF is the issuing context; another value only from a
physical function. -/
def bodyCtx (o : Order) (v : Nat) : Option Nat :=
  if v = 0xFFFF then some o.ctx else if isPf o.id.fn && mayName o.id.fn v then some v else none

end Sys2Proof.Machine
end

