-- ==== Sys2Proof/Machine/GaugeOps.lean ====
section
/-!
DEFINITION. What the Gauge does in a step: reports, verdict, close, samples and alarms (07 R174 to R177, R184 to R191).
-/
namespace Sys2Proof.Machine

def Dev.gauge (d : Dev) (k : Nat) : Gauge := Tbl.get Gauge.init d.gauges k
def Dev.putGauge (d : Dev) (k : Nat) (g : Gauge) : Dev := d.setGauges (Tbl.set Gauge.init d.gauges k g)
def Dev.modGauge (d : Dev) (k : Nat) (f : Gauge → Gauge) : Dev := d.putGauge k (f (d.gauge k))

/-- Add 1 to element i of a list of saturating 32-bit counters. -/
def bump (l : List Nat) (i : Nat) : List Nat := l.set i (sat32 (nth 0 l i + 1))

/-- Event 0x0600 + i of a district. -/
def Dev.gaugeEvent (d : Dev) (k i : Nat) : Dev := d.modGauge k fun g => { g with events := bump g.events i }

/-- The instance that speaks for a district: on the terrace of its lowest-numbered field in effect (R174). -/
def Dev.gaugeInst (d : Dev) (k : Nat) : Nat := match d.fieldsOf k with | [] => 0 | f :: _ => f / 4

/-- A TRAIN_STEP order of a district is live: from its dispatch until it completes (06 R423). -/
def Dev.liveTrain (d : Dev) (k : Nat) : Bool :=
  d.orders.any fun o => o.opcode == opTrain && o.dispatched && d.districtOf o.ctx == some k

/-- A report to a Gauge instance (R186): the entry that names the tensor takes it, or event 0x0609. -/
def Dev.gaugeReport (d : Dev) (n k tensor : Nat) (f : Watch → Watch) : Dev :=
  let d := d.setGaugeReports (d.gaugeReports.set n (min (nth 0 d.gaugeReports n + 1) (2 ^ 64 - 1)))
  let g := d.gauge k
  match g.table.findIdx? fun w => w.tensor == tensor with
  | none => d.gaugeEvent k 9
  | some i => d.putGauge k { g with table := g.table.modify i f }

/-- FP32 operations of the verdict keep subnormals (R174). -/
def rne32 (v : Val) : Nat := (finish32 true v).1

/-- The scaling by 2^−ls, rounded. -/
def scaled (c ls : Nat) : Nat := rne32 (Val.scale (-(ls : Int)) (f32 c))

/-- The verdict's values for APPLY: norm, clip and vscale (R174). -/
def verdictValues (normsq ls clipMax : Nat) : Nat × Nat × Nat :=
  let norm := scaled (rne32 (Val.sqrt (f32 normsq))) ls
  let clip := if Val.gt (f32 norm) (f32 clipMax) then rne32 (Val.div (f32 clipMax) (f32 norm)) else 0x3F800000
  (norm, clip, scaled clip ls)

/-- The verdict of a step (R174, R175): reason 0 for none. -/
def Dev.verdict (d : Dev) (k reason normsq ls : Nat) : Dev :=
  let bad := (f32 normsq).isNan || (f32 normsq).isInf
  let why := if reason ≠ 0 then reason else if bad then 0x0600 else 0
  let (m, d) := d.mark (srcGauge (d.gaugeInst k))
  if why = 0 then
    let (n, c, v) := verdictValues normsq ls (d.reg .gauClipMax k)
    d.modGauge k fun g => { g with verdict := 1, reason := 0, norm := n, clip := c, vscale := v, verdictTime := m }
  else
    let div := d.reg .gauDiv k
    let d := d.modGauge k fun g =>
      { g with verdict := 2, reason := why, verdictTime := m, ls := g.ls - div, clean := 0,
               attempt := (g.attempt + 1) % 65536 }
    let d := d.gaugeEvent k (why - 0x0600)
    if ls < div then d.gaugeEvent k 3 else d

/-- The Gauge's part of an epoch advance: ATTEMPT, CLEAN and a raise of LS (R175). -/
def Dev.gaugeAdvance (d : Dev) (k : Nat) : Dev :=
  let g := d.gauge k
  if g.clean + 1 ≥ d.reg .gauRaise k then
    let d := d.putGauge k { g with attempt := 0, clean := 0, ls := if g.ls < 127 then g.ls + 1 else g.ls }
    if g.ls < 127 then d.gaugeEvent k 4 else d
  else d.putGauge k { g with attempt := 0, clean := g.clean + 1 }

/-- WNORM and RATIO of an entry (R187). -/
def Watch.ratio (w : Watch) : Nat × Nat :=
  let sdw := to32 w.sdw
  let sw := to32 w.sw
  let wnorm := rne32 (Val.sqrt (f32 sw))
  let ratio := if (f32 sw).isZero then (if (f32 sdw).isZero then 0 else 0x7F800000)
    else rne32 (Val.div (f32 (rne32 (Val.sqrt (f32 sdw)))) (f32 wnorm))
  (wnorm, ratio)

/-- An entry at a close (R187 to R189): the entry with its streak, its WNORM and RATIO, and its flags. -/
def Watch.close (w : Watch) (verdict dryAt ratioHi perMille : Nat) : Watch × Nat × Nat × Nat :=
  let noUpdate := !w.opt || verdict != 1
  let dry := !noUpdate && w.nz == 0
  let streak := if noUpdate then w.streak else if dry then sat16 (w.streak + 1) else 0
  let (wn, ra) := if noUpdate then (0, 0) else w.ratio
  let dryAlarm := decide (streak ≥ dryAt)
  let ratioAlarm := w.opt && !bit w.flags 0 && ((f32 ra).isNan || Val.gt (f32 ra) (f32 ratioHi))
  let crushAlarm := decide (w.blocks > 0 ∧ w.crushed * 1000 ≥ perMille * w.blocks)
  let fl := b2n dry + 2 * b2n (verdict == 2) + 4 * b2n noUpdate + 8 * b2n dryAlarm + 16 * b2n ratioAlarm
    + 32 * b2n crushAlarm
  ({ w with streak, last := fl }, wn, ra, fl)

/-- The 64 bytes of a sample (Table 07-5). -/
def sampleBytes (w : Watch) (idx step mark wn ra fl ls verdict : Nat) : Bytes :=
  le 4 w.tensor ++ le 2 idx ++ le 2 fl ++ le 8 step ++ le 8 mark ++ le 4 ra ++ le 4 wn ++ le 4 (sat32 w.nonfinite) ++
    le 4 (sat32 w.crushed) ++ le 4 (sat32 w.blocks) ++ le 4 (sat32 w.bumps) ++ le 2 w.streak ++ le 1 ls ++ le 1 verdict ++
    zeros 12

/-- One sample to the ring, or event 0x0608 (R191). -/
def Dev.sample (d : Dev) (k : Nat) (bs : Bytes) : Dev :=
  let g := d.gauge k
  if g.ringEntries = 0 ∨ w32 (g.head + 2 ^ 32 - d.reg .gauRingTail k) = g.ringEntries then d.gaugeEvent k 8
  else (d.storeDev (unitAcc (d.gaugeInst k)) (g.ringAddr + 64 * (g.head % g.ringEntries)) bs).putGauge k { g with head := w32 (g.head + 1) }

/-- The alarm of one kind at a close (R190): bit i of the flags from 3 on, code 0x0605 + i. -/
def Dev.alarm (d : Dev) (k i step mark : Nat) (fls : List Nat) : Dev :=
  let hit := (List.range fls.length).filter fun e => bit (nth 0 fls e) (3 + i)
  match hit with
  | [] => d
  | e :: _ =>
    let d := d.putReg .gauAlarm k ((d.reg .gauAlarm k).lor (2 ^ i))
    let d := d.modGauge k fun g =>
      if i = 0 then { g with dryCount := sat32 (g.dryCount + 1), dryTime := mark, dryEntry := e,
                             dryStreak := match g.table[e]? with | some w => w.streak | none => 0 }
      else if i = 1 then { g with ratioCount := sat32 (g.ratioCount + 1) }
      else { g with crushCount := sat32 (g.crushCount + 1) }
    let d := d.gaugeEvent k (5 + i)
    if bit (d.reg .gauAlarmMask k) i then d
    else
      let d := d.record { status := 0x0605 + i, ctx := 1024 + k, source := srcGauge (d.gaugeInst k), mark,
                          count := 1, tag := 0, detail := [e, hit.length, step] }
      (d.fire 1024 (16 + k)).fire 1025 (16 + k)

/-- A step closes (R187 to R191): verdict 0 none, 1 APPLY, 2 SKIP. -/
def Dev.closeStep (d : Dev) (k step ls verdict : Nat) : Dev :=
  let (m, d) := d.mark (srcGauge (d.gaugeInst k))
  let rows := (d.gauge k).table.map fun w =>
    w.close verdict (d.reg .gauDry k) (d.reg .gauRatioHi k) (d.reg .gauCrush k)
  let fresh (w : Watch) : Watch := { Watch.of w.tensor w.kind w.flags with streak := w.streak, last := w.last }
  let d := d.modGauge k fun g => { g with table := rows.map fun r => fresh r.1 }
  let d := (List.range rows.length).foldl (fun d i => match rows[i]? with
    | some (w, wn, ra, fl) => d.sample k (sampleBytes w i step m wn ra fl ls verdict)
    | none => d) d
  let fls := rows.map fun r => r.2.2.2
  ((d.alarm k 0 step m fls).alarm k 1 step m fls).alarm k 2 step m fls

/-- A step ends without a close: its sums go with it, so that none counts in the next (R186). -/
def Dev.dropSums (d : Dev) (k : Nat) : Dev :=
  d.modGauge k fun g => { g with table := g.table.map fun w =>
    { Watch.of w.tensor w.kind w.flags with streak := w.streak, last := w.last } }

/-- A commit that makes, or leaves, d a TRAIN district (R177). fresh: it was not one just before. -/
def Dev.gaugeCommit (d : Dev) (k : Nat) (e : DistEnt) (fresh reload : Bool) : Dev :=
  let d := ((((d.putReg .gauRaise k e.raiseSteps).putReg .gauDiv k e.scaleDivLog2).putReg .gauDry k e.drySteps).putReg
    .gauCrush k e.crushPerMille).putReg .gauRatioHi k e.ratioHi
  let d := if reload || fresh then d.modGauge k fun g => { g with ls := e.initScaleLog2, clean := 0, attempt := 0 } else d
  if fresh then
    let d := ((((((d.putReg .gauClipMax k 0x7F800000).putReg .gauRingAddr k 0).putReg .gauRingEntries k 0).putReg
      .gauRingTail k 0).putReg .gauAlarm k 0).putReg .gauAlarmMask k 0)
    d.modGauge k fun g => { g with table := [], ringAddr := 0, ringEntries := 0, head := 0 }
  else d

end Sys2Proof.Machine
end

