-- ==== Sys2Proof/Machine/Rand.lean ====
section
/-!
DEFINITION. The random words of stochastic rounding (07 R167 to R169).
-/
namespace Sys2Proof.Machine

/-- Rounds of Philox4x32-10 (R167). -/
def philoxGo : Nat → Nat × Nat × Nat × Nat → Nat × Nat → Nat × Nat × Nat × Nat
  | 0, c, _ => c
  | n + 1, (c0, c1, c2, c3), (k0, k1) =>
    let p0 := 0xD2511F53 * c0
    let p1 := 0xCD9E8D57 * c2
    philoxGo n (((p1 / 2 ^ 32).xor c1).xor k0, p1 % 2 ^ 32, ((p0 / 2 ^ 32).xor c3).xor k1, p0 % 2 ^ 32)
      (w32 (k0 + 0x9E3779B9), w32 (k1 + 0xBB67AE85))

/-- philox(c, k). -/
def philox (c : Nat × Nat × Nat × Nat) (k : Nat × Nat) : Nat × Nat × Nat × Nat := philoxGo 10 c k

/-- What keys the rounding of a program (R169). -/
structure RndKey where
  seed : Nat
  step : Nat
  attempt : Nat
deriving DecidableEq, Repr

/-- The word W of element e of a tensor in a stream (R168). -/
def rndWord (key : RndKey) (stream tensor e : Nat) : Nat :=
  let (w0, w1, w2, w3) := philox
    (stream * 2 ^ 30 + fld e 2 30, w32 tensor, w32 key.step, fld key.attempt 0 16 * 2 ^ 16 + fld key.step 32 16)
    (w32 key.seed, fld key.seed 32 32)
  match e % 4 with | 0 => w0 | 1 => w1 | 2 => w2 | _ => w3

/-- The stochastic rounding of an element: R is bits [31:16] of its word (03 R66). -/
def srOf (key : RndKey) (stream tensor e : Nat) : Rnd := .sr (rndWord key stream tensor (w32 e) / 2 ^ 16)

end Sys2Proof.Machine
end

