-- ==== Sys2Proof/Machine/CflOps.lean ====
section
/-!
DEFINITION. What the Confluence does: acceptance, placement, the exact sum, results and release (08).
-/
namespace Sys2Proof.Machine

def Dev.cfl (d : Dev) (k : Nat) : Cfl := Tbl.get Cfl.init d.cfls k
def Dev.putCfl (d : Dev) (k : Nat) (c : Cfl) : Dev := d.setCfls (Tbl.set Cfl.init d.cfls k c)
def Dev.modCfl (d : Dev) (k : Nat) (f : Cfl → Cfl) : Dev := d.putCfl k (f (d.cfl k))
def Dev.modRound (d : Dev) (k : Nat) (f : Round → Round) : Dev := d.modCfl k fun c => { c with round := f c.round }

/-- Source of a district's Confluence records: the instance on the terrace of its lowest-numbered field. -/
def Dev.cflSrc (d : Dev) (k : Nat) : Nat := srcCfl (d.gaugeInst k)

/-- Count code 0x0610 + i n times. -/
def Dev.cflCount (d : Dev) (k i n : Nat) : Dev :=
  d.modCfl k fun c => { c with events := c.events.set i (sat32 (nth 0 c.events i + n)) }

/-- An error record of a district's Confluence for a related order: it carries the order's TAG, and the order's completion
says so (14 R331, R333). -/
def Dev.cflRecord (d : Dev) (k i ctx mark n tag : Nat) (o : Option OrderId) (detail : List Nat) : Dev :=
  let d := match o with
    | none => d
    | some o => d.modOrder o fun x => { x with records := true }
  d.record { status := i, ctx, source := d.cflSrc k, mark, count := n, tag, detail }

/-- An outcome of a contribution: counted, and one error record with the time mark of the instant (R216). -/
def Dev.cflEvent (d : Dev) (k i : Nat) (c : Contrib) (detail : List Nat) : Dev :=
  let (m, d) := (d.cflCount k i 1).mark (d.cflSrc k)
  d.cflRecord k (0x0610 + i) c.ctx m 1 c.tag (some c.o) detail

/-- TAG of an order that stands. -/
def Dev.orderTag (d : Dev) (o : OrderId) : Nat := match d.order? o with | none => 0 | some x => x.tag

/-- One record of code 0x0610 + i with a count, at a result or a completion, for an order (R216). -/
def Dev.cflSummary (d : Dev) (k i ctx n : Nat) (o : Option OrderId) : Dev :=
  if n = 0 then d else
  let (m, d) := (d.cflCount k i n).mark (d.cflSrc k)
  d.cflRecord k (0x0610 + i) ctx m n (match o with | none => 0 | some o => d.orderTag o) o []

/-- The memory of a contribution is released: its GATE rises by 1 (R205). -/
def Dev.cflRelease (d : Dev) (k : Nat) (c : Contrib) : Dev :=
  if d.holds c.ctx c.gate then d.signal c.gate 1 (d.cflSrc k) else d

def Dev.cflReleaseAll (d : Dev) (k : Nat) (l : List Contrib) : Dev := l.foldl (fun d c => d.cflRelease k c) d

/-- Keys in order: STEP_INDEX, then attempt (R198). -/
def keyLt (a b : Nat × Nat) : Bool := decide (a.1 < b.1) || (a.1 == b.1 && decide (a.2 < b.2))

def Contrib.key (c : Contrib) : Nat × Nat := (c.step, c.attempt)
def Round.key (r : Round) : Nat × Nat := (r.step, r.attempt)

/-! ### Layouts and elements (R201, R208) -/

/-- Byte offset of element o of a layout (Table 08-3). -/
def layoutOff (fmt o : Nat) : Nat :=
  if fmt = 1 then 4 * o else if fmt = 2 then 2 * o else if fmt = 7 then 34 * (o / 32) else 36 * (o / 256)

/-- The sign1 block: 256 elements, +m or −m (R213). -/
def sign1 (b : Bytes) : List Val :=
  let m := f32 (leAt b 0 4)
  (List.range 256).map fun i => if bit (leAt b (4 + i / 8) 1) (i % 8) then Val.neg m else m

/-- The units of a list of bytes. -/
def blocksOf (n : Nat) : Nat → Bytes → List Bytes
  | 0, _ => []
  | k + 1, b => b.take n :: blocksOf n k (b.drop n)

/-- BUMP and OVF of a carrier block (R214). -/
def bumpOf (b : Bytes) : Nat := fld (leAt b 0 2) 9 3
def ovfOf (b : Bytes) : Bool := bit (leAt b 0 2) 12

/-- Bytes of a bucket in a layout at a base. -/
def Dev.layoutBytes (d : Dev) (ctx fmt base : Nat) (b : Bucket) : Bytes :=
  let o := layoutOff fmt b.offset
  d.loadCtx ctx (base + o) (layoutOff fmt (b.offset + b.elements) - o)

/-- The elements of a bucket in a layout, the BUMPs and whether a block has overflowed. -/
def layoutElems (fmt : Nat) (bs : Bytes) (n : Nat) : List Val × Nat × Bool :=
  if fmt = 1 then ((List.range n).map fun i => f32 (leAt bs (4 * i) 4), 0, false)
  else if fmt = 2 then ((List.range n).map fun i => decodeElem .bf16 (leAt bs (2 * i) 2), 0, false)
  else if fmt = 7 then
    let bl := blocksOf 34 (n / 32) bs
    (bl.flatMap fun b => decodeBlk .ifb8 (readBlk .ifb8 b 0), sumNat (bl.map bumpOf), bl.any ovfOf)
  else ((blocksOf 36 (n / 256) bs).flatMap sign1, 0, false)

/-- Above the FP32 largest finite value, an infinity or NaN (R201). -/
def nonFinite (v : Val) : Bool :=
  match v with
  | .nan => true
  | .inf _ => true
  | .fin _ m e => magGt m e (2 ^ 24 - 1) 104

/-- The tag lies in a contribution's range. -/
def Contrib.covers (c : Contrib) (tag : Nat) : Bool := decide (c.firstTag ≤ tag ∧ tag < c.firstTag + c.tagCount)

/-- What a pass finds of one contribution in one bucket. -/
structure Found where
  elems : List Val
  nonfinite : Nat
  bumps : Nat
  ovf : Bool
deriving DecidableEq, Repr

/-- Read a bucket of a contribution; a bucket it does not cover adds +0. -/
def Dev.found (d : Dev) (c : Contrib) (tag : Nat) (b : Bucket) : Found :=
  if c.covers tag then
    let (l, u, o) := layoutElems c.fmt (d.layoutBytes c.ctx c.fmt c.base b) b.elements
    { elems := l, nonfinite := (l.filter nonFinite).length, bumps := u, ovf := o }
  else { elems := List.replicate b.elements (.fin false 0 0), nonfinite := 0, bumps := 0, ovf := false }

/-- The buckets of a table with their tags. -/
def tagged (t : List Bucket) : List (Nat × Bucket) := (List.range t.length).zip t

/-- The tiles of a bucket (R210): each is a bucket of its own elements. -/
def Bucket.tiles (b : Bucket) : List Bucket :=
  (List.range (ceilDiv b.elements 4096)).map fun j =>
    { b with elements := min 4096 (b.elements - 4096 * j), offset := b.offset + 4096 * j, elemBase := b.elemBase + 4096 * j,
             outAddr := b.outAddr + 4096 * j * (if b.outFmt = 1 then 4 else 2) }

/-- What a pass has read of a table: each bucket with the parts of it that were read. -/
abbrev PassRead := List (Nat × Bucket × List Bucket)

/-- A pass that reads every bucket. -/
def wholeRead (t : List Bucket) : PassRead := (tagged t).map fun (tag, b) => (tag, b, [b])

/-- The exact sums of a bucket over contributions, each with its power of two (R199, R201). -/
def Dev.sums (d : Dev) (cs : List (Contrib × Int)) (tag : Nat) (b : Bucket) : List Val :=
  cs.foldl (fun acc (c, s) =>
    List.zipWith (fun a v => Val.add a (Val.scale s v)) acc (d.found c tag b).elems)
    (List.replicate b.elements (.fin false 0 0))

/-- One result element S/N in a bucket's format (R202). -/
def resultCode (key : RndKey) (b : Bucket) (n i : Nat) (v : Val) : Nat :=
  let q := if v.isZero then .fin false 0 0 else Val.div v (Val.ofInt n)
  if b.outFmt = 1 then (convert .fp32 .rne false q).1
  else (convert .bf16 (srOf key 0 b.tensor (b.elemBase + i)) false q).1

/-- Result bytes and the exact sum of the squares of the elements as written (R202, R204). -/
def resultBytes (fmt : Nat) (codes : List Nat) : Bytes × Val :=
  (codes.flatMap fun c => le (if fmt = 1 then 4 else 2) c,
   codes.foldl (fun a c => let v := decodeElem (if fmt = 1 then .fp32 else .bf16) c; Val.add a (Val.mul v v))
     (.fin false 0 0))

/-- Write S/N of buckets: the exact sum of squares with it. -/
def Dev.writeResults (d : Dev) (key : RndKey) (cs : List (Contrib × Int)) (n : Nat) (t : List (Nat × Bucket)) :
    Dev × Val :=
  t.foldl (fun (a : Dev × Val) (tag, b) =>
    let s := a.1.sums cs tag b
    let codes := (List.range s.length).map fun i => resultCode key b n i (nth .nan s i)
    let (bs, q) := resultBytes b.outFmt codes
    (a.1.storeDev (unitAcc b.inst) b.outAddr bs, Val.add a.2 q)) (d, .fin false 0 0)

/-- Write one FP32 word per element of every bucket: a staged round's local sums (R212). -/
def Dev.writeStaged (d : Dev) (cs : List (Contrib × Int)) (nan : Bool) (t : List Bucket) : Dev :=
  (tagged t).foldl (fun d (tag, b) =>
    let s := if nan then List.replicate b.elements Val.nan else d.sums cs tag b
    d.storeDev (unitAcc b.inst) b.outAddr (s.flatMap fun v => le 4 (if v.isZero then 0 else to32 v))) d

/-- What reading parts of a bucket for contributions does to memory. -/
def Dev.passTraffic (d : Dev) (o : Option OrderId) (cs : List Contrib) (tag : Nat) (parts : List Bucket) : Dev :=
  (cs.filter fun c => c.covers tag).foldl (fun d c => parts.foldl (fun d p =>
    let a := layoutOff c.fmt p.offset
    d.reads { unitAcc p.inst with order := o } c.ctx (c.base + a) (layoutOff c.fmt (p.offset + p.elements) - a)) d) d

/-- The Confluence's reports of a pass: one for each bucket that it has read, to the instance on the terrace of its INSTANCE
(R186), and the elements each instance has added. -/
def Dev.passReports (d : Dev) (k : Nat) (cs : List Contrib) (rd : PassRead) : Dev :=
  rd.foldl (fun d (tag, b, parts) =>
    let fs := cs.flatMap fun c => parts.map fun p => d.found c tag p
    let n := sumNat (parts.map fun p => p.elements) * (cs.filter fun c => c.covers tag).length
    let d := d.passTraffic (d.cfl k).round.order cs tag parts
    let d := d.setCflElems (d.cflElems.set b.inst (min (nth 0 d.cflElems b.inst + n) (2 ^ 64 - 1)))
    d.gaugeReport b.inst k b.tensor fun w =>
      { w with nonfinite := w.nonfinite + sumNat (fs.map fun f => f.nonfinite),
               bumps := w.bumps + sumNat (fs.map fun f => f.bumps) }) d

/-! ### The verdict (07 R174, R176) -/

/-- The Gauge forms the verdict of a round's order once the round has handed over its result and the order is in its
optimiser phase (07 R174; DEDUCED, log entry 116). On a skip it writes the error record and the step closes. -/
def Dev.formVerdict (d : Dev) (k : Nat) : Dev :=
  let r := (d.cfl k).round
  if !r.handed then d else
  match d.steps.find? fun x => some x.o == r.order with
  | none => d
  | some x =>
    if !(x.hasOpt && x.optBegun && !x.optEnded && !x.verdict) then d else
    let d := d.verdict k r.reason r.normsq r.ls
    let g := d.gauge k
    let skip := if g.verdict = 2 then g.reason else 0
    let d := d.setSteps (d.steps.map fun y => if y.o = x.o then { y with verdict := true, skip } else y)
    if skip = 0 then d else
    let (c, tag) := match d.order? x.o with | some o => (o.ctx, o.tag) | none => (1024 + k, 0)
    let d := d.record { status := skip, ctx := c, source := srcGauge (d.gaugeInst k), mark := g.verdictTime, count := 1, tag,
                        detail := [x.step] }
    (d.modOrder x.o fun o => { o with records := true }).closeStep k x.step x.ls 2

/-- A round hands the Gauge its reason, and normsq where it has written a result (R204). -/
def Dev.deliver (d : Dev) (k reason : Nat) (normsq : Option Nat) : Dev :=
  let (m, d) := d.mark (d.cflSrc k)
  let d := d.modRound k fun r => match normsq with
    | none => { r with state := .closed, reason, handed := true }
    | some v => { r with state := .closed, reason, handed := true, resultTime := m, normsq := v }
  d.formVerdict k

/-! ### The reduction pass (R199, R203, R204, R212) -/

/-- The power of two that brings a contribution to the round's LS. -/
def Round.shift (r : Round) (c : Contrib) : Int := (r.ls : Int) - c.ls

/-- The divisor in force and the size of the set (Table 08-8). -/
def Dev.countSet (d : Dev) (k : Nat) : Dev :=
  d.modRound k fun r => { r with summed := r.set.length, tokens := w64 (sumNat (r.set.map fun c => c.tokens)) }

/-- Contributions leave a round's set, each with its outcome, and are released. -/
def Dev.exclude (d : Dev) (k i : Nat) (out : List (Contrib × List Nat)) : Dev :=
  let d := d.modRound k fun r => { r with set := r.set.filter fun c => !(out.any fun x => x.1 == c) }
  (out.foldl (fun d x => (d.cflEvent k i x.1 x.2).cflRelease k x.1) d).countSet k

/-- The scale test (R199): contributions outside −9 to +1 are excluded with 0x0615. -/
def Dev.scaleTest (d : Dev) (k : Nat) : Dev :=
  let r := (d.cfl k).round
  let out := r.set.filter fun c => !(decide (-9 ≤ r.shift c ∧ r.shift c ≤ 1))
  d.exclude k 5 (out.map fun c => (c, [c.origin]))

/-- The lowest tag in which a contribution is non-finite. -/
def Dev.badTag (d : Dev) (t : List Bucket) (c : Contrib) : Option Nat :=
  ((tagged t).find? fun (tag, b) => (d.found c tag b).nonfinite != 0).map Prod.fst

/-- The contributions of a round's set are released (R205). -/
def Dev.freeSet (d : Dev) (k : Nat) : Dev :=
  (d.cflReleaseAll k (d.cfl k).round.set).modRound k fun r => { r with freed := true }

/-- A staged round has written its local sums and waits for the FINAL parts (R212). -/
def Dev.awaitFinal (d : Dev) (k : Nat) : Dev :=
  let (m, d) := d.mark (d.cflSrc k)
  d.modRound k fun r =>
    { r with state := .awaitFinal, resultTime := m, finalEnd := d.eff + 1000000 * d.reg .cflFinalLimit k }

/-- A pass over a set without non-finite contributions writes its results. -/
def Dev.finishPass (d : Dev) (k : Nat) : Dev :=
  let r := (d.cfl k).round
  let t := (d.cfl k).table
  let cs := r.set.map fun c => (c, r.shift c)
  let d := (d.passReports k r.set (wholeRead t)).cflSummary k 6 (1024 + k) r.reruns r.order
  if r.staged then ((d.writeStaged cs false t).freeSet k).awaitFinal k
  else if r.tokens = 0 then (d.freeSet k).deliver k 0x0602 none
  else
    let (d, q) := d.writeResults { seed := r.seed, step := r.step, attempt := r.attempt } cs r.tokens (tagged t)
    (d.freeSet k).deliver k 0 (some (to32 q))

/-- The tiles of an instance in the order in which it reduces them (R210): tag, bucket and tile. -/
def tilesOf (i : Nat) (t : List Bucket) : List (Nat × Bucket × Bucket) :=
  (tagged t).flatMap fun (tag, b) => if b.inst = i then b.tiles.map fun p => (tag, b, p) else []

/-- The tiles that the instances have read when one of them stops the pass at its first tile that is bad, and those whose
results they have written. How far the others have come is free, up to a bad tile of their own (log entry 117). -/
def stoppedAt (t : List Bucket) (bad : Nat → Bucket → Bool) (inst draw : Nat) :
    List (Nat × Bucket × Bucket) × List (Nat × Bucket × Bucket) :=
  let one (i : Nat) :=
    let l := tilesOf i t
    let m := (l.findIdx? fun x => bad x.1 x.2.2).getD l.length
    if i = inst then (l.take (m + 1), l.take m)
    else let w := l.take (Config.freeNat (4 * draw + i) % (m + 1)); (w, w)
  let all := (List.range 4).map one
  (all.flatMap Prod.fst, all.flatMap Prod.snd)

/-- A pass that stops at a bad tile of bucket tag (R203): the tiles before it are written, and its contributions are
released. A staged round writes NaN instead (R212). -/
def Dev.stopPass (d : Dev) (k reason tag : Nat) (bad : Nat → Bucket → Bool) : Dev :=
  let r := (d.cfl k).round
  let t := (d.cfl k).table
  let inst := match t[tag]? with | some b => b.inst | none => 0
  let (n, d) := d.draw
  let (rd, wr) := stoppedAt t bad inst n
  let d := d.passReports k r.set (((tagged t).map fun (tag, b) =>
    (tag, b, (rd.filter fun x => x.1 == tag).map fun x => x.2.2)).filter fun x => !x.2.2.isEmpty)
  if r.staged then ((d.writeStaged [] true t).freeSet k).awaitFinal k
  else
    let cs := r.set.map fun c => (c, r.shift c)
    let d := if r.tokens = 0 then d else
      (d.writeResults { seed := r.seed, step := r.step, attempt := r.attempt } cs r.tokens (wr.map fun x => (x.1, x.2.2))).1
    (d.freeSet k).deliver k reason none

/-- The whole reduction of a round whose set is fixed. -/
def Dev.reduce (d : Dev) (k : Nat) : Dev :=
  let d := d.scaleTest k
  let r := (d.cfl k).round
  let t := (d.cfl k).table
  let ovf (tag : Nat) (b : Bucket) : Bool := r.set.any fun c => (d.found c tag b).ovf
  let bad := r.set.filterMap fun c => (d.badTag t c).map fun tag => (c, tag)
  match (tagged t).find? fun (tag, b) => ovf tag b with
  | some (tag, _) => d.stopPass k 0x0600 tag ovf
  | none =>
    if bad.isEmpty then d.finishPass k
    else if r.skipStep then
      match argMin (fun (x : Contrib × Nat) => x.2) bad with
      | some (c, tag) => (d.cflEvent k 1 c [c.origin, tag]).stopPass k 0x0601 tag fun tag p =>
          r.set.any fun c => (d.found c tag p).nonfinite != 0
      | none => d
    else
      let d := d.passReports k r.set (wholeRead t)
      let d := d.exclude k 1 (bad.map fun (c, tag) => (c, [c.origin, tag]))
      (d.modRound k fun r => { r with reruns := sat16 (r.reruns + 1) }).finishPass k

/-! ### Admission (R196 to R200) -/

/-- Fields whose contribution is missing. -/
def Round.missing (r : Round) : Nat :=
  (r.fields.filter fun f => !r.settled.contains f).length + (r.imports - r.importsDone)

/-- Admission closes: the set is fixed and the pass starts (R197). -/
def Dev.closeRound (d : Dev) (k : Nat) (deadline : Bool) : Dev :=
  let r := (d.cfl k).round
  let (m, d) := d.mark (d.cflSrc k)
  let d := (d.modRound k fun r =>
    { r with state := .reducing, closeTime := m, skipStep := d.reg .cflNonfinite k == 1 }).countSet k
  if deadline && decide (0 < r.missing) then
    (d.cflCount k 0 1).cflRecord k 0x0610 (1024 + k) m 1 (match r.order with | none => 0 | some o => d.orderTag o) r.order
      [r.missing]
  else d

/-- Admission closes once nothing that is expected is missing. -/
def Dev.tryClose (d : Dev) (k : Nat) : Dev :=
  let r := (d.cfl k).round
  if r.state = .admitting ∧ r.missing = 0 then d.closeRound k false else d

/-- A contribution joins the current round; the first POST or IMPORT sets the deadline (R197). -/
def Dev.join (d : Dev) (k : Nat) (c : Contrib) (fold : Bool) : Dev :=
  let d := d.modRound k fun r =>
    { r with set := r.set ++ [{ c with fold }], present := r.present + 1,
             importsDone := if c.isImport && !fold then r.importsDone + 1 else r.importsDone,
             settled := if c.isImport || fold then r.settled else r.settled ++ [c.origin],
             deadline := match r.deadline with | some t => some t | none => some (d.eff + 1000 * d.reg .cflDeadline k) }
  d.tryClose k

/-- A contribution is dropped late (R198). -/
def Dev.dropLate (d : Dev) (k : Nat) (c : Contrib) : Dev := (d.cflEvent k 4 c [c.origin]).cflRelease k c

/-- Placement of an accepted contribution (R31, R198, Table 08-1). -/
def Dev.placeContrib (d : Dev) (k : Nat) (c : Contrib) : Dev :=
  let x := d.cfl k
  let r := x.round
  let now := d.reg .cisEpoch k
  let isOpen := r.state == .admitting
  if now - c.epoch > 1 then (d.cflEvent k 2 c [c.origin]).cflRelease k c
  else if r.state ≠ .none ∧ c.key = r.key then
    (if isOpen then d.join k c false
     else (d.cflEvent k 3 c [c.origin]).modCfl k fun x => { x with folds := x.folds ++ [{ c with fold := true }] })
  else if some c.key = x.prev then
    (if isOpen then (d.cflEvent k 3 c [c.origin]).join k c true else d.dropLate k c)
  else if r.state ≠ .none ∧ keyLt c.key r.key then d.dropLate k c
  else d.modCfl k fun x => { x with held := x.held ++ [c] }

/-- A round's work ends before the next round of its district opens: admission closes, its pass runs, and a wait for FINAL
parts, which only a current round can take, ends (R196, R212; DESIGN CHOICE, log entry 118). -/
def Dev.endRound (d : Dev) (k : Nat) : Dev :=
  let d := if (d.cfl k).round.state = .admitting then d.closeRound k false else d
  let d := if (d.cfl k).round.state = .reducing then d.reduce k else d
  let r := (d.cfl k).round
  if r.state = .awaitFinal then (d.cflReleaseAll k r.parts).modRound k fun r => { r with state := .closed, parts := [] } else d

/-- The Headgate opens a round at the start of a TRAIN_STEP order's programs (R196, R198). The results of the last round
stay to be read (Table 08-8). -/
def Dev.openRound (d : Dev) (k : Nat) (o : OrderId) (step attempt ls epoch seed : Nat) (fields : List Nat) : Dev :=
  let d := d.endRound k
  let x := d.cfl k
  let (m, d) := d.mark (d.cflSrc k)
  let mine := x.held.filter fun c => c.key == (step, attempt)
  let r := x.round
  let d := d.putCfl k { x with
    prev := if r.state = .none then x.prev else some r.key
    folds := []
    held := x.held.filter fun c => c.key != (step, attempt)
    round := { Round.init with state := .admitting, step, attempt, ls, epoch, seed, order := some o, fields,
                               imports := d.reg .cflExpectImports k, staged := d.reg .cflStaged k == 1, openTime := m,
                               closeTime := r.closeTime, resultTime := r.resultTime, normsq := r.normsq,
                               reason := r.reason, set := x.folds, present := x.folds.length } }
  mine.foldl (fun d c => d.join k c false) d

/-- A field part ends without posting (R197). -/
def Dev.partSilent (d : Dev) (k : Nat) (o : OrderId) (f : Nat) : Dev :=
  let r := (d.cfl k).round
  if r.order = some o ∧ r.state = .admitting ∧ r.fields.contains f ∧ !r.settled.contains f then
    (d.modRound k fun r => { r with settled := r.settled ++ [f] }).tryClose k
  else d

/-- The round of an order that is stopped before its verdict is abandoned (R197, R200): what it has not released is
released, and its folds return to pending. -/
def Dev.abandonRound (d : Dev) (k : Nat) (o : OrderId) : Dev :=
  let r := (d.cfl k).round
  if r.order = some o ∧ r.state ≠ .closed ∧ r.state ≠ .none then
    let live := if r.freed then [] else r.set
    let d := d.modCfl k fun x =>
      { x with folds := x.folds ++ live.filter (fun c => c.fold),
               round := { x.round with state := .closed, set := [], parts := [] } }
    d.cflReleaseAll k (live.filter (fun c => !c.fold) ++ r.parts)
  else d

/-- A TRAIN_STEP order is stopped as a whole: before its verdict, it leaves no round (02 R54, R197). -/
def Dev.stopStep (d : Dev) (o : OrderId) : Dev :=
  match d.steps.find? fun x => x.o == o with
  | none => d
  | some x =>
    let d := d.setSteps (d.steps.map fun y => if y.o = o then { y with stopped := true } else y)
    if x.verdict then d else d.abandonRound x.district o

/-- Every pending fold and held import is dropped, with 0x0614 for each (R200, R207). -/
def Dev.dropPending (d : Dev) (k : Nat) : Dev :=
  let x := d.cfl k
  let d := d.putCfl k { x with folds := [], held := [] }
  (x.folds ++ x.held).foldl (fun d c => d.dropLate k c) d

/-! ### Descriptors (R209, R215) -/

/-- A job descriptor (08 Table 08-4). -/
structure CflDesc where
  op : Nat
  fmt : Nat
  flags : Nat
  ls : Nat
  firstTag : Nat
  tagCount : Nat
  tokens : Nat
  gate : Nat
  origin : Nat
  base : Nat
  aux : Nat
  dest : Nat
  step : Nat
  epoch : Nat
  attempt : Nat
deriving DecidableEq, Repr

def parseCfl (b : Bytes) : CflDesc :=
  { op := leAt b 0 1, fmt := leAt b 1 1, flags := leAt b 2 1, ls := leAt b 3 1, firstTag := leAt b 4 2,
    tagCount := leAt b 6 2, tokens := leAt b 8 4, gate := leAt b 12 2, origin := leAt b 14 2, base := leAt b 16 8,
    aux := leAt b 24 8, dest := leAt b 32 8, step := leAt b 40 8, epoch := leAt b 48 8, attempt := leAt b 56 2 }

/-- The descriptor lies within Table 08-4 for its operation. -/
def CflDesc.ok (x : CflDesc) (b : Bytes) : Bool :=
  allZero (b.drop 58) &&
  (if x.op = 1 then
    (x.fmt == 1 || x.fmt == 2) && x.flags == 0 && x.ls == 0 && x.origin == 0 && x.aux == 0 && x.dest == 0
  else if x.op = 2 then
    [1, 2, 7, 12].contains x.fmt && x.flags == 0 && decide (x.ls ≤ 127) && x.aux == 0 && x.dest == 0
  else if x.op = 3 then
    [1, 2, 7, 12].contains x.fmt && decide (x.flags ≤ 1) && x.ls == 0 && x.origin == 0 && x.aux == 0 && x.dest == 0 &&
      (x.flags == 1 || x.tokens == 0)
  else if x.op = 4 then
    x.fmt == 1 && x.flags == 0 && x.ls == 0 && x.tokens == 0 && x.origin == 0
  else if x.op = 5 then
    x.fmt == 1 && (x.flags == 0 || x.flags == 2) && x.ls == 0 && x.tokens == 0 && decide (x.origin ≤ 255)
  else false)

/-- The buckets that a descriptor names. -/
def Dev.descBuckets (d : Dev) (k : Nat) (x : CflDesc) : List (Nat × Bucket) :=
  (tagged (d.cfl k).table).filter fun (tag, _) => decide (x.firstTag ≤ tag ∧ tag < x.firstTag + x.tagCount)

/-- A layout of a format lies in a context's memory, over the buckets named, and is 64-byte aligned. -/
def Dev.layoutOk (d : Dev) (ctx fmt base : Nat) (bs : List (Nat × Bucket)) (write : Bool) : Bool :=
  base % 64 == 0 && bs.all fun (_, b) =>
    d.rangeOk ctx (base + layoutOff fmt b.offset) (layoutOff fmt (b.offset + b.elements) - layoutOff fmt b.offset) write

/-- The agreed-scale bytes of the buckets named. -/
def Dev.scalesOk (d : Dev) (ctx base : Nat) (bs : List (Nat × Bucket)) : Bool :=
  base % 64 == 0 && bs.all fun (_, b) => d.rangeOk ctx (base + b.offset / 32) (b.elements / 32) false

/-- The addresses and the Gate of a descriptor (Table 08-6, 0x0194). -/
def Dev.cflAddrOk (d : Dev) (ctx k : Nat) (x : CflDesc) : Bool :=
  let bs := d.descBuckets k x
  d.holds ctx x.gate && d.layoutOk ctx x.fmt x.base bs false &&
  (if x.op = 4 then d.layoutOk ctx 1 x.aux bs true && d.layoutOk ctx 12 x.dest bs true
   else if x.op = 5 then
    d.layoutOk ctx 7 x.dest bs true && (if bit x.flags 1 then d.scalesOk ctx x.aux bs else d.layoutOk ctx 7 x.aux bs false)
   else true)

/-- The first refusal of a job that is not the state's or a duplicate's (R215; the order is a DESIGN CHOICE, log entry
24). -/
def Dev.cflCode (d : Dev) (ctx k : Nat) (x : CflDesc) (b : Bytes) : Nat :=
  if !x.ok b then 0x0190
  else if !d.isTrain k then 0x0195
  else if (match d.ent? k with | some e => e.conflShare == 0 | none => true) = true then 0x0191
  else if x.firstTag + x.tagCount > (d.cfl k).table.length then 0x0192
  else if x.tagCount ≠ 0 ∧ d.cflAddrOk ctx k x = false then 0x0194
  else 0

/-- The district already holds an IMPORT of an origin and key. -/
def Dev.hasImport (d : Dev) (k origin : Nat) (key : Nat × Nat) : Bool :=
  let x := d.cfl k
  (x.round.set ++ x.folds ++ x.held).any fun c => c.isImport && c.origin == origin && c.key == key

/-- A job of no buckets (00 R10): the Gate that it names is incremented, as a job's with buckets is (DEDUCED, log entry
119). -/
def Dev.cflEmpty (d : Dev) (ctx k : Nat) (x : CflDesc) : Dev :=
  if d.holds ctx x.gate then d.signal x.gate 1 (d.cflSrc k) else d

/-- A POST of a field part (R198, R209): the contribution is placed, and the part has posted; or its refusal. -/
def Dev.post (d : Dev) (ctx k : Nat) (p : Part) (step attempt ls : Nat) (b : Bytes) : Except Nat Dev :=
  let x := parseCfl b
  let code := if x.op = 1 then d.cflCode ctx k x b else 0x0190
  if code ≠ 0 then .error code
  else if p.posted then .error 0x0193
  else if x.tagCount = 0 then .ok (d.cflEmpty ctx k x)
  else
    let c : Contrib := { step, attempt, ls, epoch := p.epoch, tokens := x.tokens, fmt := x.fmt, firstTag := x.firstTag,
                         tagCount := x.tagCount, base := x.base, gate := x.gate, origin := p.field, isImport := false,
                         fold := false, ctx, o := p.o, tag := d.orderTag p.o }
    let d := d.setParts (d.parts.map fun q => if q.o = p.o ∧ q.field = p.field then { q with posted := true } else q)
    .ok (d.placeContrib k c)

end Sys2Proof.Machine
end

