-- ==== Sys2Proof/Machine/Keccak.lean ====
section
/-!
DEFINITION. SHAKE256 of FIPS 202, KMAC256 of NIST SP 800-185, and XMSS-SHAKE256_20_256 verification of RFC 8391 and NIST
SP 800-208: the published standards that 15 R345, R348 and 09 R228 name (PRESUMED from the standards, log entry 30).
-/
namespace Sys2Proof.Machine

/-! ### SHAKE256 (FIPS 202) -/

/-- A lane of the sponge's state: lane (x, y) stands at index x + 5·y. -/
abbrev Lane := BitVec 64

/-- ι's constants. -/
def keccakRc : List Nat :=
  [0x0000000000000001, 0x0000000000008082, 0x800000000000808A, 0x8000000080008000, 0x000000000000808B,
   0x0000000080000001, 0x8000000080008081, 0x8000000000008009] ++
  [0x000000000000008A, 0x0000000000000088, 0x0000000080008009, 0x000000008000000A, 0x000000008000808B,
   0x800000000000008B, 0x8000000000008089, 0x8000000000008003] ++
  [0x8000000000008002, 0x8000000000000080, 0x000000000000800A, 0x800000008000000A, 0x8000000080008081,
   0x8000000000008080, 0x0000000080000001, 0x8000000080008008]

/-- ρ's rotation of each lane. -/
def keccakRot : List Nat :=
  [0, 1, 62, 28, 27] ++ [36, 44, 6, 55, 20] ++ [3, 10, 43, 25, 39] ++ [41, 45, 15, 21, 8] ++ [18, 2, 61, 56, 14]

def lane (a : List Lane) (x y : Nat) : Lane := nth 0 a (x % 5 + 5 * (y % 5))

/-- Build a state lane by lane. -/
def lanes (f : Nat → Nat → Lane) : List Lane := (List.range 25).map fun i => f (i % 5) (i / 5)

/-- θ. -/
def keccakTheta (a : List Lane) : List Lane :=
  let c := (List.range 5).map fun x => lane a x 0 ^^^ lane a x 1 ^^^ lane a x 2 ^^^ lane a x 3 ^^^ lane a x 4
  lanes fun x y => lane a x y ^^^ nth 0 c ((x + 4) % 5) ^^^ (nth 0 c ((x + 1) % 5)).rotateLeft 1

/-- ρ, then π: lane (x, y) takes the rotated lane (x + 3·y, x). -/
def keccakRhoPi (a : List Lane) : List Lane :=
  lanes fun x y =>
    let u := (x + 3 * y) % 5
    (lane a u x).rotateLeft (nth 0 keccakRot (u + 5 * x))

/-- χ. -/
def keccakChi (a : List Lane) : List Lane :=
  lanes fun x y => lane a x y ^^^ (~~~(lane a (x + 1) y) &&& lane a (x + 2) y)

/-- The permutation: 24 rounds. -/
def keccakF (a : List Lane) : List Lane :=
  keccakRc.foldl (fun a rc =>
    let a := keccakChi (keccakRhoPi (keccakTheta a))
    (lane a 0 0 ^^^ BitVec.ofNat 64 rc) :: a.drop 1) a

/-- Bytes of a block of SHAKE256. -/
def shakeRate : Nat := 136

/-- A message with a suffix, which is 0x1F for SHAKE and 0x04 for cSHAKE, and the padding to whole blocks. -/
def shakePad (suffix : Byte) (m : Bytes) : Bytes :=
  let q := shakeRate - m.length % shakeRate
  m ++ (if q = 1 then [suffix ||| 0x80] else suffix :: (zeros (q - 2) ++ [0x80]))

/-- A block enters the state. -/
def shakeAbsorb (a : List Lane) (block : Bytes) : List Lane :=
  keccakF (lanes fun x y =>
    let i := x + 5 * y
    lane a x y ^^^ (if i < 17 then BitVec.ofNat 64 (leAt block (8 * i) 8) else 0))

/-- The state after n blocks. -/
def shakeIn : Nat → List Lane → Bytes → List Lane
  | 0, a, _ => a
  | n + 1, a, m => shakeIn n (shakeAbsorb a (m.take shakeRate)) (m.drop shakeRate)

/-- The first n blocks of output. -/
def shakeOut : Nat → List Lane → Bytes
  | 0, _ => []
  | n + 1, a => (a.take 17).flatMap (fun l => le 8 l.toNat) ++ shakeOut n (keccakF a)

/-- The first n bytes that the sponge gives of a message with a suffix. -/
def sponge (suffix : Byte) (m : Bytes) (n : Nat) : Bytes :=
  let p := shakePad suffix m
  (shakeOut (ceilDiv n shakeRate) (shakeIn (p.length / shakeRate) (List.replicate 25 0) p)).take n

/-- The first n bytes of SHAKE256 of a message. -/
def shake256 (m : Bytes) (n : Nat) : Bytes := sponge 0x1F m n

/-! ### KMAC256 (NIST SP 800-185) -/

/-- The bytes of a number below 2³², the most significant first and at least one. -/
def beBytes (x : Nat) : Bytes :=
  let n := if x < 2 ^ 8 then 1 else if x < 2 ^ 16 then 2 else if x < 2 ^ 24 then 3 else 4
  (le n x).reverse

def leftEncode (x : Nat) : Bytes := BitVec.ofNat 8 (beBytes x).length :: beBytes x
def rightEncode (x : Nat) : Bytes := beBytes x ++ [BitVec.ofNat 8 (beBytes x).length]
def encodeString (s : Bytes) : Bytes := leftEncode (8 * s.length) ++ s

/-- bytepad to whole blocks. -/
def bytePad (x : Bytes) : Bytes :=
  let b := leftEncode shakeRate ++ x
  b ++ zeros (roundUp b.length shakeRate - b.length)

/-- n bytes of KMAC256 of a message under a key with a customization string. -/
def kmac256 (key m custom : Bytes) (n : Nat) : Bytes :=
  sponge 0x04 (bytePad (encodeString [0x4B, 0x4D, 0x41, 0x43] ++ encodeString custom) ++
    bytePad (encodeString key) ++ m ++ rightEncode (8 * n)) n

/-! ### XMSS-SHAKE256_20_256 (RFC 8391, NIST SP 800-208) -/

/-- An integer as n bytes, the most significant first. -/
def toByte (x n : Nat) : Bytes := (le n x).reverse

/-- The number that bytes spell, the most significant first. -/
def ofBe (b : Bytes) : Nat := ofLe b.reverse

def xorBytes (a b : Bytes) : Bytes := (a.zip b).map fun (x, y) => x ^^^ y

/-- A hash address: the words after the layer and the tree, which are 0 with one tree: its type, then four words. -/
def adrs (type a b c d : Nat) : Bytes := zeros 12 ++ toByte type 4 ++ toByte a 4 ++ toByte b 4 ++ toByte c 4 ++ toByte d 4

/-- F, H, H_msg and PRF: SHAKE256 under a 32-byte prefix number. -/
def xmssHash (kind : Nat) (key m : Bytes) : Bytes := shake256 (toByte kind 32 ++ key ++ m) 32

/-- A chain of WOTS+ from its place at to its end. -/
def wotsChain (seed : Bytes) (ots chain : Nat) : Nat → Nat → Bytes → Bytes
  | 0, _, x => x
  | n + 1, at_, x =>
    let key := xmssHash 3 seed (adrs 0 ots chain at_ 0)
    let mask := xmssHash 3 seed (adrs 0 ots chain at_ 1)
    wotsChain seed ots chain n (at_ + 1) (xmssHash 0 key (xorBytes x mask))

/-- The four-bit digits of bytes, the high one first. -/
def hexDigits (b : Bytes) : List Nat := b.flatMap fun x => [x.toNat / 16, x.toNat % 16]

/-- The 67 digits that WOTS+ signs: those of the message, then those of the checksum. -/
def wotsDigits (m : Bytes) : List Nat :=
  let d := hexDigits m
  d ++ (hexDigits (toByte (16 * sumNat (d.map fun x => 15 - x)) 2)).take 3

/-- The WOTS+ public key that a signature over a message yields. -/
def wotsPk (seed : Bytes) (ots : Nat) (m sig : Bytes) : List Bytes :=
  ((List.range 67).zip (wotsDigits m)).map fun (i, x) =>
    wotsChain seed ots i (15 - x) x ((sig.drop (32 * i)).take 32)

/-- Two nodes hashed to one, under the key and the masks of an address of a type with three words. -/
def xmssPair (seed : Bytes) (type a height index : Nat) (l r : Bytes) : Bytes :=
  let f (k : Nat) := xmssHash 3 seed (adrs type a height index k)
  xmssHash 1 (f 0) (xorBytes l (f 1) ++ xorBytes r (f 2))

/-- One level of an L-tree, from node index i on. -/
def ltreeLevel (seed : Bytes) (tree height : Nat) : Nat → List Bytes → List Bytes
  | i, l :: r :: rest => xmssPair seed 1 tree height i l r :: ltreeLevel seed tree height (i + 1) rest
  | _, l => l

/-- The root of an L-tree: 67 leaves have seven levels. -/
def ltree (seed : Bytes) (tree : Nat) : Nat → Nat → List Bytes → Bytes
  | 0, _, l => l.headD []
  | n + 1, height, l => ltree seed tree n (height + 1) (ltreeLevel seed tree height 0 l)

/-- The root that a leaf of an index and its authentication path yield. -/
def xmssRoot (seed : Bytes) : Nat → Nat → Bytes → List Bytes → Bytes
  | _, _, node, [] => node
  | height, index, node, a :: path =>
    let up := if index % 2 = 0 then xmssPair seed 2 0 height (index / 2) node a
      else xmssPair seed 2 0 height (index / 2) a node
    xmssRoot seed (height + 1) (index / 2) up path

/-- The OID of XMSS-SHAKE256_20_256 (NIST SP 800-208), big-endian: PRESUMED, log entry 33. -/
def xmssOid : Bytes := [0, 0, 0, 0x12]

/-- A signature of 2,820 bytes over a message verifies under a public key of 68 bytes: the OID, the root and SEED (15
R348). -/
def xmssVerify (pub m sig : Bytes) : Bool :=
  let root := (pub.drop 4).take 32
  let seed := (pub.drop 36).take 32
  let idx := ofBe (sig.take 4)
  let r := (sig.drop 4).take 32
  let ots := (sig.drop 36).take (32 * 67)
  let auth := (List.range 20).map fun i => (sig.drop (36 + 32 * 67 + 32 * i)).take 32
  let digest := xmssHash 2 (r ++ root ++ toByte idx 32) m
  pub.length == 68 && sig.length == 2820 && pub.take 4 == xmssOid && decide (idx < 2 ^ 20) &&
    xmssRoot seed 0 idx (ltree seed idx 7 0 (wotsPk seed idx digest ots)) auth == root

end Sys2Proof.Machine
end

