-- ==== Sys2Proof/Machine/SurveyImg.lean ====
section
/-!
DEFINITION. Survey images: their layout (02 R38 to R43) and the tests that verify one (R44 to R46, 15 R349, R353).
-/
namespace Sys2Proof.Machine

def sigBytes : Nat := 2820

/-- n bytes of an image at an offset. -/
def cutAt (bs : Bytes) (o n : Nat) : Bytes := (bs.drop o).take n

/-- A section as it stands in an image (R39). -/
structure Sec1 where
  type : Nat
  district : Nat
  rsvd : Nat
  payload : Bytes
  digest : Bytes
  padOk : Bool

/-- The sections of an image's body, and whether they fill it exactly. -/
def walkSections : Nat → Bytes → List Sec1 × Bool
  | 0, bs => ([], bs.isEmpty)
  | n + 1, bs =>
    let len := leAt bs 4 4
    let padded := roundUp len 8
    if bs.length < 40 + padded then ([], false) else
    let x : Sec1 := { type := leAt bs 0 2, district := leAt bs 2 1, rsvd := leAt bs 3 1, payload := cutAt bs 40 len,
                      digest := cutAt bs 8 32, padOk := allZero (cutAt bs (40 + len) (padded - len)) }
    let (l, ok) := walkSections n (bs.drop (40 + padded))
    (x :: l, ok)

def sectionsOf (bs : Bytes) : List Sec1 × Bool :=
  walkSections (leAt bs 6 2) ((bs.take (bs.length - sigBytes)).drop 64)

/-- LENGTH of a section type (Table 02-2). -/
def lengthOk (type n : Nat) : Bool :=
  if type = 1 ∨ type = 3 then n == 64
  else if type = 2 then n == 8192
  else if type = 4 then n % 4 == 0 && decide (4 ≤ n ∧ n ≤ 32)
  else if type = 5 then n % 8 == 0 && decide (16 ≤ n ∧ n ≤ 32776)
  else if type = 6 then n == 4
  else if 7 ≤ type ∧ type ≤ 10 then n == 8
  else type == 11 && n == 16

/-- Types of the device-wide sections; the others of Table 02-2 are per district. -/
def deviceWide (type : Nat) : Bool := decide (2 ≤ type ∧ type ≤ 5)

/-- The payload of a section. -/
def findSec (l : List Sec1) (type k : Nat) : Option Bytes :=
  (l.find? fun x => x.type == type && x.district == k).map fun x => x.payload

def secOf (l : List Sec1) (type k : Nat) : Bytes := (findSec l type k).getD []

/-- Districts with a DISTRICT section, in ascending order. -/
def districtsIn (l : List Sec1) : List Nat := (List.range 16).filter fun k => (findSec l 1 k).isSome

/-- Ascending order of (TYPE, DISTRICT), no pair twice. -/
def ascending : List Sec1 → Bool
  | x :: y :: r => decide (x.type * 256 + x.district < y.type * 256 + y.district) && ascending (y :: r)
  | _ => true

/-- A section by itself, and against the role of its district (R39, R40). -/
def sectionOk (l : List Sec1) (x : Sec1) : Bool :=
  x.rsvd == 0 && x.padOk && lengthOk x.type x.payload.length &&
    (if deviceWide x.type then x.district == 0xFF else
      match findSec l 1 x.district with
      | none => false
      | some p =>
        let role := leAt p 0 1
        decide (x.district < 16) && (role == 1 || role == 2) && !(role == 1 && x.type == 6) && !(role == 2 && x.type == 10))

/-- The sections that a role requires. -/
def requiredOf (role : Nat) : List Nat := if role = 1 then [7, 8, 9, 10, 11] else [6, 7, 8, 9, 11]

/-- Test 6: 0x0180 for structure, then 0x0184 for a missing section. -/
def structureCode (l : List Sec1) (filled : Bool) : Nat :=
  if !filled || !ascending l || !l.all (sectionOk l) then 0x0180
  else if [2, 3, 4].all (fun t => (findSec l t 0xFF).isSome) &&
      (districtsIn l).all (fun k => (requiredOf (leAt (secOf l 1 k) 0 1)).all fun t => (findSec l t k).isSome) then 0
  else 0x0184

/-! ### The image (Tables 02-3 and 02-4) -/

/-- The per-district sections of district k. -/
def parseDist (l : List Sec1) (k : Nat) : DistEnt :=
  let p := secOf l 1 k
  let lend := secOf l 6 k
  let bud := secOf l 7 k
  let gat := secOf l 8 k
  let cac := secOf l 9 k
  let gau := secOf l 10 k
  let num := secOf l 11 k
  { role := leAt p 0 1, requireRunnel := bit (leAt p 1 1) 0, fieldMask := leAt p 2 2, deviceMask := leAt p 4 4
    wayMask := leAt p 8 8, flumeShare := leAt p 16 1, conflShare := leAt p 17 1, cisternResMib := leAt p 18 2
    cisternSpillGib := leAt p 20 2, scratchMib := leAt p 22 2
    cxl := (List.range (leAt p 24 1)).map fun i => (leAt p (32 + 8 * i) 4, leAt p (36 + 8 * i) 4)
    maxBasinLent := leAt lend 0 1, minBasinPrefill := leAt lend 1 1, maxRunnelLent := leAt lend 2 1
    minRunnelDecode := leAt lend 3 1, contW := leAt bud 0 2, floorW := leAt bud 2 2, opMin := leAt bud 4 2
    gateFirst := leAt gat 0 2, gateCount := leAt gat 2 2, perTenantMax := leAt gat 4 2
    pinBudgetGib := leAt cac 0 2, stagingGib := leAt cac 2 2, backing := leAt cac 4 1
    drySteps := leAt gau 0 2, crushPerMille := leAt gau 2 2, ratioHi := leAt gau 4 4
    mode := leAt num 0 1, convNan := leAt num 1 1, scaleDivLog2 := leAt num 2 1, nonfinite := leAt num 3 1
    raiseSteps := leAt num 4 2, initScaleLog2 := leAt num 6 1, deadlineUs := leAt num 8 4, deadlineMaxUs := leAt num 12 4 }

def parseTenants (p : Bytes) : Tbl TenantEnt :=
  (List.range 1024).foldl (fun m i => Tbl.set TenantEnt.none m i
    { district := leAt p (8 * i) 1, weight := leAt p (8 * i + 1) 1, quotaGib := leAt p (8 * i + 4) 2
      energyW := leAt p (8 * i + 6) 2 }) []

def parseRot (p : Bytes) : Nat × List RotEnt :=
  (leAt p 0 4, (List.range ((p.length - 8) / 8)).map fun j =>
    { startNs := leAt p (8 + 8 * j) 4, fieldMask := leAt p (12 + 8 * j) 2, district := leAt p (14 + 8 * j) 1
      kind := leAt p (15 + 8 * j) 1 })

/-- The image that bytes spell. -/
def parseImage (bs : Bytes) : Image :=
  let l := (sectionsOf bs).1
  let plan := secOf l 3 0xFF
  let clk := secOf l 4 0xFF
  { serial := leAt bs 16 8, bound := bit (leAt bs 12 4) 0, deviceBind := leAt bs 24 16, policyId := leAt bs 40 4
    signerKey := leAt bs 44 4, districts := (districtsIn l).map fun k => (k, parseDist l k)
    tenants := parseTenants (secOf l 2 0xFF)
    plan := (List.range 4).map fun t =>
      { cacheMib := leAt plan (16 * t) 2, flumeMib := leAt plan (16 * t + 2) 2, cisternMib := leAt plan (16 * t + 4) 2
        conflMib := leAt plan (16 * t + 6) 2, scratchMib := leAt plan (16 * t + 8) 2 }
    clock := (List.range (clk.length / 4)).map fun i => (leAt clk (4 * i) 2, leAt clk (4 * i + 2) 2)
    rotation := (findSec l 5 0xFF).map parseRot }

/-! ### Test 8: bounds (R43) and policy (R353) -/

def between (x lo hi : Nat) : Bool := decide (lo ≤ x ∧ x ≤ hi)

def strictly (up : Bool) : List Nat → Bool
  | x :: y :: r => decide (if up then x < y else y < x) && strictly up (y :: r)
  | _ => true

/-- An FP32 pattern is finite and positive. -/
def finitePositive (b : Nat) : Bool := !bit b 31 && fld b 23 8 != 255 && fld b 0 31 != 0

/-- A district's sections lie within their bounds. -/
def distBounds (l : List Sec1) (points k : Nat) : Bool :=
  let p := secOf l 1 k
  let e := parseDist l k
  let n := e.cxl.length
  let fields := (bitsOf e.fieldMask 16).length
  let devices := (bitsOf e.deviceMask 32).length
  decide (leAt p 1 1 < 2) && e.fieldMask != 0 && e.deviceMask != 0 && e.wayMask != 0 && decide (e.flumeShare ≤ 64) &&
    decide (e.conflShare ≤ 64) && decide (n ≤ 4) && allZero (cutAt p 25 7) && allZero (p.drop (32 + 8 * n)) &&
  (if e.role = 2 then decide (e.maxBasinLent + e.minBasinPrefill ≤ 12 * fields) &&
      decide (e.maxRunnelLent + e.minRunnelDecode ≤ 4 * fields)
    else between e.drySteps 1 65535 && between e.crushPerMille 1 1000 && finitePositive e.ratioHi) &&
  between e.contW 1 1200 && decide (e.floorW ≤ e.contW) && decide (e.opMin < points) &&
    allZero (cutAt (secOf l 7 k) 6 2) &&
  between e.gateFirst 0x100 0x3FFF && decide (1 ≤ e.gateCount) && decide (e.gateFirst + e.gateCount ≤ 0x4000) &&
    between e.perTenantMax 1 e.gateCount && allZero (cutAt (secOf l 8 k) 6 2) &&
  between e.pinBudgetGib 1 (62 * devices) && decide (e.backing < 4) && allZero (cutAt (secOf l 9 k) 5 3) &&
  decide (e.mode ≤ 1) && decide (e.convNan ≤ 1) && between e.scaleDivLog2 1 8 && decide (e.nonfinite ≤ 1) &&
    between e.raiseSteps 1 65535 && decide (e.initScaleLog2 ≤ 127) && allZero (cutAt (secOf l 11 k) 7 1) &&
    between e.deadlineUs 1 e.deadlineMaxUs

def tenantBounds (p : Bytes) (i : Nat) : Bool :=
  let w := leAt p (8 * i + 1) 1
  let q := leAt p (8 * i + 4) 2
  let e := leAt p (8 * i + 6) 2
  leAt p (8 * i + 2) 2 == 0 &&
    if leAt p (8 * i) 1 = 0xFF then w == 0 && q == 0 && e == 0
    else between w 1 255 && between q 1 1984 && between e 1 1200

def planBounds (p : Bytes) (t : Nat) : Bool :=
  let v (i : Nat) := leAt p (16 * t + 2 * i) 2
  between (v 0) 16 128 && v 0 % 16 == 0 && decide (v 1 ≤ 64) && decide (v 3 ≤ 64) &&
    v 0 + v 1 + v 2 + v 3 + v 4 == 160 && allZero (cutAt p (16 * t + 10) 6)

def rotBounds (p : Bytes) : Bool :=
  let (frame, es) := parseRot p
  between frame 10000 100000000 && leAt p 4 2 == es.length && leAt p 6 2 == 0 &&
    strictly true (es.map fun e => e.startNs) &&
    es.all fun e => decide (e.startNs < frame) && e.fieldMask != 0 && (e.kind == 1 || e.kind == 2)

/-- No two ranges of a list meet. -/
def disjoint : List (Nat × Nat) → Bool
  | [] => true
  | x :: r => r.all (fun y => !overlap x.1 x.2 y.1 y.2) && disjoint r

/-- Every payload of an image lies within its bounds. -/
def inBounds (bs : Bytes) : Bool :=
  let l := (sectionsOf bs).1
  let i := parseImage bs
  (List.range 1024).all (tenantBounds (secOf l 2 0xFF)) && (List.range 4).all (planBounds (secOf l 3 0xFF)) &&
    i.clock.all (fun c => between c.1 200 1600) && strictly false (i.clock.map Prod.fst) &&
    (match findSec l 5 0xFF with | none => true | some p => rotBounds p) &&
    (districtsIn l).all (distBounds l i.clock.length) &&
    disjoint (i.districts.map fun x => (x.2.gateFirst, x.2.gateCount))

/-- A CLOCK_PLAN point against the policy's operating points: the entry of the lowest frequency at or above it. -/
def pointOk (p : Policy) (c : Nat × Nat) : Bool :=
  match argMin (fun (o : Nat × Nat × Nat) => o.1) (p.opps.filter fun o => decide (c.1 ≤ o.1)) with
  | none => false
  | some o => between c.2 o.2.1 o.2.2

/-- An image is within the signed device policy (15 R353). -/
def withinPolicy (p : Policy) (i : Image) : Bool :=
  i.districts.all (fun x => bit p.roles (x.2.role - 1)) &&
    decide (sumNat (i.districts.map fun x => x.2.floorW) ≤ p.floorTotalW) &&
    i.tenants.all (fun x => decide (x.2.quotaGib ≤ p.maxQuotaGib)) && (!bit p.flags 1 || i.bound) && i.clock.all (pointOk p)

/-! ### Tests 9 and 10 -/

/-- A relation holds of every two elements of a list. -/
def pairwise {α : Type} (r : α → α → Bool) : List α → Bool
  | [] => true
  | x :: l => l.all (r x) && pairwise r l

def noCommon (a b n : Nat) : Bool := (bitsOf a n).all fun i => !bit b i

/-- Test 9: an image is consistent (R42), but for the room of the save area. -/
def consistent (i : Image) : Bool :=
  let es := i.districts.map Prod.snd
  pairwise (fun a b => noCommon a.fieldMask b.fieldMask 16 && noCommon a.deviceMask b.deviceMask 32 &&
    noCommon a.wayMask b.wayMask 64 && a.cxl.all fun x => b.cxl.all fun y => !overlap x.1 x.2 y.1 y.2) es &&
  es.all (fun e => e.cxl.all fun x => decide (0 < x.2 ∧ x.1 + x.2 ≤ 16384)) &&
  decide (sumNat (es.map fun e => e.flumeShare) ≤ 64) && decide (sumNat (es.map fun e => e.conflShare) ≤ 64) &&
  (List.range 4).all (fun t =>
    let p := nth PlanEnt.none i.plan t
    decide (sumNat (es.map fun e => e.share 2 t) ≤ p.cisternMib) && decide (sumNat (es.map fun e => e.share 4 t) ≤ p.scratchMib) &&
      (p.cacheMib / 16 != 0 || es.all fun e => fld e.wayMask (16 * t) 16 == 0)) &&
  es.all (fun e => decide (e.cisternSpillGib + e.stagingGib ≤ 62 * (bitsOf e.deviceMask 32).length)) &&
  i.tenants.all (fun x => x.2.district == 0xFF || i.districts.any fun y => y.1 == x.2.district) &&
  (match i.rotation with
    | none => true
    | some (_, rs) => rs.all fun r => i.districts.any fun x =>
        x.1 == r.district && (bitsOf r.fieldMask 16).all (bit x.2.fieldMask) && (r.kind != 1 || x.2.role == 2))

/-- The private ports of a field's Runnel cores lie over devices 2f and 2f + 1 (01 R20, R24). -/
def Dev.runnelPorts (d : Dev) (i : Image) : Bool :=
  i.districts.all fun x => !x.2.requireRunnel || (bitsOf x.2.fieldMask 16).all fun f =>
    [2 * f, 2 * f + 1].all fun v => bit x.2.deviceMask v && !d.fenced kDevice v

/-! ### Test 11 (R52) -/

/-- The table of an image without the entries of a district. -/
def Image.othersRot (i : Image) (k : Nat) : List RotEnt :=
  match i.rotation with | none => [] | some (_, l) => l.filter fun e => e.district != k

/-- An image changes nothing but district k. The header's fields are no part of what is compared, nor is FRAME_NS where only
one image has a ROTATION section (DESIGN CHOICE, log entry 125). -/
def confined (old new : Image) (k : Nat) : Bool :=
  (old.districts.filter fun x => x.1 != k) == (new.districts.filter fun x => x.1 != k) && old.plan == new.plan &&
    old.clock == new.clock && old.othersRot k == new.othersRot k &&
    (match old.rotation, new.rotation with
      | some a, some b => a.1 == b.1
      | _, _ => true) &&
    (List.range 1024).all fun t =>
      let a := Tbl.get TenantEnt.none old.tenants t
      let b := Tbl.get TenantEnt.none new.tenants t
      let mine (x : Nat) : Bool := x == k || x == 0xFF
      a == b || (mine a.district && mine b.district)

/-! ### Verification (R44) -/

/-- Test 1. len is SRV_IMAGE_LEN for an image read from the host. -/
def imageHeaderOk (bs : Bytes) (len : Option Nat) : Bool :=
  let n := leAt bs 8 4
  let flags := leAt bs 12 4
  leAt bs 0 4 == 0x59565253 && leAt bs 4 2 == 1 && between (leAt bs 6 2) 1 128 && decide (n ≤ 0x400000) &&
    decide (64 + sigBytes ≤ n) && n == bs.length && (match len with | none => true | some v => v == n) &&
    decide (flags < 2) && leAt bs 16 8 != 0 && (bit flags 0 || leAt bs 24 16 == 0) && allZero (cutAt bs 52 12)

/-- The survey key of an identifier (15 R353): none is listed without a verified policy. -/
def Dev.surveyKey (d : Dev) (id : Nat) : Option PolKey :=
  match d.sec.policy with
  | none => none
  | some p => p.keys.find? fun x => x.id == id && x.use == 1

/-- Tests 1 to 6: the code of the first that fails, or 0. -/
def Dev.imageCode (d : Dev) (bs : Bytes) (len : Option Nat) : Nat :=
  if !imageHeaderOk bs len then 0x0180
  else if bit (leAt bs 12 4) 0 && cutAt bs 24 16 != Config.identityDigest then 0x018A
  else match d.surveyKey (leAt bs 44 4), d.sec.policy with
    | some key, some p =>
      if !xmssVerify key.pub (bs.take (bs.length - sigBytes)) (bs.drop (bs.length - sigBytes)) then 0x0504
      else if leAt bs 40 4 ≠ p.id then 0x0183
      else
        let (l, filled) := sectionsOf bs
        if l.any fun x => shake256 x.payload 32 != x.digest then 0x0181 else structureCode l filled
    | _, _ => 0x0503

/-- Bytes of the save area of n fields (13 R309). -/
def saveBytesOf (n : Nat) : Nat := roundUp (n * 181760 * 1024) chunkBytes

/-- The pool lacks the free frames that a larger save area needs (R42). -/
def Dev.saveRoom (d : Dev) (i : Image) (k : Nat) : Bool :=
  match i.districts.find? fun x => x.1 == k with
  | none => true
  | some x =>
    let n := ((bitsOf x.2.fieldMask 16).filter fun f => !d.fenced kField f).length
    let old := d.dist k
    old.devices.isEmpty || decide (saveBytesOf n ≤ old.saveBytes + sumNat ((d.freeRuns k).map Prod.snd))

/-- Tests 7 to 11. above: SERIAL must exceed the committed one; target: the district of a RESURVEY. -/
def Dev.judgeCode (d : Dev) (bs : Bytes) (above : Bool) (target : Option Nat) : Nat :=
  let i := parseImage bs
  if i.serial < d.sec.flash.surveyFloor ∨ (above = true ∧ i.serial ≤ d.survey.committedSerial) then 0x0186
  else if !inBounds bs then 0x0185
  else if !(match d.sec.policy with | none => false | some p => withinPolicy p i) then 0x0183
  else if !consistent i || !(match target with | none => true | some k => d.saveRoom i k) then 0x0182
  else if !d.runnelPorts i then 0x018B
  else match target with
    | none => 0
    | some k => match d.survey.committed with
      | none => 0x0189
      | some old => if confined old i k then 0 else 0x0189

/-- Every test, for an image read from the host or from flash. -/
def Dev.verifyImage (d : Dev) (bs : Bytes) (len : Option Nat) (above : Bool) : Nat :=
  let c := d.imageCode bs len
  if c ≠ 0 then c else d.judgeCode bs above none

end Sys2Proof.Machine
end

