-- ==== Sys2Proof/Machine/Resid.lean ====
section
/-!
DEFINITION. Residency: which contexts have live work, which can progress, which hold a slot, and evictions (13 R300 to
R302, R304, R311).
-/
namespace Sys2Proof.Machine

/-- An address in the CXL window. -/
def inCxl (a : Nat) : Bool := match regionOf a with | .cxl _ => true | _ => false

/-- A virtual range of a context reaches the CXL window. -/
def Dev.reachesCxl (d : Dev) (c va n : Nat) : Bool :=
  match d.range c va n false with
  | .error _ => false
  | .ok l => l.any fun p => inCxl p.1

/-- A descriptor that moves data of the CXL window (R307). -/
def Dev.outer (d : Dev) (t : DmaTag) : Bool :=
  let x := t.desc
  (List.range x.rows).any fun r =>
    (x.op == 1 && fld x.flags 2 2 == 0 && d.reachesCxl t.ctx (x.src + r * x.srcStride) x.rowBytes) ||
      (fld x.flags 4 2 == 0 && d.reachesCxl t.ctx (x.dst + r * x.dstStride) x.rowBytes)

/-- A DMA order that moves data of host memory or of the CXL window. -/
def Dev.outerDma (d : Dev) (o : Order) : Bool :=
  bit (leAt o.body 24 1) 0 || bit (leAt o.body 24 1) 1 || d.reachesCxl o.ctx (leAt o.body 0 8) (leAt o.body 16 8) ||
    d.reachesCxl o.ctx (leAt o.body 8 8) (leAt o.body 16 8)

/-- Why work waits: 0 it does not, 1 a Gate, 2 a transfer, 3 a reissue (Table 13-7, BLOCK), 4 its own instances. -/
abbrev Blocked := Nat

/-- A waiter's Gate wait: 1 while it is not released. -/
def Dev.gateBlock (d : Dev) (who : Waiter) : Blocked :=
  match d.waitOf who with | none => 0 | some w => if w.released then 0 else 1

/-- Tags in flight of an instance. -/
def Inst.inFlight (i : Inst) : List (Nat × DmaTag) := i.tags.filterMap fun (k, t) => t.map fun t => (k, t)

/-- The waiter of a suspended instance, and of one of its descriptors. -/
def Inst.waiter (i : Inst) : Waiter := .inst i.field i.slot i.image i.run i.index
def Inst.dmaWaiter (i : Inst) (tag : Nat) : Waiter := .instDma i.field i.slot i.image i.run i.index tag

/-- How a descriptor in flight waits: on its Gate before it starts, or for host memory or the CXL window (R307). -/
def Dev.tagBlock (d : Dev) (who : Waiter) (t : DmaTag) : Blocked :=
  if t.started then (if d.outer t then 2 else 0) else d.gateBlock who

/-- How an instance in WAIT_DMA on some of its tags waits: it is blocked while it waits for one and all that it has in
flight is blocked (R311). -/
def Dev.dmaBlock (d : Dev) (core : Nat) (i : Inst) (suspended : Bool) (on : Nat → Bool) : Blocked :=
  let l := i.inFlight
  let bs := l.map fun (k, t) => d.tagBlock (if suspended then i.dmaWaiter k else .dma core k) t
  if !(l.any fun q => on q.1) || bs.contains 0 then 0 else if bs.contains 2 then 2 else 1

/-- How an instance waits: bound to a core, or suspended. One whose abandoned transfers are all answered can go on: it
reissues them (R308). -/
def Dev.instBlock (d : Dev) (core : Nat) (i : Inst) (suspended : Bool) : Blocked :=
  if suspended && i.inFlight.any (fun (_, t) => t.reissue && t.outstanding != 0) then 3
  else if suspended && i.inFlight.any (fun (_, t) => t.reissue) then 0
  else match i.wait with
  | .gate => d.gateBlock (if suspended then i.waiter else .core core)
  | .dmaw m => d.dmaBlock core i suspended fun k => bit m k
  | .dmaTag t => d.dmaBlock core i suspended fun k => k == t
  | .ending => d.dmaBlock core i suspended fun _ => true
  | _ => 0

/-- How the instances of a context wait. -/
def Dev.instBlocks (d : Dev) (c : Nat) : List Blocked :=
  (d.cores.flatMap fun (k, x) =>
    (match x.inst with | some i => if i.ctx = c then [d.instBlock k i false] else [] | none => []) ++
    (match x.held with | some i => if i.ctx = c then [d.instBlock k i true] else [] | none => [])) ++
  (d.saves.flatMap fun r => if r.inst.ctx = c then [d.instBlock r.core r.inst true] else [])

/-- How a program waits. -/
def Dev.progBlock (d : Dev) (f s : Nat) (p : Prog) : Blocked :=
  match p.wait with
  | .gate => d.gateBlock (.steward f s)
  | .fjoin _ => 4
  | .fend => 4
  | _ => 0

/-- Slots of a field with a program. -/
def Field.progs (x : Field) : List (Nat × Prog) :=
  (List.range 4).filterMap fun s => (nth none x.slots s).map fun p => (s, p)

/-- How the programs of a context wait; a queued program waits for nothing of Table 13-7. -/
def Dev.progBlocks (d : Dev) (c : Nat) : List Blocked :=
  d.fields.flatMap fun (f, x) =>
    (x.progs.filterMap fun (s, p) => if p.ctx = c then some (d.progBlock f s p) else none) ++
    (x.queue.filterMap fun p => if p.ctx = c then some 0 else none)

/-- How the unit jobs of a context wait. -/
def Dev.jobBlocks (d : Dev) (c : Nat) : List Blocked :=
  (d.flumes.flatMap fun (_, x) => x.jobs.filterMap fun (j, job) =>
    if job.state = .free ∨ job.ctx ≠ c then none
    else if x.engines.any (fun e => match e with | some (k, _) => k == j | none => false) then some 0
    else if w64 ((d.gate job.desc.gateIn).value.toNat + 2 ^ 64 - job.g0) > job.taken then some 0
    else some 1) ++
  (d.divs.flatMap fun (_, x) => x.jobs.filterMap fun (_, job) => match job with
    | some j => if j.ctx = c then some (if j.copied && !j.pending.isEmpty then 2 else 0) else none
    | none => none)

/-- An order of a context that is live work (R300): started and not completed, or ready to start. -/
def Dev.orderLive (d : Dev) (o : Order) : Bool :=
  match o.phase with
  | .fetched => d.waitOver o && d.fenceOver o && (match d.front o.id.fn o.id.pair with
    | some x => x.id == o.id | none => false)
  | _ => true

/-- How an order waits by itself; 4 for an order whose programs do its work. -/
def Dev.orderBlock (d : Dev) (o : Order) : Blocked :=
  if o.phase = .running then
    (if o.opcode = opTrain ∨ o.opcode = opRun then 4
     else if o.opcode = opDma then (if d.outerDma o then 2 else 0)
     else if o.opcode = opCache then 2 else 0)
  else 0

/-- A context has live work (R300). -/
def Dev.liveWork (d : Dev) (c : Nat) : Bool := d.orders.any fun o => o.ctx == c && d.orderLive o

/-- A context has programs, as a serving context has without an order of its own. -/
def Dev.hasProgs (d : Dev) (c : Nat) : Bool := !(d.progBlocks c).isEmpty

/-- Everything of a context that waits or runs. -/
def Dev.blocks (d : Dev) (c : Nat) : List Blocked :=
  d.instBlocks c ++ d.progBlocks c ++ d.jobBlocks c ++
    (d.orders.filter fun o => o.ctx == c && d.orderLive o).map d.orderBlock

/-- At least one of a context's instances, unit jobs or orders can make progress (R300, R311). -/
def Dev.canProgress (d : Dev) (c : Nat) : Bool :=
  let l := d.blocks c
  l.any (· == 0) || l.all (· == 4)

/-- SCH_CTX_STATE.BLOCK of a blocked context: a reissue before a transfer before a Gate (DESIGN CHOICE, log entry
21). -/
def Dev.blockKind (d : Dev) (c : Nat) : Nat :=
  let l := d.blocks c
  if l.contains 3 then 3 else if l.contains 2 then 2 else 1

/-- The context of a resident slot (0x7FF free). -/
def Dev.slotCtx (d : Dev) (s : Nat) : Nat := Tbl.get 0x7FF d.sched.slots s
def Dev.putSlot (d : Dev) (s c : Nat) : Dev := d.setSched { d.sched with slots := Tbl.set 0x7FF d.sched.slots s c }

def tenantSlots : List Nat := (List.range 48).map (· + 16)

def Dev.working (d : Dev) (c : Nat) : Bool := d.liveWork c || d.hasProgs c

/-- Resident tenant contexts. -/
def Dev.residents (d : Dev) : List (Nat × Nat) :=
  tenantSlots.filterMap fun s => if d.slotCtx s = 0x7FF then none else some (s, d.slotCtx s)

/-- The tenant slot that a context can take (R301): a free one, or that of the resident context longest without live
work, and among equals the lowest slot. -/
def Dev.slotFor (d : Dev) : Option Nat :=
  match tenantSlots.find? fun s => d.slotCtx s == 0x7FF with
  | some s => some s
  | none =>
    let idle := d.residents.filter fun (_, c) => !d.working c && (d.ctx c).state == .runnable
    (argMin (fun (_, c) => (d.ctx c).idleSince) idle).map Prod.fst

/-! ### Core time (R304) -/

/-- The points of CLOCK_PLAN: MHz and mV. -/
def Dev.clock (d : Dev) : List (Nat × Nat) := match d.survey.committed with | none => [] | some i => i.clock
def Dev.mhzOf (d : Dev) (p : Nat) : Nat := (nth (0, 0) d.clock p).1
def Dev.mvOf (d : Dev) (p : Nat) : Nat := (nth (0, 0) d.clock p).2

/-- Field clocks of a field between two effective instants: none while it is held, which gates its clock (16 R367); the
droop guard halves the rate (16 R369). -/
def Dev.clocks (d : Dev) (f a b : Nat) : Nat :=
  let m := d.mhzOf (d.field f).opPoint
  let u := if (d.field f).droopHalf then 2000 else 1000
  if (d.field f).held then 0 else b * m / u - a * m / u

/-- The instance that a core's time is charged to: the one it runs, or that it saves, clears or restores for. -/
def Core.charged (x : Core) : Option Inst :=
  match x.inst with
  | some y => some y
  | none => if x.saving then x.held else match x.starting with
    | some y => some y
    | none => x.restoring

/-- What one core-cycle adds to a context's V. -/
def Dev.vStep (d : Dev) (c : Nat) : Nat := 65536 / max 1 (d.reg .schShares c)

/-- Core-cycles of a context that its account does not show yet. -/
def Dev.owed (d : Dev) (c : Nat) : Nat :=
  sumNat (d.cores.map fun (i, x) => match x.charged with
    | some y => if y.ctx = c then d.clocks (i / 16) y.accountedAt d.eff else 0
    | none => 0)

/-- The account of a context as it stands at this instant. -/
def Dev.cyclesNow (d : Dev) (c : Nat) : Nat := min ((d.ctx c).cycles + d.owed c) (2 ^ 64 - 1)
/-- V of a context as it stands at this instant. -/
def Dev.vNow (d : Dev) (c : Nat) : Nat := w64 ((d.ctx c).vtime + d.owed c * d.vStep c)

/-- Cores of a field, by ascending position. -/
def coresIn (f : Nat) : List Nat := (List.range 16).map (16 * f + ·)

/-- Core-cycles charged to a context, with its virtual time (R304). -/
def Dev.chargeCycles (d : Dev) (c n : Nat) : Dev :=
  d.modCtx c fun x => { x with cycles := min (x.cycles + n) (2 ^ 64 - 1),
                               vtime := w64 (x.vtime + n * d.vStep c) }

/-- The account of a core is brought up to date: the instance it runs, or the one it saves, clears or restores for. -/
def Dev.account (d : Dev) (i : Nat) : Dev :=
  let x := d.core i
  match x.charged with
  | none => d
  | some y =>
    let n := d.clocks (i / 16) y.accountedAt d.eff
    let d := d.chargeCycles y.ctx n
    let fresh (z : Inst) : Inst := { z with accountedAt := d.eff }
    if x.inst.isSome then d.modCore i fun x => { x with
      busyClocks := min (x.busyClocks + n) (2 ^ 64 - 1), inst := some { fresh y with ran := y.ran + n } }
    else d.modCore i fun x =>
      { x with held := x.held.map fresh, starting := x.starting.map fresh, restoring := x.restoring.map fresh }

/-- The accounts of the cores that a context's time is charged on are brought up to date. -/
def Dev.accountCtx (d : Dev) (c : Nat) : Dev :=
  d.cores.foldl (fun d (i, x) => if x.charged.any fun y => y.ctx == c then d.account i else d) d

/-- The accounts of a field's cores are brought up to date, before its clock changes. -/
def Dev.accountField (d : Dev) (f : Nat) : Dev := (coresIn f).foldl (fun d i => d.account i) d

/-- Give a slot to a context: its translation root is loaded first (R301). -/
def Dev.takeSlot (d : Dev) (s c : Nat) : Dev :=
  let old := d.slotCtx s
  let d := if old = 0x7FF then d else d.modCtx old fun x => { x with slot := 0xFF, state := .idle, block := 0 }
  (d.putSlot s c).modCtx c fun x =>
    { x with slot := s, state := .runnable, rootLoading := true, residentSince := d.eff, block := 0, idleSince := 0 }

/-- Least V among the other resident tenant contexts with live work (R304). -/
def Dev.vMin (d : Dev) (c : Nat) : Option Nat :=
  argMin id ((d.residents.filter fun q => q.2 != c && d.working q.2).map fun q => d.vNow q.2)

/-- A context gains live work after having none (R304). -/
def Dev.raiseV (d : Dev) (c : Nat) : Dev :=
  match d.vMin c with
  | some v => d.modCtx c fun x => { x with vtime := max x.vtime v }
  | none => d

/-- The state of a resident context with its work as it stands. -/
def Dev.residentState (d : Dev) (c : Nat) : Dev :=
  let x := d.ctx c
  if d.working c && !d.canProgress c then
    if x.state = .blocked then d.modCtx c fun x => { x with block := d.blockKind c }
    else d.modCtx c fun x => { x with state := .blocked, block := d.blockKind c, blockStart := d.time.cnt }
  else d.modCtx c fun x => { x with state := .runnable, block := 0, blockStart := 0 }

/-- Some core runs an instance of a context, or is made ready for one. -/
def Dev.onCores (d : Dev) (c : Nat) : Bool :=
  d.cores.any fun (_, x) => (x.inst.toList ++ x.starting.toList ++ x.restoring.toList).any fun y => y.ctx == c

/-- System DMA orders of a context in progress: those that reach host memory or the CXL window, or the others (R307). -/
def Dev.dmaOf (d : Dev) (c : Nat) (outer : Bool) : List Order :=
  d.orders.filter fun o => o.ctx == c && o.opcode == opDma && o.phase == .running && d.outerDma o == outer

/-- The outer transfers of an evicted context are abandoned, to be reissued from their start; the sixteenth time in a
row the order completes with 0x0221 (R307, R308). -/
def Dev.abandonDma (d : Dev) (c : Nat) : Dev :=
  (d.dmaOf c true).foldl (fun d o =>
    let d := d.setSched { d.sched with abandon := sat32 (d.sched.abandon + 1) }
    if o.abandoned + 1 < 16 then d.modOrder o.id fun x => { x with phase := .dispatched, abandoned := x.abandoned + 1 }
    else d.failOrder o.id 0x0221 (d.hgSource c)) d

/-- Bring the state of a context up to date with its work; a DRAINING one gives up its slot once its instances have
stopped and its drain window has ended (R300, R301, R304, R311). -/
def Dev.settle (d : Dev) (c : Nat) : Dev :=
  let x := d.ctx c
  let w := d.working c
  match x.state with
  | .absent => d
  | .teardown => d
  | .faulted => d
  | .draining =>
    if x.drainEnd ≤ d.time.osc ∧ d.onCores c = false ∧ (d.dmaOf c false).isEmpty = true then
      let d := d.abandonDma c
      (if x.slot = 0xFF then d else d.putSlot x.slot 0x7FF).modCtx c fun x =>
        { x with state := if w then .swapped else .idle, slot := 0xFF, waitingSince := d.eff, idleSince := 0 }
    else d
  | .idle =>
    if !w then d else
    let d := d.raiseV c
    if c ≥ 1024 then d.modCtx c fun x => { x with state := .runnable }
    else match d.slotFor with
      | some s => (d.takeSlot s c).residentState c
      | none => d.modCtx c fun x => { x with state := .swapped, waitingSince := d.eff }
  | .swapped => if w then d else d.modCtx c fun x => { x with state := .idle }
  | _ =>
    let was := x.state = .blocked ∨ x.idleSince = 0
    let d := if w ∧ x.idleSince ≠ 0 then d.raiseV c else d
    let d := d.residentState c
    if w then d.modCtx c fun x => { x with idleSince := 0 }
    else if was then d.modCtx c fun x => { x with idleSince := d.eff + 1 } else d

/-- Stop requests of one cause for every instance of a context (R310). -/
def stopPrec : StopCause → Nat
  | .fence => 0 | .teardown => 1 | .drainLimit => 2 | .selfTest => 3 | .realTime => 4 | .lending => 5 | .eviction => 6
  | .sharePreempt => 7 | .programEnd => 8

/-- A stop request reaches a core: it follows the first cause in Table 13-2. -/
def Core.request (x : Core) (now : Nat) (cause : StopCause) : Core :=
  if x.inst.isNone then x else
  match x.stop with
  | some s => if stopPrec cause < stopPrec s then { x with stop := some cause } else x
  | none => { x with stop := some cause, stopAt := now }

def Dev.stopCore (d : Dev) (i : Nat) (cause : StopCause) : Dev := d.modCore i fun x => x.request d.time.osc cause

/-- Cores with an instance of a context. -/
def Dev.coresOf (d : Dev) (c : Nat) : List Nat :=
  (d.cores.filter fun (_, x) => match x.inst with | some i => i.ctx == c | none => false).map Prod.fst

/-- Evict a context: it enters DRAINING and its instances are pre-empted (R311). -/
def Dev.evict (d : Dev) (c : Nat) : Dev :=
  let d := d.setSched { d.sched with evict := sat32 (d.sched.evict + 1) }
  let d := (d.coresOf c).foldl (fun d i => d.stopCore i .eviction) d
  d.modCtx c fun x => { x with state := .draining, drainEnd := d.time.osc + 1000 * d.reg .schDrain 0, block := 0, blockStart := 0 }

/-- SWAPPED contexts that could run, the lowest V first, then the longest waiting (R311). -/
def Dev.swappedReady (d : Dev) : List Nat :=
  let l := (d.ctxs.filter fun (k, x) => x.state == .swapped && d.canProgress k).map Prod.fst
  sortBy d.vNow (sortBy (fun c => (d.ctx c).waitingSince) l)

/-- Slots that become free go to the contexts that wait (R311). -/
def Dev.fillSlots (d : Dev) : Dev :=
  d.swappedReady.foldl (fun d c => match d.slotFor with
    | some s => (d.takeSlot s c).residentState c
    | none => d) d

/-- Evictions in progress. -/
def Dev.draining (d : Dev) : Nat := (d.ctxs.filter fun (_, x) => x.state == .draining).length

/-- The eviction of R311: every tenant slot is held by a BLOCKED or DRAINING context and a SWAPPED context could run.
The BLOCKED context with the lowest SHARES goes, then the earliest block start, then the lowest number; each waiting
context causes at most one at a time. -/
def Dev.evictBlocked (d : Dev) : Dev :=
  let res := d.residents
  let bd := res.filter fun (_, c) => (d.ctx c).state == .blocked
  if res.length = 48 ∧ d.slotFor = none ∧ res.all (fun (_, c) => (d.ctx c).state == .blocked || (d.ctx c).state == .draining)
      ∧ d.draining < d.swappedReady.length then
    let l := sortBy (fun c => d.reg .schShares c) (sortBy (fun c => (d.ctx c).blockStart) (sortBy id (bd.map Prod.snd)))
    match l with
    | [] => d
    | c :: _ => d.evict c
  else d

/-- Bring contexts, slots and evictions up to date after the work of a context has changed. -/
def Dev.resettle (d : Dev) (c : Nat) : Dev := ((d.settle c).fillSlots).evictBlocked

/-- An order's estimate in µJ is added to its district's (16 R368). -/
def Dev.estimate (d : Dev) (c uj : Nat) : Dev :=
  match d.districtOf c with
  | none => d
  | some k => d.setPower { d.power with estimate := d.power.estimate.set k (nth 0 d.power.estimate k + uj) }

/-- Work admitted to a district still runs (02 R53): an order that has been dispatched and has not completed, a
request, or a program. -/
def Dev.districtBusy (d : Dev) (k : Nat) : Bool :=
  (d.orders.any fun o => d.districtOf o.ctx == some k && o.phase != .fetched) ||
    (d.reqs.any fun r => r.district == k) ||
    d.fields.any fun (_, x) => (x.progs.any fun q => q.2.district == k) || x.queue.any fun p => p.district == k

/-- Chunks of a home range. -/
def homeChunks : Nat := homeBytes / chunkBytes

/-- APPLYING begins (02 R53, 11 R261). The interleave set that the image names without the fenced devices is fixed, and
where it differs from the one in force, every chunk of the home ranges that are kept has still to move, between devices that
show MIGRATING. A district that has become INERT stays so (02 R49, R55). -/
def Dev.startApply (d : Dev) (k : Nat) : Dev :=
  let new := match (parseImage d.survey.target).districts.find? fun x => x.1 == k with
    | none => []
    | some x => (bitsOf x.2.deviceMask 32).filter fun v => !d.fenced kDevice v
  let old := (d.dist k).devices
  let kept := old.filter new.contains
  let moves := if old = new then 0 else kept.length * homeChunks
  let d := d.modDist k fun x => { x with
    state := match x.state with | .inert => .inert | _ => .applying, newSet := some new, migrate := moves }
  let d := if moves = 0 then d else (old ++ new).foldl (fun d v =>
    if d.fenced kDevice v then d else d.putMemDev v { d.memDev v with state := .migrating }) d
  d.setSurvey { d.survey with state := .applying }

/-- Draining ends when no order of the district is running (02 R53): APPLYING begins. -/
def Dev.drainCheck (d : Dev) : Dev :=
  match d.survey.state, d.survey.cmd with
  | .draining, some (_, _, k) => if d.ready = false ∨ d.districtBusy k = true then d else d.startApply k
  | _, _ => d

end Sys2Proof.Machine
end

