-- ==== Sys2Proof/Machine/CacheOps.lean ====
section
/-!
DEFINITION. The model cache: handles, pins, places and evictions (11 R274 to R279).
-/
namespace Sys2Proof.Machine

def entryCount : Nat := 131072

/-- The handle of an entry (R274). -/
def handleOf (idx gen : Nat) : Nat := idx + 2 ^ 24 * (gen % 256)

/-- The entry that a handle names, for a district. -/
def Dev.handle? (d : Dev) (h k : Nat) : Option Nat :=
  let idx := fld h 0 24
  let e := d.entry idx
  if idx < entryCount ∧ e.live ∧ e.gen % 256 = fld h 24 8 ∧ e.district = k then some idx else none

def Dev.modEntry (d : Dev) (i : Nat) (f : CacheEnt → CacheEnt) : Dev := d.putEntry i (f (d.entry i))

/-- Pinned: explicit pins or use pins (R277). -/
def CacheEnt.pinned (e : CacheEnt) : Bool := e.pins != 0 || e.usePins != 0

/-- Bytes of the explicitly pinned entries of a district (R277, Table 11-8). -/
def Dev.pinnedNow (d : Dev) (k : Nat) : Nat :=
  sumNat (d.cache.map fun (_, e) => if e.live ∧ e.district = k ∧ e.pins ≠ 0 then e.bytes else 0)

/-- Bytes explicitly pinned in a district, with the pins that loads in progress will take. -/
def Dev.pinnedBytes (d : Dev) (k : Nat) : Nat :=
  sumNat (d.cache.map fun (_, e) =>
    if e.live ∧ e.district = k ∧ (e.pins ≠ 0 ∨ (e.waiting.any fun w => w.2) = true) then e.bytes else 0)

/-- One explicit pin more on an entry stays within PIN_BUDGET_GIB (R277). -/
def Dev.pinRoom (d : Dev) (i : Nat) : Bool :=
  let e := d.entry i
  let already := e.pins != 0 || e.waiting.any fun w => w.2
  match d.ent? e.district with
  | none => false
  | some x => already || decide (d.pinnedBytes e.district + e.bytes ≤ x.pinBudgetGib * gib)

/-- Write HOME of an entry's descriptor (Table 11-5). -/
def Dev.writeHome (d : Dev) (i : Nat) : Dev :=
  let e := d.entry i
  let h := match e.state with | .resident => e.home | .staged => e.home | .backed => 0 | .loading => 0
  d.storeQuiet (d.hgAcc e.descCtx) e.descCtx (e.descAddr + 48) (le 8 h)

/-- A use pin more or less on an entry; it saturates at no bound here, and MEM_ENTRY shows 255 at most. -/
def Dev.usePin (d : Dev) (i : Nat) : Dev :=
  d.modEntry i fun e => if e.live then { e with usePins := e.usePins + 1, lastUse := d.time.cnt } else e
def Dev.useUnpin (d : Dev) (i : Nat) : Dev := d.modEntry i fun e => { e with usePins := e.usePins - 1 }

/-- The parent of a resident EXPERT holds a use pin (R277). -/
def Dev.parentPin (d : Dev) (i : Nat) (up : Bool) : Dev :=
  let e := d.entry i
  if e.kind = 3 then
    match d.handle? e.parent e.district with
    | some p => if up then d.usePin p else d.useUnpin p
    | none => d
  else d

/-- An entry returns to BACKED (R278): its place is given up and its fixed mapping removed. -/
def Dev.unplace (d : Dev) (i : Nat) : Dev :=
  let d := if (d.entry i).state = .resident then d.parentPin i false else d
  (d.modEntry i fun e => { e with state := .backed, home := 0, toStaging := false }).writeHome i

/-- An entry is deleted: its index's generation advances, and its pins are dropped (R279). -/
def Dev.deleteEntry (d : Dev) (i : Nat) (src : Nat) : Dev :=
  let e := d.entry i
  let d := e.waiting.foldl (fun d w => d.failOrder w.1 0x0155 src) (d.unplace i)
  d.putEntry i { CacheEnt.init with gen := (e.gen + 1) % 256 }

/-- The backing read of a load has failed: the orders that wait for it complete with a code, and the entry is BACKED
(R276). -/
def Dev.loadFail (d : Dev) (i code : Nat) : Dev :=
  let e := d.entry i
  e.waiting.foldl (fun d w => d.failOrder w.1 code (d.hgSource e.descCtx))
    (d.modEntry i fun e => { e with state := .backed, home := 0, toStaging := false, waiting := [] })

/-- The free ranges of an area of a district: its general pool, or its staging area. -/
def Dev.areaRuns (d : Dev) (k : Nat) (staging : Bool) (busy : List (Nat × Nat)) : List (Nat × Nat) :=
  let x := d.dist k
  let all := if staging then [(x.stagingBase, x.stagingGib * gib)] else x.pool
  cutAll (cutAll all busy) (all.flatMap (d.holesIn k))

/-- What an area holds apart from entries. -/
def Dev.areaFixed (d : Dev) (k : Nat) (staging : Bool) : List (Nat × Nat) :=
  if staging then [] else d.mapped k ++ d.oftPlaces k

/-- The unpinned entries of an area, the longest unused first and the lower index on a tie. -/
def Dev.victims (d : Dev) (k : Nat) (staging : Bool) (self : Nat) : List Nat :=
  (sortBy (fun (x : Nat × CacheEnt) => x.2.lastUse) ((d.placed k staging).filter fun (i, e) =>
    i != self && !e.pinned && (e.state == .resident || e.state == .staged))).map Prod.fst

/-- The fit of n bytes in an area as it stands. -/
def Dev.areaFit (d : Dev) (k : Nat) (staging : Bool) (n : Nat) : Option Nat :=
  fit n (d.areaRuns k staging (d.areaFixed k staging ++ (d.placed k staging).map fun (_, e) => (e.home, e.bytes)))

/-- Evict in order until the fit appears (R278). -/
def Dev.evictFor (d : Dev) (k : Nat) (staging : Bool) (n : Nat) : List Nat → Option (Nat × Dev)
  | [] => (d.areaFit k staging n).map fun a => (a, d)
  | v :: r => match d.areaFit k staging n with
    | some a => some (a, d)
    | none => (d.unplace v).evictFor k staging n r

/-- Place n bytes for entry self in an area: none, and nothing evicted, if no fit would exist with every unpinned entry
evicted (R278). -/
def Dev.place (d : Dev) (k : Nat) (staging : Bool) (n self : Nat) : Option (Nat × Dev) :=
  let vs := d.victims k staging self
  let keep := (d.placed k staging).filter fun (i, _) => !vs.contains i
  match fit n (d.areaRuns k staging (d.areaFixed k staging ++ keep.map fun (_, e) => (e.home, e.bytes))) with
  | none => none
  | some _ => d.evictFor k staging n vs

/-- An entry takes its place and its load starts; a place in the general pool of a staged entry is filled from the
staging area at once. None if there is no room. -/
def Dev.startLoad (d : Dev) (i : Nat) (staging : Bool) : Option Dev :=
  let e := d.entry i
  match d.place e.district staging e.bytes i with
  | none => none
  | some (a, d) =>
    if e.state = .staged ∧ staging = false then
      let w := d.hgAcc e.descCtx
      let (bs, d) := d.fetchDev w e.home e.bytes
      some ((((d.storeDev w a bs).modEntry i fun e =>
        { e with state := .resident, home := a, toStaging := false, lastUse := d.time.cnt }).parentPin i true).writeHome i)
    else some (d.modEntry i fun e => { e with state := .loading, home := a, toStaging := staging, since := d.time.osc })

end Sys2Proof.Machine
end

