-- ==== Sys2Proof/Machine/Arith.lean ====
section
/-!
DEFINITION. FP32 operations on words, each the exact result rounded once by RNE (03 R77), with subnormal results kept:
the arithmetic of the units, which a program's mode does not change (05 R125, R131).
-/
namespace Sys2Proof.Machine

def fadd (a b : Nat) : Nat := rne32 (Val.add (f32 a) (f32 b))
def fsub (a b : Nat) : Nat := rne32 (Val.add (f32 a) (Val.neg (f32 b)))
def fmul (a b : Nat) : Nat := rne32 (Val.mul (f32 a) (f32 b))
def fdiv (a b : Nat) : Nat := rne32 (Val.div (f32 a) (f32 b))
def ffma (a b c : Nat) : Nat := rne32 (Val.add (Val.mul (f32 a) (f32 b)) (f32 c))
def fsqrt (a : Nat) : Nat := rne32 (Val.sqrt (f32 a))
def fexp2 (a : Nat) : Nat := rne32 (Val.exp2 (f32 a))
def flog2 (a : Nat) : Nat := rne32 (Val.log2 (f32 a))
def fmax (a b : Nat) : Nat := to32 (Val.max (f32 a) (f32 b))
/-- x · 2^k, rounded. -/
def fscale (a : Nat) (k : Int) : Nat := rne32 (Val.scale k (f32 a))
/-- A natural number as FP32. -/
def fofNat (n : Nat) : Nat := rne32 (Val.ofInt n)

def one32 : Nat := 0x3F800000
def negInf32 : Nat := 0xFF800000
/-- log₂e and ln 2 (05 R131). -/
def log2e32 : Nat := 0x3FB8AA3B
def ln2w : Nat := 0x3F317218

/-- A finite word. -/
def finite32 (a : Nat) : Bool := fld a 23 8 != 255
/-- a lies above +0. -/
def pos32 (a : Nat) : Bool := !bit a 31 && a % 2 ^ 31 != 0 && fld a 23 8 != 255
/-- Finite and not negative. -/
def nonNeg32 (a : Nat) : Bool := finite32 a && (!bit a 31 || a % 2 ^ 31 == 0)

end Sys2Proof.Machine
end

