-- ==== Sys2Proof/Machine/Isa.lean ====
section
/-!
DEFINITION. The instruction words of cores and field stewards: their fields and what makes one valid (04 R94, Tables
04-4, 04-5 and 04-9).
-/
namespace Sys2Proof.Machine

/-- Bits [63:56]. -/
def opOf (w : Nat) : Nat := fld w 56 8

/-- The formats of Table 04-4. -/
inductive IFmt where
  | c | m | t | x | v | f
deriving DecidableEq, Repr

/-- The format of a core opcode (Table 04-5). -/
def coreFmt (op : Nat) : Option IFmt :=
  if op ≤ 0x0C then some .c
  else if 0x10 ≤ op ∧ op ≤ 0x12 then some .m
  else if op = 0x13 ∨ op = 0x14 then some .x
  else if 0x20 ≤ op ∧ op ≤ 0x25 then some .t
  else if 0x30 ≤ op ∧ op ≤ 0x32 then some .x
  else if 0x40 ≤ op ∧ op ≤ 0x55 ∨ op = 0x58 then some .v
  else none

/-- Opcodes that only a Basin core has. -/
def basinOnly (op : Nat) : Bool := [0x13, 0x14, 0x22, 0x23, 0x24].contains op

/-- The reserved bits of a format are 0 (Table 04-4). -/
def reservedZero : IFmt → Nat → Bool
  | .c, _ => true
  | .m, w => fld w 32 4 == 0 && fld w 46 2 == 0
  | .t, w => fld w 50 6 == 0 && fld w 16 27 == 0
  | .x, w => fld w 38 2 == 0 && fld w 24 8 == 0
  | .v, w => fld w 32 2 == 0 && fld w 26 6 == 0
  | .f, w => fld w 48 4 == 0

/-- A core instruction is defined for the core's type, and its reserved bits are 0 (R94, R99: TR only on a Basin
core). -/
def coreWordOk (runnel : Bool) (w : Nat) : Bool :=
  let op := opOf w
  match coreFmt op with
  | none => false
  | some fm => !(runnel && basinOnly op) && reservedZero fm w &&
      !((op == 0x05 || op == 0x06) && fld w 46 2 != 0) && !(op == 0x10 && runnel && bit w 41)

/-- A steward instruction is defined, and its reserved bits are 0. -/
def stewWordOk (w : Nat) : Bool := decide (0x80 ≤ opOf w ∧ opOf w ≤ 0x8A) && reservedZero .f w

/-- The words of code. -/
def codeWords (b : Bytes) : List Nat := (List.range (b.length / 8)).map fun i => leAt b (8 * i) 8

/-- Bits [51:48] of format C: COND. -/
def iCond (w : Nat) : Nat := fld w 48 4
/-- Bits [55:52]: PTR, PTR_D or PARAM. -/
def iPtr (w : Nat) : Nat := fld w 52 4
def imm16 (w : Nat) : Nat := fld w 32 16
def imm32 (w : Nat) : Nat := fld w 0 32

end Sys2Proof.Machine
end

