-- ==== Sys2Proof/Machine/ProgOps.lean ====
section
/-!
DEFINITION. Field programs: their format and checks (04 R104, R105), and how they reach a steward (R83, R112).
-/
namespace Sys2Proof.Machine

/-- Image k of a program. -/
def imgAt (b : Bytes) (k : Nat) : Img :=
  let o := 64 + 16 * k
  { runnel := leAt b o 1 == 2, countMin := leAt b (o + 1) 1, countMax := leAt b (o + 2) 1,
    code := (b.drop (leAt b (o + 4) 4)).take (leAt b (o + 8) 4), pondBase := leAt b (o + 12) 4 }

/-- The format of image k (Table 04-7): a value that the table does not allow is 0x01B0 (DEDUCED, log entry 130). -/
def imgFormat (b : Bytes) (total k : Nat) : Bool :=
  let o := 64 + 16 * k
  let ty := leAt b o 1
  let most := if ty = 2 then 4 else 12
  let lo := leAt b (o + 1) 1
  let hi := leAt b (o + 2) 1
  let off := leAt b (o + 4) 4
  let len := leAt b (o + 8) 4
  (ty == 1 || ty == 2) && decide (1 ≤ lo ∧ lo ≤ most ∧ lo ≤ hi ∧ hi ≤ most) && leAt b (o + 3) 1 == 0 &&
    off % 8 == 0 && decide (8 ≤ len) && len % 8 == 0 && decide (off + len ≤ total) && leAt b (o + 12) 4 % 4096 == 0

/-- REFUSED_PROG_FORMAT does not apply (Table 04-8). -/
def progFormat (b : Bytes) : Bool :=
  let n := leAt b 7 1
  let total := leAt b 8 4
  leAt b 0 4 == 0x47525046 && leAt b 4 2 == 1 && decide (leAt b 6 1 ≤ 2) && decide (1 ≤ n ∧ n ≤ 16) &&
    decide (64 + 16 * n ≤ total) && leAt b 12 4 % 8 == 0 && decide (8 ≤ leAt b 16 4) && leAt b 16 4 % 8 == 0 &&
    decide (leAt b 12 4 + leAt b 16 4 ≤ total) && leAt b 20 4 % 8 == 0 && decide (leAt b 20 4 + leAt b 24 4 ≤ total) &&
    leAt b 28 4 != 0 && allZero ((b.drop 32).take 32) && (List.range n).all (imgFormat b total)

/-- Bytes of the backed pond of a core type (04 R88). -/
def pondOf (runnel : Bool) : Nat := if runnel then 0x180000 else 0x300000

/-- REFUSED_PROG_SIZE does not apply. -/
def progSize (b : Bytes) : Bool :=
  decide (leAt b 8 4 ≤ 0x200000) && decide (leAt b 16 4 ≤ 65536) && decide (leAt b 24 4 ≤ 65536) &&
    (List.range (leAt b 7 1)).all fun k =>
      let i := imgAt b k
      decide (leAt b (64 + 16 * k + 8) 4 ≤ 65536) && decide (i.pondBase + leAt b (64 + 16 * k + 8) 4 ≤ pondOf i.runnel)

/-- REFUSED_PROG_OPCODE does not apply. -/
def progOpcodes (b : Bytes) : Bool :=
  (codeWords ((b.drop (leAt b 12 4)).take (leAt b 16 4))).all stewWordOk &&
    (List.range (leAt b 7 1)).all fun k => (codeWords (imgAt b k).code).all (coreWordOk (imgAt b k).runnel)

/-- A core that takes work: the device has it, and neither it nor its field is fenced (04 R84, 17 R386). -/
def Dev.usable (d : Dev) (i : Nat) : Bool :=
  bit d.startup.availCores i && !d.fenced kCore i && !d.fenced kField (i / 16)

/-- Usable cores of a type in a field. -/
def Dev.usableOf (d : Dev) (f : Nat) (runnel : Bool) : List Nat :=
  (coresIn f).filter fun i => isRunnel i == runnel && d.usable i

/-- A field of district k that a program can run on. -/
def Dev.fieldUsable (d : Dev) (k f : Nat) : Bool := bit (d.dist k).fields f && !d.fenced kField f

/-- The bytes of a program of a context: its header, and TOTAL_LENGTH bytes as far as the limit. -/
def Dev.progBytes (d : Dev) (c addr : Nat) : Option Bytes :=
  match d.readCtx (d.hgAcc c) c addr 64 with
  | .error _ => none
  | .ok (h, _) => match d.readCtx (d.hgAcc c) c addr (max 64 (min (leAt h 8 4) 0x200000)) with
    | .error _ => none
    | .ok (b, _) => some b

/-- The checks of Table 04-8 in their order, for the fields a program starts on: 0, or the code. -/
def Dev.progCode (d : Dev) (k : Nat) (b : Bytes) (fields : List Nat) : Nat :=
  if !progFormat b then 0x01B0
  else if !progSize b then 0x01B2
  else if !progOpcodes b then 0x01B1
  else if !fields.all (d.fieldUsable k) then 0x01B3
  else if (List.range (leAt b 7 1)).any fun j =>
      fields.any fun f => decide ((d.usableOf f (imgAt b j).runnel).length < (imgAt b j).countMin) then 0x01B4
  else 0

/-- The program of a block of bytes (R104), as a steward loads it. -/
def Dev.progOf (d : Dev) (kind : ProgKind) (c k : Nat) (pool : Pool) (b : Bytes) (rank : Nat) : Prog :=
  let dfl := d.reg .gauMode k
  let nan := d.reg .gauConvNan k
  { kind, ctx := c, district := k, pool,
    strict := leAt b 6 1 == 2 || (leAt b 6 1 == 0 && dfl == 1), convNan := nan == 1,
    imgs := (List.range (leAt b 7 1)).map (imgAt b), cycleLimit := leAt b 28 4,
    code := (b.drop (leAt b 12 4)).take (leAt b 16 4), data := (b.drop (leAt b 20 4)).take (leAt b 24 4), pc := 0,
    loops := [], setp := [], foppt := none, wait := .none, rank, events := List.replicate 8 0, waitMark := 0,
    ending := none, runs := [], afterRecompute := none, table := [] }

/-- A field wakes when a program reaches its steward (R112). -/
def Dev.wakeField (d : Dev) (f : Nat) : Dev :=
  match (d.field f).state with
  | .off => (d.modField f fun x => { x with state := .waking }).wake (2 + f)
  | .gated => (d.modField f fun x => { x with state := .waking }).wake (2 + f)
  | _ => d

/-- A program reaches a field: a free slot takes it, or it waits in arrival order (R83). -/
def Dev.startProg (d : Dev) (f : Nat) (p : Prog) : Dev :=
  let x := d.field f
  match (List.range 4).find? fun s => nth none x.slots s == none with
  | some s => (d.putField f { x with slots := x.slots.set s (some p) }).wakeField f
  | none => d.putField f { x with queue := x.queue ++ [p] }

/-- A slot becomes free: the program that waits longest takes it (R83). -/
def Dev.nextProg (d : Dev) (f s : Nat) : Dev :=
  let x := d.field f
  match x.queue with
  | [] => d.putField f { x with slots := x.slots.set s none }
  | p :: r => d.putField f { x with slots := x.slots.set s (some p), queue := r }

/-- The program in a slot. -/
def Dev.prog (d : Dev) (f s : Nat) : Option Prog := nth none (d.field f).slots s

/-- Change the program in a slot. -/
def Dev.modProg (d : Dev) (f s : Nat) (g : Prog → Prog) : Dev :=
  match d.prog f s with
  | none => d
  | some p => d.modField f fun x => { x with slots := x.slots.set s (some (g p)) }

/-- Steward data memory with bytes laid over it; it is 64 KiB, zero where the program gives no data. -/
def Prog.setData (p : Prog) (o : Nat) (v : Bytes) : Prog :=
  { p with data := overlay (p.data ++ zeros (o + v.length - p.data.length)) o v }

/-- n bytes of steward data memory. -/
def Prog.dataAt (p : Prog) (o n : Nat) : Bytes := ((p.data ++ zeros (o + n - p.data.length)).drop o).take n

/-! ### Steps of code (R97, R106) -/

/-- The loop levels, the innermost first, and the address of the instruction to run, for code that has come to pc. -/
def loopStep : List Loop → Nat → List Loop × Nat
  | [], pc => ([], pc)
  | l :: r, pc =>
    if pc = l.stop then (if 0 < l.left then ({ l with left := l.left - 1 } :: r, l.start) else loopStep r pc)
    else (l :: r, pc)

/-- A LOOP or FLOOP at pc, with the end of the code: the code of its fault, or the loop levels and the next address.
deep and past are the faults of a fifth level and of a body past the end. -/
def loopStart (ls : List Loop) (pc body count stop deep past : Nat) : Except Nat (List Loop × Nat) :=
  let last := pc + 8 + 8 * body
  if last > stop then .error past
  else if body = 0 ∨ count = 0 then .ok (loopStep ls last)
  else if ls.length = 4 then .error deep
  else .ok ({ start := pc + 8, stop := last, left := count - 1 } :: ls, pc + 8)

/-- The next instruction word of a program; none past its code. -/
def Prog.word (p : Prog) : Option Nat := if p.pc + 8 ≤ p.code.length then some (leAt p.code p.pc 8) else none

/-- The program goes on behind the instruction it has executed. -/
def Prog.next (p : Prog) : Prog :=
  { p with wait := .none, loops := (loopStep p.loops (p.pc + 8)).1, pc := (loopStep p.loops (p.pc + 8)).2 }

end Sys2Proof.Machine
end

