-- ==== Sys2Proof/Machine/FlumeOps.lean ====
section
/-!
DEFINITION. The Flume (05 R125 to R141): descriptors, rows, slots and the end of a job.
-/
namespace Sys2Proof.Machine

def Dev.flume (d : Dev) (n : Nat) : Flume := Tbl.get Flume.init d.flumes n
def Dev.putFlume (d : Dev) (n : Nat) (x : Flume) : Dev := d.setFlumes (Tbl.set Flume.init d.flumes n x)
def Dev.modFlume (d : Dev) (n : Nat) (f : Flume → Flume) : Dev := d.putFlume n (f (d.flume n))
def Dev.fjob (d : Dev) (n j : Nat) : FlumeJob := Tbl.get FlumeJob.init (d.flume n).jobs j
def Dev.putFjob (d : Dev) (n j : Nat) (x : FlumeJob) : Dev :=
  d.modFlume n fun y => { y with jobs := Tbl.set FlumeJob.init y.jobs j x }
def Dev.modFjob (d : Dev) (n j : Nat) (f : FlumeJob → FlumeJob) : Dev := d.putFjob n j (f (d.fjob n j))

/-! ### Programs and records -/

/-- The order that a program runs for. -/
def ProgKind.order? : ProgKind → Option OrderId
  | .order o => some o
  | _ => none

/-- TAG of a program's order, or 0 (14 Table 14-7). -/
def Dev.kindTag (d : Dev) (k : ProgKind) : Nat :=
  match k.order? with
  | none => 0
  | some o => match d.order? o with | none => 0 | some x => x.tag

/-- An error record of a program's work: it carries the order's TAG, and the order's completion says so. -/
def Dev.recordFor (d : Dev) (k : ProgKind) (ctx src status mark count : Nat) (detail : List Nat) : Dev :=
  let d := match k.order? with
    | none => d
    | some o => d.modOrder o fun x => { x with records := true }
  d.record { status, ctx, source := src, mark, count, tag := d.kindTag k, detail }

/-- The live TRAIN_STEP of a program, if it runs one. -/
def Dev.stepOf (d : Dev) (k : ProgKind) : Option StepOrd :=
  match k.order? with
  | none => none
  | some o => d.steps.find? fun x => x.o == o

/-- What keys the rounding of a program (07 R169). -/
def Dev.progKey (d : Dev) (k : ProgKind) : RndKey :=
  match d.stepOf k with
  | none => { seed := 0, step := 0, attempt := 0 }
  | some x => { seed := x.seed, step := x.step, attempt := x.attempt }

/-- The loss-scale exponent that a program's Flume jobs use (05 R131, 07 R173). -/
def Dev.progLs (d : Dev) (k : ProgKind) (dist : Nat) : Nat :=
  match d.stepOf k with | none => (d.gauge dist).ls | some x => x.ls

/-! ### Descriptors -/

/-- A Flume job descriptor (Table 05-4). -/
def parseFlume (b : Bytes) : FlumeDesc :=
  { job := leAt b 0 1, flags := leAt b 1 1, outFmt := leAt b 2 1, tiles := leAt b 3 1, topk := leAt b 4 2,
    slots := leAt b 6 2, rows := leAt b 8 4, width := leAt b 12 4, invTau := leAt b 16 4, wMain := leAt b 20 4,
    wCe := leAt b 24 4, gradTensor := leAt b 28 4, slotBase := leAt b 32 8, labelAddr := leAt b 40 8,
    targetAddr := leAt b 48 8, rowLossAddr := leAt b 56 8, resultAddr := leAt b 64 8, holdAddr := leAt b 72 8,
    holdBytes := leAt b 80 4, rowBase := leAt b 84 4, gateIn := leAt b 88 2, gateDone := leAt b 90 2 }

def FlumeDesc.head (x : FlumeDesc) : Bool := x.job == 1 || x.job == 2
def FlumeDesc.ce (x : FlumeDesc) : Bool := bit x.flags 0
def FlumeDesc.targetIn (x : FlumeDesc) : Bool := bit x.flags 1
def FlumeDesc.targetOut (x : FlumeDesc) : Bool := bit x.flags 2
def FlumeDesc.rowLoss (x : FlumeDesc) : Bool := bit x.flags 3
def FlumeDesc.labels (x : FlumeDesc) : Bool := bit x.flags 4

/-- REFUSED_FLUME_JOB does not apply. -/
def FlumeDesc.ok (x : FlumeDesc) (b : Bytes) : Bool :=
  decide (1 ≤ x.job ∧ x.job ≤ 4) && decide (x.flags < 32) && (x.head || x.flags % 8 == 0) &&
    (x.job == 2 || fld x.flags 1 2 == 0) && (x.outFmt == 1 || x.outFmt == 2 || x.outFmt == 4) &&
    decide (1 ≤ x.tiles ∧ x.tiles ≤ 64) &&
    (if x.job = 2 then decide (16 ≤ x.topk ∧ x.topk ≤ 256) else x.topk == 0) && decide (2 ≤ x.slots ∧ x.slots ≤ 64) &&
    decide (1 ≤ x.width ∧ x.width ≤ (if x.head then 4194304 else 65536)) &&
    (if x.head then pos32 x.invTau else x.invTau == 0) && nonNeg32 x.wMain && nonNeg32 x.wCe && allZero (b.drop 92)

def slotBytes : Nat := 0x101000

/-- Bytes of a job's footprint (R130). -/
def FlumeDesc.footprint (x : FlumeDesc) : Nat :=
  x.slots * slotBytes + roundUp (x.tiles * 64 * (64 + 12 * x.topk)) 4096

/-- Live jobs of an instance. -/
def Flume.live (x : Flume) : List (Nat × FlumeJob) := x.jobs.filter fun (_, j) => j.state != .free

/-- The footprint lies in the district's share and apart from those of live jobs (R130). -/
def Dev.footprintOk (d : Dev) (n k : Nat) (x : FlumeDesc) : Bool :=
  let (b, l) := d.shareOf k 1 n
  decide (l ≠ 0 ∧ b ≤ x.slotBase ∧ x.slotBase + x.footprint ≤ b + l) &&
    (d.flume n).live.all fun (_, j) =>
      j.desc.rows == 0 || !overlap x.slotBase x.footprint j.desc.slotBase j.desc.footprint

/-- Bytes of a target record (R136). -/
def FlumeDesc.record (x : FlumeDesc) : Nat := 8 + 8 * x.topk

/-- REFUSED_FLUME_ADDRESS does not apply: alignment to the elements, the context's memory, and Gates it holds. -/
def Dev.flumeAddrOk (d : Dev) (c : Nat) (x : FlumeDesc) : Bool :=
  x.slotBase % 4096 == 0 &&
    (!x.labels || (x.labelAddr % 4 == 0 && d.rangeOk c x.labelAddr (4 * x.rows) false)) &&
    (!(x.targetIn || x.targetOut) ||
      (x.targetAddr % 4 == 0 && d.rangeOk c x.targetAddr (x.record * x.rows) x.targetOut)) &&
    (!x.rowLoss || (x.rowLossAddr % 4 == 0 && d.rangeOk c x.rowLossAddr (8 * x.rows) true)) &&
    x.resultAddr % 8 == 0 && d.rangeOk c x.resultAddr 64 true && d.holds c x.gateIn && d.holds c x.gateDone

/-- Ranges of a district's Cistern: its Reservoir shares and its spill region (06 R150). -/
def Dev.cisternRanges (d : Dev) (k : Nat) : List (Nat × Nat) :=
  ((List.range 4).map fun t => d.shareOf k 2 t) ++ [((d.dist k).spillBase, (d.dist k).spillGib * gib)]

/-- The size of a Cistern granule (06 R150). -/
def granule : Nat := 65536

/-- Bytes of whole granules. -/
def granules (n : Nat) : Nat := roundUp n granule

/-- The granules that a range touches. -/
def granulesOf (r : Nat × Nat) : Nat × Nat :=
  (r.1 / granule * granule, roundUp (r.1 + r.2) granule - r.1 / granule * granule)

/-- The granules that holds of Flume jobs occupy: every one that a hold touches (06 R150). -/
def Dev.holds05 (d : Dev) : List (Nat × Nat) :=
  d.flumes.flatMap fun (_, x) => x.live.filterMap fun (_, j) =>
    if j.desc.holdBytes = 0 ∨ j.desc.rows = 0 then none
    else some (granulesOf (j.desc.holdAddr, j.desc.holdBytes))

/-- REFUSED_FLUME_HOLD does not apply (R139): the hold lies in the Cistern and touches no occupied granule (06 R150). -/
def Dev.holdOk (d : Dev) (k : Nat) (x : FlumeDesc) : Bool :=
  x.holdBytes == 0 ||
    (x.holdBytes % 4096 == 0 &&
      ((d.cisternRanges k).any fun r => decide (r.1 ≤ x.holdAddr ∧ x.holdAddr + x.holdBytes ≤ r.1 + r.2)) &&
      (d.holds05 ++ d.claims.map fun c => (c.base, c.bytes)).all fun r =>
        !overlap (granulesOf (x.holdAddr, x.holdBytes)).1 (granulesOf (x.holdAddr, x.holdBytes)).2 r.1 r.2)

/-- The first code of Table 05-6 that applies, or 0. A job with no row claims nothing; a district without a share has
every job refused (R130). -/
def Dev.flumeCode (d : Dev) (n c k : Nat) (x : FlumeDesc) (b : Bytes) : Nat :=
  if !x.ok b then 0x01A0
  else if (x.rows ≠ 0 ∧ d.footprintOk n k x = false) ∨ (d.shareOf k 1 n).2 = 0 then 0x01A1
  else if !d.flumeAddrOk c x then 0x01A2
  else if x.rows ≠ 0 ∧ d.holdOk k x = false then 0x01A4
  else 0

/-! ### The end of a job (R140, R141) -/

/-- The result record (Table 05-5). -/
def FlumeJob.result (j : FlumeJob) (status : Nat) : Bytes :=
  le 2 status ++ le 1 j.desc.job ++ le 1 j.ls ++ le 4 j.tokens ++ le 4 j.excluded ++ le 4 j.bad ++
    le 4 (to32 j.sumMain) ++ le 4 (to32 j.sumCe) ++ zeros 8 ++ le 8 j.startMark ++ le 8 j.endMark ++ zeros 16

/-- The error records of a job's events. -/
def Dev.jobRecords (d : Dev) (n : Nat) (kind : ProgKind) (j : FlumeJob) : Dev :=
  (List.range 5).foldl (fun d i =>
    if nth 0 j.events i = 0 then d
    else d.recordFor kind j.ctx (srcFlume n) (0x0630 + i) j.endMark (nth 0 j.events i) []) d

/-- A job ends: its result record, its error records, and its context is free (R140). Its token count goes to the
field's part. -/
def Dev.endFjob (d : Dev) (n j status : Nat) : Dev :=
  let x := d.fjob n j
  if x.state = .free then d else
  let kind := match d.prog x.field x.pslot with | some p => p.kind | none => .decode 0
  let w := progAcc n x.field x.pslot
  let d := if status = 0 then d.storeCtx w x.ctx x.desc.resultAddr (x.result 0)
    else d.storeQuiet w x.ctx x.desc.resultAddr (x.result status)
  let d := d.jobRecords n kind x
  let d := d.setParts (d.parts.map fun p =>
    if some p.o = kind.order? ∧ p.field = x.field then { p with tokens := p.tokens + x.tokens } else p)
  d.modFlume n fun y => { y with
    jobs := Tbl.set FlumeJob.init y.jobs j FlumeJob.init
    engines := y.engines.map fun e => match e with
      | some (i, m) => if i = j then none else some (i, m)
      | none => none }

/-- Every Flume job that a program has kicked is abandoned, with the status the program ends with (R140). -/
def Dev.abandonFlume (d : Dev) (f s status : Nat) : Dev :=
  (List.range 4).foldl (fun d n =>
    (d.flume n).live.foldl (fun d (j, x) => if x.field = f ∧ x.pslot = s then d.endFjob n j status else d) d) d

/-! ### Acceptance (R131, R137, R138) -/

/-- A job accepted in a free context. -/
def Dev.acceptFlume (d : Dev) (n f s : Nat) (p : Prog) (x : FlumeDesc) : Dev × FlumeJob :=
  let ls := d.progLs p.kind p.district
  let key := d.progKey p.kind
  let (m, d) := d.mark (srcFlume n)
  let w2 := if x.job = 3 then fdiv (fmul 0x40000000 x.wMain) (fofNat x.width) else x.wMain
  (d, { FlumeJob.init with
    state := .waiting, ctx := p.ctx, district := p.district, field := f, pslot := s, desc := x,
    g0 := (d.gate x.gateIn).value.toNat, ls := ls, convNan := p.convNan, kt := fmul x.invTau log2e32,
    ckd := fscale (fmul x.wMain x.invTau) ls, cce := fscale x.wCe ls, cf := fscale w2 ls, startMark := m, endMark := m,
    seed := key.seed, step := key.step, attempt := key.attempt })

/-- What an FKICK came to: refused with a code, waiting for a job context, or accepted. -/
inductive Kick where
  | refused (code : Nat)
  | wait
  | done (d : Dev)

/-- A kick of a Flume (R125, R142). -/
def Dev.kickFlume (d : Dev) (n f s : Nat) (p : Prog) (b : Bytes) : Kick :=
  let x := parseFlume b
  let code := d.flumeCode n p.ctx p.district x b
  if code ≠ 0 then .refused code
  else if x.rows = 0 then
    let (d, j) := d.acceptFlume n f s p x
    .done (d.storeCtx (progAcc n f s) p.ctx x.resultAddr (j.result 0))
  else match (List.range 8).find? fun j => (d.fjob n j).state == .free with
    | none => .wait
    | some i => let (d, j) := d.acceptFlume n f s p x; .done (d.putFjob n i j)

/-! ### Rows (R126, R132 to R138) -/

/-- A label as it is read, and whether that raises event 0x0633 (R126). -/
def readLabel (x : FlumeDesc) (v : Int) : RowKind × Bool :=
  if v = -2 then (.excluded, false)
  else if !x.head then (.plain, false)
  else if v = -1 then (.plain, false)
  else if v < 0 then (.excluded, true)
  else if v ≥ x.width then (.plain, true)
  else (.labelled v.toNat, false)

def FlumeDesc.kTop (x : FlumeDesc) : Nat := min x.topk x.width

/-- A target record read under TARGET_IN, or none if it is bad (R136). -/
def FlumeDesc.targets (x : FlumeDesc) (b : Bytes) : Option (Nat × List TopEnt) :=
  let l := (List.range x.kTop).map fun i =>
    ({ zt := 0, zs := 0, col := leAt b (8 + 8 * i) 4, p := leAt b (12 + 8 * i) 4, at_ := 0, as_ := 0 } : TopEnt)
  let tail := leAt b 4 4
  if leAt b 0 2 = x.kTop ∧ l.all (fun e => decide (e.col < x.width)) = true ∧ allDistinct (l.map fun e => e.col) = true
      ∧ l.all (fun e => nonNeg32 e.p) = true ∧ nonNeg32 tail = true
  then some (tail, l.map fun e => { e with at_ := flog2 e.p }) else none

/-- Row r of a job as its tile opens, with the events it raises. -/
def Dev.openRow (d : Dev) (c : Nat) (x : FlumeDesc) (r : Nat) : RowSt × List Nat :=
  let (kind, ev) := if x.labels then readLabel x (sgn 32 (ofLe (d.loadCtx c (x.labelAddr + 4 * r) 4))) else (.plain, false)
  let evs := if ev then [3] else []
  let row : RowSt := { RowSt.init with kind := kind }
  if x.job = 2 ∧ x.targetIn = true ∧ kind ≠ .excluded then
    match x.targets (d.loadCtx c (x.targetAddr + x.record * r) x.record) with
    | none => ({ row with kind := .excluded }, evs ++ [4])
    | some (tail, l) => ({ row with pTail := tail, top := l }, evs)
  else (row, evs)

/-- A value that makes a row bad: a NaN, and +infinity for a logit or any infinity for a feature. -/
def badVal (feature : Bool) (c : Nat) : Bool :=
  match f32 c with
  | .nan => true
  | .inf s => feature || !s
  | .fin _ _ _ => false

/-- One model's statistics over a chunk (pass1 of R132). -/
def pass1Model (k m s : Nat) (z : List Nat) : Nat × Nat :=
  let u := z.map fun v => fmul v k
  let mn := u.foldl fmax m
  if mn = negInf32 then (m, s) else
  let s := if m = negInf32 then s else fmul s (fexp2 (fsub m mn))
  (mn, u.foldl (fun s v => fadd s (fexp2 (fsub v mn))) s)

/-- Insert an entry into the top entries by the order of R79, the lower column first on ties, keeping n. -/
def topInsert (n : Nat) (e : TopEnt) (l : List TopEnt) : List TopEnt :=
  let above := l.takeWhile fun x => !Val.gt (f32 e.zt) (f32 x.zt)
  (above ++ e :: l.drop above.length).take n

/-- The row model 1 is in use (R131). -/
def RowSt.hard (r : RowSt) (x : FlumeDesc) : Bool :=
  x.ce && match r.kind with | .labelled _ => true | _ => false

/-- A head row over a chunk of pass 1: columns from c0 on. -/
def RowSt.headPass1 (r : RowSt) (x : FlumeDesc) (kt c0 : Nat) (zt zs : List Nat) : RowSt :=
  let useT := !x.targetIn
  let (mt, st) := if useT then pass1Model kt r.mt r.st zt else (r.mt, r.st)
  let (ms, ss) := pass1Model kt r.ms r.ss zs
  let (m1, s1) := if r.hard x then pass1Model log2e32 r.m1 r.s1 zs else (r.m1, r.s1)
  let ul := match r.kind with
    | .labelled l => if c0 ≤ l ∧ l < c0 + zs.length then fmul (nth 0 zs (l - c0)) log2e32 else r.ul
    | _ => r.ul
  let top := if x.job ≠ 2 then r.top
    else if x.targetIn then r.top.map fun e => if c0 ≤ e.col ∧ e.col < c0 + zs.length then { e with zs := nth 0 zs (e.col - c0) } else e
    else (List.range zt.length).foldl (fun l i =>
      topInsert x.kTop { zt := nth 0 zt i, zs := nth 0 zs i, col := c0 + i, p := 0, at_ := 0, as_ := 0 } l) r.top
  { r with mt, st, ms, ss, m1, s1, ul, top,
           bad := r.bad || zs.any (badVal false) || (useT && zt.any (badVal false)) }

/-- end_pass1 of R134 for a row of HEAD_TOPK; the events it raises. -/
def RowSt.topEnd (r : RowSt) (x : FlumeDesc) (kt : Nat) : RowSt × List Nat :=
  let top := r.top.map fun e =>
    let as_ := fsub (fmul e.zs kt) r.ls
    if x.targetIn then { e with as_ := as_ }
    else let a := fsub (fmul e.zt kt) r.lt; { e with at_ := a, as_ := as_, p := fexp2 a }
  let sp := top.foldl (fun s e => fadd s e.p) 0
  let ss := top.foldl (fun s e => fadd s (fexp2 e.as_)) 0
  let whole := x.kTop == x.width
  let pTail := if x.targetIn then r.pTail else if whole then 0 else fmax (fsub one32 sp) 0
  let st := fsub one32 ss
  let low := !whole && !(f32 st).isNan && Val.gt (f32 0x33800000) (f32 st)
  let sTail := if low then 0x33800000 else st
  let f := if whole then one32 else fsub one32 (fdiv pTail sTail)
  let kl := top.foldl (fun kl e => if e.p % 2 ^ 31 = 0 then kl else fadd kl (fmul e.p (fsub e.at_ e.as_))) 0
  let kl := if pTail % 2 ^ 31 = 0 then kl else fadd kl (fmul pTail (fsub (flog2 pTail) (flog2 sTail)))
  ({ r with top := top, pTail := pTail, tailF := f, kl := kl, main := fmul (fmul kl ln2w) x.wMain }, if low then [2] else [])

/-- The end of a row's pass 1 (R132, R134, R138), with the events it raises. A row that adds nothing (excluded, bad or
degenerate) forms its statistics all the same: its target record holds them (R136). -/
def RowSt.endPass1 (r : RowSt) (x : FlumeDesc) (kt : Nat) : RowSt × List Nat :=
  let silent (r : RowSt) : RowSt :=
    let r := { r with lt := fadd r.mt (flog2 r.st), ls := fadd r.ms (flog2 r.ss) }
    if x.job = 2 then (r.topEnd x kt).1 else r
  if r.kind = .excluded ∨ r.bad then (silent r, [])
  else if x.head then
    let used := (if x.targetIn then [] else [r.mt]) ++ [r.ms] ++ (if r.hard x then [r.m1] else [])
    if used.contains negInf32 then ({ silent r with degenerate := true }, [1]) else
    let r := { r with lt := fadd r.mt (flog2 r.st), ls := fadd r.ms (flog2 r.ss), l1 := fadd r.m1 (flog2 r.s1) }
    if x.job = 2 then r.topEnd x kt else (r, [])
  else if r.fb % 2 ^ 31 = 0 ∨ r.fc % 2 ^ 31 = 0 then ({ r with degenerate := true }, [1])
  else
    let n := fmul (fsqrt r.fb) (fsqrt r.fc)
    let c := fdiv r.fa n
    ({ r with cosv := c, alpha := fdiv one32 n, beta := fdiv c r.fb }, [])

/-- A feature row over a chunk of pass 1 (R138). -/
def RowSt.cosPass1 (r : RowSt) (ht hs : List Nat) : RowSt :=
  let step (r : RowSt) (p : Nat × Nat) : RowSt :=
    { r with fa := ffma p.2 p.1 r.fa, fb := ffma p.2 p.2 r.fb, fc := ffma p.1 p.1 r.fc }
  let r := (ht.zip hs).foldl step r
  { r with bad := r.bad || ht.any (badVal true) || hs.any (badVal true) }

/-- The gradient of a column of an included row, and its row, in pass 2 (R133, R135, R137, R138). -/
def RowSt.grad (r : RowSt) (x : FlumeDesc) (j : FlumeJob) (v zt zs : Nat) : Nat × RowSt :=
  if x.job = 3 then
    let dd := fsub zs zt
    (fmul j.cf dd, { r with fe := ffma dd dd r.fe })
  else if x.job = 4 then (fmul j.cf (fsub (fmul zs r.beta) (fmul zt r.alpha)), r)
  else
    let as_ := fsub (fmul zs j.kt) r.ls
    let ps := fexp2 as_
    let a := fsub (fmul zt j.kt) r.lt
    let pt := fexp2 a
    let term := if x.job = 1 then fsub ps pt
      else match r.top.find? fun e => e.col == v with
        | some e => fsub ps e.p
        | none => fmul ps r.tailF
    let g := fmul j.ckd term
    let g := match r.kind with
      | .labelled l => if x.ce then ffma j.cce (fsub (fexp2 (fsub (fmul zs log2e32) r.l1)) (if v = l then one32 else 0)) g
        else g
      | _ => g
    let r := if x.job = 1 ∧ pt % 2 ^ 31 ≠ 0 then { r with kl := fadd r.kl (fmul pt (fsub a as_)) } else r
    (g, r)

/-- The losses of a row at the end of its last pass: main and CE, FP32. -/
def RowSt.losses (r : RowSt) (x : FlumeDesc) : Nat × Nat :=
  if r.kind = .excluded ∨ r.degenerate then (0, 0)
  else if r.bad then (nan32, nan32)
  else
    let main := if x.job = 1 then fmul (fmul r.kl ln2w) x.wMain
      else if x.job = 2 then r.main
      else if x.job = 3 then fmul (fdiv r.fe (fofNat x.width)) x.wMain
      else fmul x.wMain (fsub one32 r.cosv)
    (main, if r.hard x then fmul (fmul (fsub r.l1 r.ul) ln2w) x.wCe else 0)

/-- The gradient format of a job. -/
def FlumeDesc.fmt (x : FlumeDesc) : Fmt := if x.outFmt = 1 then .fp32 else if x.outFmt = 2 then .bf16 else .e5m2

/-- The gradient bytes of a row over a chunk, and the row (pass 2). -/
def RowSt.pass2 (r : RowSt) (j : FlumeJob) (row c0 : Nat) (zt zs : List Nat) : RowSt × Bytes :=
  let x := j.desc
  let size := x.fmt.bits / 8
  if r.kind = .excluded ∨ r.degenerate then (r, zeros (size * zs.length))
  else
    let r := if x.job = 3 then { r with bad := r.bad || zt.any (badVal true) || zs.any (badVal true) } else r
    if r.bad then (r, (List.range zs.length).flatMap fun _ => le size x.fmt.nanCode) else
    let key : RndKey := { seed := j.seed, step := j.step, attempt := j.attempt }
    (List.range zs.length).foldl (fun (a : RowSt × Bytes) i =>
      let (g, r) := a.1.grad x j (c0 + i) (nth 0 zt i) (nth 0 zs i)
      let code := if x.outFmt = 1 then g
        else (convert x.fmt (srOf key 0 x.gradTensor ((x.rowBase + row) * x.width + (c0 + i))) j.convNan (f32 g)).1
      (r, a.2 ++ le size code)) (r, [])

/-! ### Slots (R127 to R129) -/

/-- The start of the slot that the n-th post uses. -/
def FlumeDesc.slotAt (x : FlumeDesc) (n : Nat) : Nat := x.slotBase + ((n - 1) % x.slots) * slotBytes

def FlumeDesc.chunks (x : FlumeDesc) : Nat := ceilDiv x.width 2048
def FlumeDesc.firstPass (x : FlumeDesc) : Nat := if x.job = 3 then 2 else 1

/-- Count an event of a job, in the job and in its instance. -/
def Dev.flumeEvents (d : Dev) (n j : Nat) (evs : List Nat) : Dev :=
  evs.foldl (fun d e =>
    (d.modFjob n j fun x => { x with events := bump x.events e }).modFlume n fun y => { y with events := bump y.events e }) d

/-- The tile of a job after a slot of it has been taken, or none where the slot breaks R129. -/
def FlumeJob.nextTile (j : FlumeJob) (tile pass chunk : Nat) : Option Tile :=
  let x := j.desc
  match j.opened.find? fun t => t.tile == tile with
  | some t => if t.pass = pass ∧ t.chunk = chunk ∧ t.pass ≤ 2 then
      (if chunk + 1 = x.chunks then some { t with pass := pass + 1, chunk := 0 } else some { t with chunk := chunk + 1 })
    else none
  | none =>
    if pass = x.firstPass ∧ chunk = 0 ∧ tile < ceilDiv x.rows 64 ∧ j.closed.contains tile = false
        ∧ j.opened.length < x.tiles then
      (if x.chunks = 1 then some { tile, pass := pass + 1, chunk := 0, rows := [] }
       else some { tile, pass, chunk := 1, rows := [] })
    else none

/-- The tile as its rows are first read. -/
def Dev.openTile (d : Dev) (n j tile : Nat) (t : Tile) : Dev × Tile :=
  let x := d.fjob n j
  let k := min 64 (x.desc.rows - 64 * tile)
  let l := (List.range k).map fun r => d.openRow x.ctx x.desc (64 * tile + r)
  (d.flumeEvents n j (l.flatMap fun p => p.2), { t with rows := l.map fun p => p.1 })

/-- Memory that the rows of a tile read as it opens: labels, and target records. -/
def Dev.openReads (d : Dev) (n : Nat) (x : FlumeJob) (tile : Nat) : Dev :=
  let y := x.desc
  let k := min 64 (y.rows - 64 * tile)
  let w := progAcc n x.field x.pslot
  let d := if y.labels then d.reads w x.ctx (y.labelAddr + 256 * tile) (4 * k) else d
  if y.job = 2 ∧ y.targetIn = true then d.reads w x.ctx (y.targetAddr + y.record * (64 * tile)) (y.record * k) else d

/-- The next posted slot of a job, where an engine is free to take it: its number, and the tile, the pass and the chunk
that its header gives. -/
def Dev.nextSlot (d : Dev) (n j : Nat) : Option (Nat × Nat × Nat × Nat) :=
  let x := d.fjob n j
  let m := x.taken + 1
  let posted := w64 ((d.gate x.desc.gateIn).value.toNat + 2 ^ 64 - x.g0)
  let a := x.desc.slotAt m
  if ((d.flume n).engines.contains none) = true ∧ (x.state = .waiting ∨ x.state = .running) ∧ posted ≥ m then
    some (m, d.readLe a 4, d.readLe (a + 6) 1, d.readLe (a + 4) 2)
  else none

/-- The next posted slot of a job breaks R129. -/
def Dev.slotBreaks (d : Dev) (n j : Nat) : Bool :=
  match d.nextSlot n j with
  | none => false
  | some (_, tile, pass, chunk) => ((d.fjob n j).nextTile tile pass chunk).isNone

/-- An engine takes the next posted slot of a job (R128 to R130); one that breaks R129 ends the job. -/
def Dev.takeFlumeSlot (d : Dev) (n j : Nat) : Dev :=
  let x := d.fjob n j
  match d.nextSlot n j, (d.flume n).engines.findIdx? fun e => e == none with
  | some (m, tile, pass, chunk), some e =>
    match x.nextTile tile pass chunk with
    | none => d.endFjob n j 0x01A3
    | some t =>
      let fresh := !x.opened.any fun y => y.tile == tile
      let (d, t) := if fresh then (d.openReads n x tile).openTile n j tile t else (d, t)
      let d := d.modFjob n j fun x => { x with
        state := .running, taken := m
        opened := if fresh then x.opened ++ [t] else x.opened.map fun y => if y.tile = tile then t else y }
      d.modFlume n fun y => { y with engines := y.engines.set e (some (j, m)) }
  | _, _ => d

/-- The FP32 words of a row of a half. -/
def Dev.halfRow (d : Dev) (half row n : Nat) : List Nat :=
  (List.range n).map fun c => d.readLe (half + (row * 2048 + c) * 4) 4

/-- A row's target record (R136). -/
def RowSt.targetBytes (r : RowSt) (x : FlumeDesc) : Bytes :=
  le 2 x.kTop ++ zeros 2 ++ le 4 r.pTail ++
    (List.range x.topk).flatMap fun i => match r.top[i]? with
      | some e => le 4 e.col ++ le 4 e.p
      | none => le 4 0xFFFFFFFF ++ zeros 4

/-- The work of one row of a slot. -/
def Dev.slotRow (d : Dev) (n j a tile pass chunk i : Nat) : Dev :=
  let x := d.fjob n j
  match x.opened.find? fun t => t.tile == tile with
  | none => d
  | some t =>
    let y := x.desc
    let c0 := 2048 * chunk
    let w := min 2048 (y.width - c0)
    let row := 64 * tile + i
    let zt := d.halfRow (a + 0x1000) i w
    let zs := d.halfRow (a + 0x81000) i w
    let last := chunk + 1 == y.chunks
    let r := nth RowSt.init t.rows i
    let put (d : Dev) (r : RowSt) : Dev := d.modFjob n j fun x => { x with
      opened := x.opened.map fun t => if t.tile = tile then { t with rows := t.rows.set i r } else t }
    let acc := progAcc n x.field x.pslot
    if pass = 1 then
      if r.kind = .excluded ∧ (y.targetOut = false ∨ y.targetIn = true) then d else
      let was := r.bad || decide (r.kind = .excluded)
      let r := if y.head then r.headPass1 y x.kt c0 zt zs else r.cosPass1 zt zs
      let evs := if r.bad && !was then [0] else []
      let (r, evs2) := if last then r.endPass1 y x.kt else (r, [])
      let d := (put d r).flumeEvents n j (evs ++ evs2)
      if last && y.targetOut then d.storeCtx acc x.ctx (y.targetAddr + y.record * row) (r.targetBytes y) else d
    else
      let was := r.bad
      let (r, g) := r.pass2 x row c0 zt zs
      let d := (put d r).storeDev acc (a + 0x81000 + i * 2048 * (y.fmt.bits / 8)) g
      let d := d.flumeEvents n j (if r.bad && !was then [0] else [])
      if !last then d else
      let (main, ce) := r.losses y
      let inc := decide (r.kind ≠ .excluded) && !r.degenerate
      let d := if y.rowLoss then d.storeCtx acc x.ctx (y.rowLossAddr + 8 * row) (le 4 main ++ le 4 ce) else d
      d.modFjob n j fun x => { x with
        tokens := x.tokens + b2n inc, excluded := x.excluded + b2n (!inc), bad := x.bad + b2n (inc && r.bad)
        sumMain := Val.add x.sumMain (f32 main), sumCe := Val.add x.sumCe (f32 ce) }

/-- The halves of a slot that a pass reads (Table 05-3), row by row. -/
def Dev.slotReads (d : Dev) (n : Nat) (x : FlumeJob) (a pass chunk rows : Nat) : Dev :=
  let y := x.desc
  let w := 4 * min 2048 (y.width - 2048 * chunk)
  let acc := progAcc n x.field x.pslot
  let half (d : Dev) (o : Nat) : Dev :=
    (List.range rows).foldl (fun d i => d.readsDev acc x.ctx (a + o + i * 8192) w) d
  let d := if y.job = 2 ∧ (y.targetIn = true ∨ pass = 2) then d else half d 0x1000
  half d 0x81000

/-- The slot is the earliest of its tile that an engine of the instance holds. -/
def Dev.slotFirst (d : Dev) (n j m : Nat) : Bool :=
  let x := (d.fjob n j).desc
  (d.flume n).engines.all fun e => match e with
    | some (i, k) => i != j || decide (k ≥ m) || d.readLe (x.slotAt k) 4 != d.readLe (x.slotAt m) 4
    | none => true

/-- An engine finishes its slot (R128), and the job ends with its last tile (R140). -/
def Dev.finishFlumeSlot (d : Dev) (n e : Nat) : Dev :=
  match nth none (d.flume n).engines e with
  | none => d
  | some (j, m) =>
    if (d.fjob n j).state ≠ .running ∨ d.slotFirst n j m = false then d else
    let y := (d.fjob n j).desc
    let a := y.slotAt m
    let tile := d.readLe a 4
    let chunk := d.readLe (a + 4) 2
    let pass := d.readLe (a + 6) 1
    let rows := min 64 (y.rows - 64 * tile)
    let d := d.slotReads n (d.fjob n j) a pass chunk rows
    if d.memFaults.any fun f => f.ctx == (d.fjob n j).ctx then d else
    let d := (List.range rows).foldl (fun d i => d.slotRow n j a tile pass chunk i) d
    let d := d.modFlume n fun z => { z with engines := z.engines.set e none }
    let (tm, d) := d.mark (srcFlume n)
    let d := d.signal y.gateDone 1 (srcFlume n)
    let close := pass == 2 && chunk + 1 == y.chunks
    let d := d.modFjob n j fun x => { x with
      finished := sat32 (x.finished + 1), endMark := tm
      opened := if close then x.opened.filter fun t => t.tile != tile else x.opened
      closed := if close then tile :: x.closed else x.closed }
    if (d.fjob n j).closed.length = ceilDiv y.rows 64 then d.endFjob n j 0 else d

end Sys2Proof.Machine
end

