-- ==== Sys2Proof/Machine/DivOps.lean ====
section
/-!
DEFINITION. The Diversion (05 R120 to R124): descriptors, DISPATCH, the experts as they become readable, COMBINE.
-/
namespace Sys2Proof.Machine

def Dev.div (d : Dev) (n : Nat) : Diversion := Tbl.get Diversion.init d.divs n
def Dev.putDiv (d : Dev) (n : Nat) (x : Diversion) : Dev := d.setDivs (Tbl.set Diversion.init d.divs n x)
def Dev.modDiv (d : Dev) (n : Nat) (f : Diversion → Diversion) : Dev := d.putDiv n (f (d.div n))
def Dev.divJob (d : Dev) (n j : Nat) : Option DivJob := Tbl.get none (d.div n).jobs j
def Dev.putDivJob (d : Dev) (n j : Nat) (x : Option DivJob) : Dev :=
  d.modDiv n fun y => { y with jobs := Tbl.set none y.jobs j x }

/-- A Diversion job descriptor (Table 05-2). -/
def parseDiv (b : Bytes) : DivDesc :=
  { op := leAt b 0 1, topk := leAt b 1 1, rowFmt := leAt b 2 1, outFmt := leAt b 3 1, rows := leAt b 4 4,
    experts := leAt b 8 2, rowBytes := leAt b 10 2, hints := leAt b 12 2, gateReady := leAt b 14 2,
    routeAddr := leAt b 16 8, srcAddr := leAt b 24 8, placeAddr := leAt b 32 8, destAddr := leAt b 40 8,
    indexAddr := leAt b 48 8, hintAddr := leAt b 56 8 }

/-- REFUSED_DIV_JOB does not apply. -/
def DivDesc.ok (x : DivDesc) (b : Bytes) : Bool :=
  (x.op == 1 || x.op == 2) && decide (1 ≤ x.topk ∧ x.topk ≤ 16) &&
    (if x.op = 1 then x.rowFmt == 0 && x.outFmt == 0
     else (x.rowFmt == 1 || x.rowFmt == 2) && (x.outFmt == 1 || x.outFmt == 2)) &&
    decide (1 ≤ x.experts ∧ x.experts ≤ 4096) && decide (64 ≤ x.rowBytes ∧ x.rowBytes ≤ 32768) && x.rowBytes % 64 == 0 &&
    decide (x.hints ≤ 4096) && allZero (b.drop 64)

/-- Bytes of an element of a row format. -/
def fmtBytes (tag : Nat) : Nat := if tag = 1 then 4 else 2

/-- Elements of a COMBINE row. -/
def DivDesc.elems (x : DivDesc) : Nat := x.rowBytes / fmtBytes x.rowFmt

/-- Where the count table starts (R122). -/
def DivDesc.countTable (x : DivDesc) : Nat := roundUp (x.destAddr + x.rows * x.topk * x.rowBytes) 64

/-- REFUSED_DIV_ADDRESS does not apply. -/
def Dev.divAddrOk (d : Dev) (c : Nat) (x : DivDesc) : Bool :=
  let slots := x.rows * x.topk
  [x.routeAddr, x.srcAddr, x.destAddr, x.indexAddr].all (· % 4 == 0) && d.rangeOk c x.routeAddr (8 * slots) false &&
    (if x.op = 1 then
      x.placeAddr % 4 == 0 && x.hintAddr % 4 == 0 && d.rangeOk c x.srcAddr (x.rows * x.rowBytes) false &&
        d.rangeOk c x.placeAddr (8 * x.experts) false && d.rangeOk c x.indexAddr (4 * slots) true &&
        d.rangeOk c x.destAddr (x.countTable + 16 * x.experts - x.destAddr) true &&
        d.rangeOk c x.hintAddr (4 * x.hints) false && d.holds c x.gateReady
     else
      d.rangeOk c x.srcAddr (slots * x.rowBytes) false && d.rangeOk c x.indexAddr (4 * slots) false &&
        d.rangeOk c x.destAddr (x.rows * x.elems * fmtBytes x.outFmt) true)

/-- A valid placement of an expert: its field and its entry's handle (Table 05-2). -/
def placement (pl : Bytes) (e : Nat) : Option (Nat × Nat) :=
  if bit (leAt pl (8 * e + 1) 1) 0 then some (leAt pl (8 * e) 1, leAt pl (8 * e + 4) 4) else none

/-- REFUSED_DIV_PLACEMENT does not apply. -/
def Dev.placeOk (d : Dev) (k : Nat) (x : DivDesc) (pl : Bytes) : Bool :=
  (List.range x.experts).all fun e => match placement pl e with
    | none => true
    | some (f, h) => decide (f < 16) && bit (d.dist k).fields f && (d.handle? h k).isSome

/-- A route slot of a DISPATCH: token, slot, and its expert and field, or none with whether it raises 0x0638. -/
def routeSlot (x : DivDesc) (route pl : Bytes) (t s : Nat) : Except Bool (Nat × Nat) :=
  let e := leAt route (8 * (t * x.topk + s)) 2
  if e = 0xFFFF then .error false
  else if e ≥ x.experts then .error true
  else match placement pl e with
    | none => .error true
    | some (f, _) => .ok (f, e)

/-- The dispatch rows in their order (R121): field, expert, token and slot of each. -/
def dispatchRows (x : DivDesc) (route pl : Bytes) : List (Nat × Nat × Nat × Nat) :=
  let l := (List.range x.rows).flatMap fun t => (List.range x.topk).filterMap fun s =>
    match routeSlot x route pl t s with
    | .ok (f, e) => some (f, e, t, s)
    | .error _ => none
  sortBy (fun r => r.1 * 65536 + r.2.1) l

/-- The accesses of Diversion n for a program: the instance stands on terrace n (05 R120). -/
def DivJob.acc (j : DivJob) (n : Nat) : Accessor := progAcc n j.field j.pslot

/-- Count n events k of a Diversion job, in the instance. -/
def Dev.divEvents (d : Dev) (n k c : Nat) : Dev :=
  d.modDiv n fun y => { y with events := y.events.set k (sat32 (nth 0 y.events k + c)) }

/-- The count table entry of an expert whose weights can be read, and its signal (R122). -/
def Dev.signalExpert (d : Dev) (n : Nat) (j : DivJob) (e : DivExpert) (waddr source : Nat) : Dev :=
  let a := j.desc.countTable + 16 * e.expert
  let d := d.storeCtx (j.acc n) j.ctx (a + 8) (le 6 waddr ++ le 1 0 ++ le 1 source)
  (d.storeCtx (j.acc n) j.ctx (a + 14) (le 1 1)).signal j.desc.gateReady 1 (srcDiv n)

/-- A demand fetch of an expert that is neither in GDDR7 nor on its way (R123): the staging area takes it, or it is
served from the CXL window, which is counted. -/
def Dev.demandFetch (d : Dev) (n : Nat) (e : DivExpert) : Dev × DivExpert × Nat :=
  match (d.entry e.entry).state with
  | .backed =>
    match d.startLoad e.entry true with
    | some d => (d.modDiv n fun y => { y with fetches := sat32 (y.fetches + 1) }, e, 0)
    | none => (d.divEvents n 1 1, { e with source := 2 }, 1)
  | _ => (d, e, 0)

/-- Demand fetches in their order. -/
def Dev.demandFetches (d : Dev) (n : Nat) : List DivExpert → Dev × List DivExpert × Nat
  | [] => (d, [], 0)
  | e :: r =>
    let (d, e, k) := d.demandFetch n e
    let (d, l, m) := d.demandFetches n r
    (d, e :: l, k + m)

/-- The hint fetches of a DISPATCH in table order; each one without staging room is dropped and counted (R123). A
handle that the district does not know is passed over. -/
def Dev.hintFetches (d : Dev) (n k : Nat) : List Nat → Dev × Nat
  | [] => (d, 0)
  | h :: r =>
    let (d, m) := match d.handle? h k with
      | none => (d, 0)
      | some i => match (d.entry i).state with
        | .backed => match d.startLoad i true with
          | some d => (d.modDiv n fun y => { y with hints := sat32 (y.hints + 1) }, 0)
          | none => (d.divEvents n 2 1, 1)
        | _ => (d, 0)
    let (d, m') := d.hintFetches n k r
    (d, m + m')

/-- Copies of token rows to their dispatch rows, the index and the count table of a DISPATCH (R121, R122). -/
def Dev.dispatchCopy (d : Dev) (w : Accessor) (c : Nat) (x : DivDesc) (rows : List (Nat × Nat × Nat × Nat)) (experts : List DivExpert) :
    Dev :=
  let pos := (List.range rows.length).zip rows
  let d := pos.foldl (fun d p =>
    let (row, d) := d.fetchCtx w c (x.srcAddr + p.2.2.2.1 * x.rowBytes) x.rowBytes
    d.storeCtx w c (x.destAddr + p.1 * x.rowBytes) row) d
  let idx := (List.range x.rows).flatMap fun t => (List.range x.topk).flatMap fun s =>
    le 4 (match pos.find? fun p => p.2.2.2.1 == t && p.2.2.2.2 == s with | some p => p.1 | none => 0xFFFFFFFF)
  let d := d.storeCtx w c x.indexAddr idx
  d.storeCtx w c x.countTable ((List.range x.experts).flatMap fun e =>
    match experts.find? fun y => y.expert == e with
    | some y => le 4 y.offset ++ le 4 y.count ++ zeros 8
    | none => zeros 16)

/-- The experts that dispatch rows go to, in ascending index, each with its first row and its rows. -/
def Dev.dispatchExperts (d : Dev) (k : Nat) (pl : Bytes) (rows : List (Nat × Nat × Nat × Nat)) (experts : Nat) :
    List DivExpert :=
  let es := rows.map fun r => r.2.1
  (List.range experts).filterMap fun e =>
    if es.contains e then
      some { expert := e, offset := posOf e es, count := (es.filter (· == e)).length,
             entry := match placement pl e with | none => 0 | some (_, h) => (d.handle? h k).getD 0, source := 0 }
    else none

/-- A kick of DISPATCH (R121 to R123). -/
def Dev.dispatch (d : Dev) (n i f s : Nat) (p : Prog) (x : DivDesc) : Dev :=
  let w := progAcc n f s
  let (route, d) := d.fetchCtx w p.ctx x.routeAddr (8 * x.rows * x.topk)
  let (pl, d) := d.fetchCtx w p.ctx x.placeAddr (8 * x.experts)
  let bad := sumNat ((List.range x.rows).flatMap fun t => (List.range x.topk).map fun s =>
    match routeSlot x route pl t s with | .error true => 1 | _ => 0)
  let rows := dispatchRows x route pl
  let experts := d.dispatchExperts p.district pl rows x.experts
  let d := (d.dispatchCopy w p.ctx x rows experts).modDiv n fun y => { y with rows := min (y.rows + rows.length) (2 ^ 64 - 1) }
  let d := d.divEvents n 0 bad
  let d := experts.foldl (fun d e => d.usePin e.entry) d
  let d := d.setDivPins (d.divPins ++
    [{ ctx := p.ctx, field := f, pslot := s, indexAddr := x.indexAddr, entries := experts.map fun e => e.entry }])
  let (here, away) := experts.partition fun e => (d.entry e.entry).state == .resident
  let job : DivJob := { ctx := p.ctx, district := p.district, field := f, pslot := s, desc := x, pending := [],
                        events := [bad, 0, 0], copied := true }
  let d := here.foldl (fun d e => d.signalExpert n job e (d.entry e.entry).home 0) d
  let (d, away, direct) := d.demandFetches n (sortBy (fun e => 2 ^ 32 - e.count) away)
  let (table, d) := d.fetchCtx w p.ctx x.hintAddr (4 * x.hints)
  let hints := (List.range x.hints).map fun h => leAt table (4 * h) 4
  let (d, dropped) := d.hintFetches n p.district hints
  d.putDivJob n i (some { job with pending := away, events := [bad, direct, dropped] })

/-- An expert's weights become readable: its count table entry says so and its Gate is signalled (R122). A load that
failed leaves the expert to be served from the CXL window. -/
def Dev.expertReady (d : Dev) (n i e : Nat) : Dev :=
  match d.divJob n i with
  | none => d
  | some j => match j.pending.find? fun y => y.expert == e with
    | none => d
    | some y =>
      let x := d.entry y.entry
      let drop : Option DivJob := some { j with pending := j.pending.filter fun z => z.expert != e }
      if y.source = 2 then (d.signalExpert n j y x.backAddr 2).putDivJob n i drop
      else match x.state with
        | .resident => (d.signalExpert n j y x.home 0).putDivJob n i drop
        | .staged => (d.signalExpert n j y x.home 1).putDivJob n i drop
        | .loading => d
        | .backed =>
          ((d.divEvents n 1 1).signalExpert n j y x.backAddr 2).putDivJob n i
            (drop.map fun z => { z with events := z.events.set 1 (nth 0 z.events 1 + 1) })

/-- The FP32 word of element e of expert-output row r (R124). -/
def divElem (x : DivDesc) (row : Bytes) (e : Nat) : Nat :=
  if x.rowFmt = 1 then leAt row (4 * e) 4 else leAt row (2 * e) 2 * 65536

/-- The output row of a token (R124). -/
def Dev.combineRow (d : Dev) (c : Nat) (nan : Bool) (x : DivDesc) (route index : Bytes) (t : Nat) : Bytes :=
  let terms := (List.range x.topk).filterMap fun k =>
    let r := leAt index (4 * (t * x.topk + k)) 4
    if r = 0xFFFFFFFF then none
    else some (leAt route (8 * (t * x.topk + k) + 4) 4, d.loadCtx c (x.srcAddr + r * x.rowBytes) x.rowBytes)
  (List.range x.elems).flatMap fun e =>
    let acc := terms.foldl (fun acc (w, row) => ffma w (divElem x row e) acc) 0
    if x.outFmt = 1 then le 4 acc else le 2 (convert .bf16 .rne nan (f32 acc)).1

/-- The rows that the terms of a token are read from. -/
def Dev.combineReads (d : Dev) (w : Accessor) (c : Nat) (x : DivDesc) (index : Bytes) (t : Nat) : Dev :=
  (List.range x.topk).foldl (fun d k =>
    let r := leAt index (4 * (t * x.topk + k)) 4
    if r = 0xFFFFFFFF then d else d.reads w c (x.srcAddr + r * x.rowBytes) x.rowBytes) d

/-- A kick of COMBINE (R124). -/
def Dev.combine (d : Dev) (n i f s : Nat) (p : Prog) (x : DivDesc) : Dev :=
  let w := progAcc n f s
  let (route, d) := d.fetchCtx w p.ctx x.routeAddr (8 * x.rows * x.topk)
  let (index, d) := d.fetchCtx w p.ctx x.indexAddr (4 * x.rows * x.topk)
  let pitch := x.elems * fmtBytes x.outFmt
  let d := (List.range x.rows).foldl (fun d t =>
    let row := d.combineRow p.ctx p.convNan x route index t
    (d.combineReads w p.ctx x index t).storeCtx w p.ctx (x.destAddr + t * pitch) row) d
  d.putDivJob n i (some { ctx := p.ctx, district := p.district, field := f, pslot := s, desc := x, pending := [],
                          events := [0, 0, 0], copied := true })

/-- A kick of a Diversion (R120, R142). -/
def Dev.kickDiv (d : Dev) (n f s : Nat) (p : Prog) (b : Bytes) : Kick :=
  let x := parseDiv b
  if !x.ok b then .refused 0x01A8
  else if x.op = 1 ∧ d.placeOk p.district x (d.loadCtx p.ctx x.placeAddr (8 * x.experts)) = false then .refused 0x01A9
  else if x.rows ≠ 0 ∧ d.divAddrOk p.ctx x = false then .refused 0x01AA
  else if x.rows = 0 then .done d
  else match (List.range 4).find? fun j => (d.divJob n j).isNone with
    | none => .wait
    | some i => .done (if x.op = 1 then d.dispatch n i f s p x else d.combine n i f s p x)

/-- Give up the pins of DISPATCHes. -/
def Dev.unpinDivs (d : Dev) (q : DivPin → Bool) : Dev :=
  let gone := d.divPins.filter q
  (gone.foldl (fun d p => p.entries.foldl Dev.useUnpin d) d).setDivPins (d.divPins.filter fun p => !q p)

/-- A Diversion job ends: its context is free; a COMBINE gives up the pins of its DISPATCH (R123). -/
def Dev.endDivJob (d : Dev) (n i : Nat) : Dev :=
  match d.divJob n i with
  | none => d
  | some j =>
    let d := d.putDivJob n i none
    if j.desc.op = 2 then
      d.unpinDivs fun p => p.ctx == j.ctx && p.indexAddr == j.desc.indexAddr
    else d

/-- The Diversion jobs and pins of a program that ends (R110, R123). -/
def Dev.abandonDiv (d : Dev) (f s : Nat) : Dev :=
  let d := (List.range 4).foldl (fun d n => (List.range 4).foldl (fun d i =>
    match d.divJob n i with
    | some j => if j.field = f ∧ j.pslot = s then d.putDivJob n i none else d
    | none => d) d) d
  d.unpinDivs fun p => p.field == f && p.pslot == s

end Sys2Proof.Machine
end

