-- ==== Sys2Proof/Machine/CisOps.lean ====
section
/-!
DEFINITION. The Cistern and the epoch ledger (06 R146 to R166).
-/
namespace Sys2Proof.Machine

def Dev.cistern (d : Dev) (k : Nat) : Cistern := Tbl.get Cistern.init d.cis k
def Dev.modCistern (d : Dev) (k : Nat) (f : Cistern → Cistern) : Dev :=
  d.setCis (Tbl.set Cistern.init d.cis k (f (d.cistern k)))

/-- Event 0x0620 + i of a district. -/
def Dev.cisEvent (d : Dev) (k i : Nat) : Dev := d.modCistern k fun x => { x with events := bump x.events i }

/-! ### Plans (R146, R147) -/

/-- An entry of a stash plan (Table 06-3). -/
structure Seg where
  fwd : Nat
  bwd : Nat
  rcp : Nat
  stash : Nat
  anchor : Nat
deriving DecidableEq, Repr

/-- A stash plan (Table 06-2). -/
structure Plan where
  segs : List Seg
  opt : Option Nat
  segPond : Nat
  recompute : Nat
deriving DecidableEq, Repr

/-- The program's data carries a plan (R146). -/
def hasPlan (data : Bytes) : Bool := leAt data 64 4 == 0x50545343

/-- The plan in steward data. -/
def planOf (data : Bytes) : Plan :=
  { segs := (List.range (leAt data 68 1)).map fun k =>
      let o := 80 + 16 * k
      { fwd := leAt data o 1, bwd := leAt data (o + 1) 1, rcp := leAt data (o + 2) 1, stash := leAt data (o + 4) 4,
        anchor := leAt data (o + 8) 4 }
    opt := if leAt data 69 1 = 0xFF then none else some (leAt data 69 1)
    segPond := 64 * leAt data 70 2, recompute := leAt data 72 4 }

/-- Image indices that a plan names, each as often as it appears. -/
def Plan.images (x : Plan) : List Nat :=
  (x.segs.flatMap fun s => [s.fwd, s.bwd] ++ if s.stash = 0 then [] else [s.rcp]) ++ x.opt.toList

/-- REFUSED_CIS_PLAN does not apply (R147). -/
def planOk (data : Bytes) (imgs : List Img) : Bool :=
  let x := planOf data
  let most := (x.segs.map fun s => s.stash).foldl max 0
  decide (1 ≤ leAt data 68 1 ∧ leAt data 68 1 ≤ 64) && leAt data 76 4 == 0 &&
    (if x.recompute = 0 then most == 0 else decide (most ≤ x.recompute)) &&
    (List.range (leAt data 68 1)).all (fun k =>
      let o := 80 + 16 * k
      leAt data (o + 3) 1 == 0 && leAt data (o + 12) 4 == 0 &&
        (leAt data (o + 2) 1 == 0xFF) == (leAt data (o + 4) 4 == 0)) &&
    x.images.all (fun i => decide (i < imgs.length)) && allDistinct x.images &&
    x.images.all fun i => match imgs[i]? with
      | none => false
      | some m => decide (x.segPond + 64 ≤ pondOf m.runnel) && !overlap x.segPond 64 m.pondBase m.code.length

/-- The code of a program's plan for an order (R147): train says that a TRAIN_STEP runs it. -/
def Dev.planCode (d : Dev) (k : Nat) (train : Bool) (b : Bytes) : Nat :=
  let data := (b.drop (leAt b 20 4)).take (leAt b 24 4)
  if !hasPlan (zeros 64 ++ data.drop 64) then 0
  else if !planOk data ((List.range (leAt b 7 1)).map (imgAt b)) then 0x01D0
  else if !train then 0x01D2
  else if d.reg .cisWork0 k = 0 ∨ d.reg .cisWork1 k = 0 then 0x01D3
  else 0

/-- The plan of a running program. -/
def Prog.plan? (p : Prog) : Option Plan := if hasPlan p.data then some (planOf p.data) else none

/-! ### Space (R150 to R153) -/

/-- What occupies the Cistern: claims and reserves, and every granule that a hold touches. -/
def Dev.cisUsed (d : Dev) : List (Nat × Nat) :=
  (d.claims.map fun c => (c.base, c.bytes)) ++
    d.holds05

/-- Free runs of a region, lowest first; granules that hold a hole count as occupied (11 R262). -/
def Dev.cisFree (d : Dev) (r : Nat × Nat) : List (Nat × Nat) :=
  let holes := match regionOf r.1 with
    | .gddr h => match d.districtOfDev h with | some k => d.holesIn k r | none => []
    | _ => []
  sortBy Prod.fst (cutAll (cutAll [(r.1, r.2 / granule * granule)] d.cisUsed) holes)

/-- The lowest free run that fits n bytes of whole granules. -/
def Dev.cisFit (d : Dev) (r : Nat × Nat) (n : Nat) : Option Nat := fit (granules n) (d.cisFree r)

/-- The spill region of a district, and its share on a field's terrace. -/
def Dev.spillOf (d : Dev) (k : Nat) : Nat × Nat := ((d.dist k).spillBase, (d.dist k).spillGib * gib)
def Dev.cisShare (d : Dev) (k f : Nat) : Nat × Nat := d.shareOf k 2 (f / 4)

/-- A placement. -/
def Dev.putClaim (d : Dev) (c : Claim) : Dev := d.setClaims (d.claims ++ [c])

/-- Bytes of a segment's anchor in the anchor run. -/
def Seg.anchorBytes (s : Seg) : Nat := roundUp s.anchor 4096

/-- A: the length of the anchor run for one micro-batch (R151). -/
def Plan.anchorRun (x : Plan) : Nat := sumNat (x.segs.map Seg.anchorBytes)

/-- Place one run of a reserve: in the spill region, or in the share of the field's terrace. Nothing to place for 0
bytes. -/
def Dev.reserveRun (d : Dev) (o : OrderId) (k f n : Nat) (kind : ClaimKind) : Option Dev :=
  if n = 0 then some d else
  match d.cisFit (d.spillOf k) n with
  | some a => some (d.putClaim { o, field := f, district := k, base := a, bytes := granules n, kind })
  | none => match d.cisFit (d.cisShare k f) n with
    | some a => some (d.putClaim { o, field := f, district := k, base := a, bytes := granules n, kind })
    | none => none

/-- The reserves of one field (R151). -/
def Dev.reserveField (d : Dev) (o : OrderId) (k f mbs : Nat) (x : Plan) : Option Dev :=
  match d.reserveRun o k f (mbs * x.anchorRun) .anchor with
  | none => none
  | some d => d.reserveRun o k f x.recompute .recompute

/-- The reserves of every field, or none. -/
def Dev.reserveAll (d : Dev) (o : OrderId) (k mbs : Nat) (x : Plan) : List Nat → Option Dev
  | [] => some d
  | f :: r => match d.reserveField o k f mbs x with
    | none => none
    | some d => d.reserveAll o k mbs x r

/-- A field's reserve fits in an empty spill region and an empty share (R151). -/
def Dev.reserveEver (d : Dev) (o : OrderId) (k f mbs : Nat) (x : Plan) : Bool :=
  (((d.setClaims []).setFlumes []).reserveField o k f mbs x).isSome

/-- Placements given up (R157). -/
def Dev.dropClaims (d : Dev) (q : Claim → Bool) : Dev := d.setClaims (d.claims.filter fun c => !q c)

/-! ### Field parts (R148, R152 to R155, R159 to R161) -/

def Dev.part? (d : Dev) (o : OrderId) (f : Nat) : Option Part := d.parts.find? fun p => p.o == o && p.field == f
def Dev.modPart (d : Dev) (o : OrderId) (f : Nat) (g : Part → Part) : Dev :=
  d.setParts (d.parts.map fun p => if p.o = o ∧ p.field = f then g p else p)
def Dev.step? (d : Dev) (o : OrderId) : Option StepOrd := d.steps.find? fun x => x.o == o
def Dev.modStep (d : Dev) (o : OrderId) (g : StepOrd → StepOrd) : Dev :=
  d.setSteps (d.steps.map fun x => if x.o = o then g x else x)

/-- What an image is to a plan. -/
inductive Role where
  | none | forward (seg : Nat) | backward (seg : Nat) | recompute (seg : Nat) | optimiser
deriving DecidableEq, Repr

def Plan.role (x : Plan) (img : Nat) : Role :=
  if x.opt = some img then .optimiser else
  match x.segs.findIdx? fun s => s.fwd == img with
  | some k => .forward k
  | none => match x.segs.findIdx? fun s => s.bwd == img with
    | some k => .backward k
    | none => match x.segs.findIdx? fun s => s.stash != 0 && s.rcp == img with
      | some k => .recompute k
      | none => .none

/-- FRUNs of an image that a program has executed. -/
def Prog.runsOf (p : Prog) (img : Nat) : Nat := (p.runs.filter (· == img)).length

/-- The address of an anchor of a field part (R151). -/
def Dev.anchorAddr (d : Dev) (o : OrderId) (f : Nat) (x : Plan) (mb seg : Nat) : Nat :=
  if (nth { fwd := 0, bwd := 0, rcp := 0, stash := 0, anchor := 0 } x.segs seg).anchor = 0 then 0 else
  match d.claims.find? fun c => c.o == o && c.field == f && c.kind == .anchor with
  | none => 0
  | some c => c.base + mb * x.anchorRun + sumNat ((x.segs.take seg).map Seg.anchorBytes)

/-- The recompute run of a field part. -/
def Dev.recomputeAddr (d : Dev) (o : OrderId) (f : Nat) : Nat :=
  match d.claims.find? fun c => c.o == o && c.field == f && c.kind == .recompute with
  | none => 0
  | some c => c.base

/-- The working copy of an epoch (R158). -/
def Dev.workCopy (d : Dev) (k e : Nat) : Nat := 4096 * (if e % 2 = 0 then d.reg .cisWork0 k else d.reg .cisWork1 k)

/-- The 64 bytes of a segment block (Table 06-4). -/
def segBlock (stash anchor weight out epoch mb seg kind bytes : Nat) : Bytes :=
  le 8 stash ++ le 8 anchor ++ le 8 weight ++ le 8 out ++ le 8 epoch ++ le 2 mb ++ le 2 seg ++ le 1 kind ++ zeros 3 ++
    le 4 bytes ++ zeros 12

/-- A stash claim of a forward FRUN (R152): the address, or none where it fails (R153). -/
def Dev.stashClaim (d : Dev) (o : OrderId) (f k mb seg n : Nat) : Option (Nat × Dev) :=
  let put (d : Dev) (a : Nat) : Dev :=
    d.putClaim { o, field := f, district := k, base := a, bytes := granules n, kind := .stash mb seg }
  match d.cisFit (d.cisShare k f) n with
  | some a => some (a, put d a)
  | none => match d.cisFit (d.spillOf k) n with
    | some a => some (a, ((put d a).cisEvent k 1).modPart o f fun p => { p with spilled := p.spilled + 1 })
    | none => none

/-- A failed claim (R153): segments from seg on are marked, counted and recorded. -/
def Dev.markSegs (d : Dev) (kind : ProgKind) (o : OrderId) (ctx f k mb seg : Nat) (x : Plan) : Dev :=
  let (m, d) := d.mark (srcSteward f)
  let more := ((List.range x.segs.length).filter fun j => decide (seg ≤ j) &&
    match x.segs[j]? with | some s => s.stash != 0 | none => false).map fun j => (mb, j)
  let d := (d.modPart o f fun p => { p with marked := p.marked ++ more.filter fun y => !p.marked.contains y }).cisEvent k 0
  let d := d.modCistern k fun c => { c with markTime := m, markField := f, markSeg := seg, markMb := mb }
  d.recordFor kind ctx (srcSteward f) 0x0620 m 1 [f, mb, seg, m]

/-- What a plan image's FRUN comes to: the segment block of its cores, or a recompute that goes first. -/
inductive Bound where
  | block (d : Dev) (b : Bytes)
  | recompute (d : Dev) (img : Nat) (b : Bytes)

/-- The forward FRUN of a segment (R152, R153). -/
def Dev.forwardRun (d : Dev) (p : Prog) (o : OrderId) (f : Nat) (x : Plan) (y : Part) (seg mb : Nat) : Bound :=
  let s := nth { fwd := 0, bwd := 0, rcp := 0, stash := 0, anchor := 0 } x.segs seg
  let k := p.district
  let blk (d : Dev) (a kind : Nat) : Bytes :=
    segBlock a (d.anchorAddr o f x mb seg) (d.workCopy k y.epoch) 0 y.epoch mb seg kind s.stash
  let sink := sinkBase + k * sinkBytes
  if s.stash = 0 then .block d (blk d 0 1)
  else if y.marked.contains (mb, seg) then .block d (blk d sink 2)
  else match d.stashClaim o f k mb seg s.stash with
    | some (a, d) => .block d (blk d a 1)
    | none => let d := d.markSegs p.kind o p.ctx f k mb seg x; .block d (blk d sink 2)

/-- The backward FRUN of a segment (R155): stashed, marked, or without a stash. -/
def Dev.backwardRun (d : Dev) (p : Prog) (o : OrderId) (f : Nat) (x : Plan) (y : Part) (seg mb : Nat) (recomputed : Bool) :
    Bound :=
  let s := nth { fwd := 0, bwd := 0, rcp := 0, stash := 0, anchor := 0 } x.segs seg
  let k := p.district
  let blk (a kind : Nat) : Bytes :=
    segBlock a (d.anchorAddr o f x mb seg) (d.workCopy k y.epoch) 0 y.epoch mb seg kind s.stash
  if y.marked.contains (mb, seg) then
    if recomputed then .block d (blk (d.recomputeAddr o f) 5)
    else .recompute d s.rcp (blk (d.recomputeAddr o f) 3)
  else
    let a := match d.claims.find? fun c => c.o == o && c.field == f && c.kind == .stash mb seg with
      | some c => c.base
      | none => 0
    .block d (blk a 4)

/-- The optimiser's segment block (R160). -/
def Dev.optBlock (d : Dev) (k : Nat) : Bytes :=
  let e := d.reg .cisEpoch k
  segBlock 0 0 (d.workCopy k e) (d.workCopy k (e + 1)) e 0xFFFF 0xFFFF 6 0

/-- Epoch parts that the next retirement stops: those of epoch E − 1 or lower (R160). -/
def Dev.oldParts (d : Dev) (k : Nat) : List Part :=
  d.parts.filter fun p => p.district == k && decide (p.epoch < d.reg .cisEpoch k)

/-- The epoch advances (R161). -/
def Dev.epochAdvance (d : Dev) (k : Nat) : Dev :=
  let (m, d) := d.mark (srcHeadgate 0)
  (d.putReg .cisEpoch k (d.reg .cisEpoch k + 1)).modCistern k fun x => { x with epochTime := m }

/-- An earlier TRAIN_STEP order of the district has not ended its optimiser phase (R159). -/
def Dev.stepBlocked (d : Dev) (o : OrderId) (k : Nat) : Bool :=
  let before := (d.steps.takeWhile fun x => x.o != o).filter fun x => x.district == k
  before.any fun x => !x.optEnded

end Sys2Proof.Machine
end

