-- ==== Sys2Proof/Machine/DmaMove.lean ====
section
/-!
DEFINITION. Core DMA descriptors, the data they move, and what a pond shows of writes that are pending (04 R92, R110, 12
R284, R287, R289 to R291).
-/
namespace Sys2Proof.Machine

/-! ### Descriptors (12 R289 to R291) -/

def parseDma (b : Bytes) : DmaDesc :=
  { op := leAt b 0 1, flags := leAt b 1 1, cond := leAt b 2 1, rows := leAt b 4 4, rowBytes := leAt b 8 4,
    src := leAt b 16 8, dst := leAt b 24 8, srcStride := leAt b 32 4, dstStride := leAt b 36 4, gateWait := leAt b 40 2,
    gateSig := leAt b 42 2, sigValue := leAt b 44 4, waitValue := leAt b 48 8, fill := leAt b 56 4 }

/-- The descriptor lies within Table 12-2. -/
def DmaDesc.ok (x : DmaDesc) (b : Bytes) : Bool :=
  (x.op == 1 || x.op == 2) && decide (x.flags < 64) && leAt b 3 1 == 0 && leAt b 12 4 == 0 && leAt b 60 4 == 0 &&
    decide (x.rows ≤ 1048576) && decide (x.rowBytes ≤ 16777216) &&
    (if bit x.flags 0 then condOk x.cond else x.cond == 0) && fld x.flags 4 2 != 3 && !(x.op == 1 && fld x.flags 2 2 == 3)

/-- The address kinds of source and destination (12 R290). -/
def DmaDesc.srcKind (x : DmaDesc) : Nat := fld x.flags 2 2
def DmaDesc.dstKind (x : DmaDesc) : Nat := fld x.flags 4 2

/-- Instances that a core is bound to (13 R304): it runs them, or saves, clears or restores for them. -/
def Core.bound (x : Core) : List Inst :=
  x.inst.toList ++ x.starting.toList ++ x.restoring.toList ++ if x.saving then x.held.toList else []

/-- A core is bound to a program of a context. -/
def Core.boundTo (x : Core) (c : Nat) : Bool := x.bound.any fun y => y.ctx == c

/-- A write of a core's pond meets the code range of an image that is bound there (04 R88). -/
def Dev.hitsCode (d : Dev) (j o n : Nat) : Bool := (d.core j).bound.any fun y => overlap o n y.codeBase y.codeLen

/-- Device pieces of one row at an address of a kind (12 R290), or the fault. -/
def Dev.rowPieces (d : Dev) (i c kind a n : Nat) (write : Bool) : Except Nat (List (Nat × Nat)) :=
  if kind = 0 then
    match d.range c a n write with
    | .error e => .error e
    | .ok l => if d.rowsOk (coreAcc i) c l then .ok l else .error 0x0320
  else if kind = 1 then
    if a + n > pondSize i then .error 0x0342
    else if write && d.hitsCode i a n then .error 0x0362
    else .ok [(pondBase i + a, n)]
  else
    let j := (a - pondsBase) / pondSlot
    let o := (a - pondsBase) % pondSlot
    if a < pondsBase ∨ j ≥ 256 then .error 0x0361
    else if o + n > pondSize j then .error 0x0327
    else if (d.core j).boundTo c = false ∨ (write && d.hitsCode j o n) = true then .error 0x0362
    else .ok [(a, n)]

/-- Pieces of every row, or the first fault. -/
def Dev.allRows (d : Dev) (i c kind a stride n : Nat) (write : Bool) : List Nat → Except Nat (List (List (Nat × Nat)))
  | [] => .ok []
  | r :: l => match d.rowPieces i c kind (a + r * stride) n write with
    | .error e => .error e
    | .ok p => match d.allRows i c kind a stride n write l with
      | .error e => .error e
      | .ok q => .ok (p :: q)

/-- Byte j of a row of FILL: the pattern's phase runs from DST (12 R289). -/
def DmaDesc.fillByte (x : DmaDesc) (r j : Nat) : Byte := BitVec.ofNat 8 (fld x.fill (8 * ((r * x.dstStride + j) % 4)) 8)

/-- The bytes of a row of FILL. -/
def DmaDesc.fillRow (x : DmaDesc) (r : Nat) : Bytes := (List.range x.rowBytes).map (x.fillByte r)

/-! ### Pending writes (04 R92) -/

/-- Old contents of a byte in a flight's writes. -/
def Flight.old? (x : Flight) (a : Nat) : Option Byte :=
  match x.old.find? fun r => inRange a (r.1, r.2.length) with
  | none => none
  | some r => r.2[a - r.1]?

/-- A pond byte as an instruction of a class reads it (R92): behind the writes of its own class, and for each pending
write of another class that covers it either the old or the new contents, one choice for each 64-byte unit. -/
def readByte (cls : Nat) (draw : Nat) (a : Nat) : List Flight → Byte → Byte
  | [], b => b
  | x :: r, b => match x.old? a with
    | none => readByte cls draw a r b
    | some o =>
      if x.cls = cls then b
      else if Config.freeBool (2 ^ 64 * draw + 2 ^ 20 * (a / 64) + r.length) then b
      else readByte cls draw a r o

/-- Descriptors under way into a core's pond: the core whose DMA writes, the context, the descriptor, and where in the
pond its first row goes. -/
def Dev.pendingInto (d : Dev) (i : Nat) : List (Nat × Nat × DmaDesc × Nat) :=
  d.cores.flatMap fun (j, x) => x.inst.toList.flatMap fun y => y.inFlight.filterMap fun (_, t) =>
    let z := t.desc
    if !t.started || t.reissue || z.rows = 0 || z.rowBytes = 0 then none
    else if z.dstKind = 1 && j = i then some (j, t.ctx, z, z.dst)
    else if z.dstKind = 2 && decide (pondBase i ≤ z.dst ∧ z.dst < pondBase i + pondSlot) then
      some (j, t.ctx, z, z.dst - pondBase i)
    else none

/-- The row, and the byte in it, that a descriptor writes last at a pond address. -/
def DmaDesc.rowAt (x : DmaDesc) (base a : Nat) : Option (Nat × Nat) :=
  if a < base then none else
  let r := if x.dstStride = 0 then x.rows - 1 else min (x.rows - 1) ((a - base) / x.dstStride)
  let j := a - base - r * x.dstStride
  if j < x.rowBytes then some (r, j) else none

/-- The byte that a descriptor under way puts at a pond address, where it writes one. -/
def Dev.comingByte (d : Dev) (a : Nat) (q : Nat × Nat × DmaDesc × Nat) : Option Byte :=
  let (j, c, x, base) := q
  match x.rowAt base a with
  | none => none
  | some (r, k) =>
    if x.op = 2 then some (x.fillByte r k) else
    match d.rowPieces j c x.srcKind (x.src + r * x.srcStride + k) 1 false with
    | .ok l => (d.readPieces l).head?
    | .error _ => none

/-- A pond byte with the writes that DMA has under way: each that covers it shows or not, one choice for each 64-byte
unit. -/
def Dev.withComing (d : Dev) (draw a : Nat) (b : Byte) (l : List (Nat × Nat × DmaDesc × Nat)) : Byte :=
  ((List.range l.length).zip l).foldl (fun b (n, q) => match d.comingByte a q with
    | none => b
    | some x => if Config.freeBool (2 ^ 64 * draw + 2 ^ 63 + 2 ^ 20 * (a / 64) + n) then x else b) b

/-- Pond bytes as an instruction of a class reads them: class 5 is DMA, whose own writes are in order. -/
def Dev.pondRead (d : Dev) (i : Nat) (y : Inst) (cls draw a n : Nat) : Bytes :=
  let coming := if cls = 5 then [] else d.pendingInto i
  (List.range n).map fun k =>
    d.withComing draw (a + k) (readByte cls draw (a + k) y.flight.reverse (d.byte (pondBase i + a + k))) coming

/-- Bytes of a piece as a DMA reads them: pending engine writes of a pond show or not. -/
def Dev.dmaSource (d : Dev) (draw : Nat) (p : Nat × Nat) : Bytes :=
  match regionOf p.1 with
  | .pond j => match (d.core j).inst with
    | some y => if y.flight.isEmpty then d.readDev p.1 p.2 else d.pondRead j y 5 draw (p.1 - pondBase j) p.2
    | none => d.readDev p.1 p.2
  | _ => d.readDev p.1 p.2

/-! ### The data moves -/

/-- The rows of a descriptor: the pieces of the source, those of the destination, and the data; or the fault. -/
structure DmaRows where
  src : List (Nat × Nat)
  dst : List (List (Nat × Nat))
  data : List Bytes
deriving DecidableEq, Repr

def Dev.dmaRows (d : Dev) (i c draw : Nat) (x : DmaDesc) : Except Nat DmaRows :=
  let rows := if x.rowBytes = 0 then [] else List.range x.rows
  let src := if x.op = 2 then .ok (rows.map fun _ => []) else d.allRows i c x.srcKind x.src x.srcStride x.rowBytes false rows
  match src, d.allRows i c x.dstKind x.dst x.dstStride x.rowBytes true rows with
  | .error e, _ => .error e
  | _, .error e => .error e
  | .ok ss, .ok ts => match d.badIn ss.flatten with
    | some b => .error (eccCode b)
    | none => .ok { src := ss.flatten, dst := ts,
                    data := if x.op = 2 then rows.map x.fillRow else ss.map fun l => l.flatMap (d.dmaSource draw) }

/-- Traffic of a piece at an address of a kind: a core's own pond is reached without the Canal (12 R284). -/
def Dev.dmaTraffic (d : Dev) (i kind : Nat) (p : Nat × Nat) (write : Bool) : Dev :=
  if kind = 1 then d else if kind = 0 then d.traffic (coreAcc i) p write else d.canalPiece (i / 64) p write

/-- The data of a descriptor moves: every row of the source is read, and then the rows are written in ascending
order. -/
def Dev.moveRows (d : Dev) (i c : Nat) (x : DmaDesc) : Except Nat Dev :=
  let (n, d) := if x.op = 2 then (0, d) else d.draw
  match d.dmaRows i c n x with
  | .error e => .error e
  | .ok q =>
    let d := q.src.foldl (fun d p => d.dmaTraffic i x.srcKind p false) d
    .ok ((q.dst.zip q.data).foldl (fun d (t, bs) =>
      (t.foldl (fun d p => d.dmaTraffic i x.dstKind p true) d).putPieces (coreAcc i) c t bs) d)

/-- The parts of a piece that lie in one 64-byte unit each. -/
def units64 (p : Nat × Nat) : List (Nat × Nat) :=
  (List.range (ceilDiv (p.1 % 64 + p.2) 64)).map fun j =>
    let b := p.1 / 64 * 64 + 64 * j
    (max p.1 b, min (p.1 + p.2) (b + 64) - max p.1 b)

/-- Some of the 64-byte units of a row's pieces are written: which is free. -/
def Dev.landRow (d : Dev) (i c kind draw row : Nat) (l : List (Nat × Nat)) (bs : Bytes) : Dev :=
  (l.flatMap units64).foldl (fun (q : Dev × Bytes) p =>
    (if Config.freeBool (2 ^ 64 * draw + 2 ^ 62 + 2 ^ 44 * row + p.1 / 64 % 2 ^ 44) then
      (q.1.dmaTraffic i kind p true).putPieces (coreAcc i) c [p] (q.2.take p.2) else q.1, q.2.drop p.2)) (d, bs) |>.1

/-- A transfer is given up: some of its writes may already be visible (04 R110, 13 R307). -/
def Dev.landSome (d : Dev) (i c : Nat) (x : DmaDesc) : Dev :=
  let (n, d) := d.draw
  match d.dmaRows i c n x with
  | .error _ => d
  | .ok q => ((List.range q.dst.length).zip (q.dst.zip q.data)).foldl (fun d (r, t, bs) =>
      d.landRow i c x.dstKind n r t bs) d

end Sys2Proof.Machine
end

