-- ==== Sys2Proof/Machine/PowerOps.lean ====
section
/-!
DEFINITION. The module limit, grants and operating points (01 R25, 04 R108, 16 R360 to R367).
-/
namespace Sys2Proof.Machine

def Dev.modPower (d : Dev) (f : Power → Power) : Dev := d.setPower (f d.power)

/-- The module limit in W (R25, R360). -/
def Dev.limitW (d : Dev) : Nat :=
  if d.power.source = 1 then min 1200 (d.reg .pwrRatingA 0)
  else if d.power.source = 2 then min 1200 (d.reg .pwrRatingB 0) else 0

def Dev.grant? (d : Dev) (f s : Nat) : Option Grant := Tbl.get none d.power.grants (4 * f + s)
def Dev.putGrant (d : Dev) (f s : Nat) (g : Option Grant) : Dev :=
  d.modPower fun x => { x with grants := Tbl.set none x.grants (4 * f + s) g }

/-- Live grants of a district whose rates are reserved: field, slot and grant. -/
def Dev.grantsOf (d : Dev) (k : Nat) : List (Nat × Nat × Grant) :=
  d.power.grants.filterMap fun (i, g) => match g with
    | none => none
    | some g => if (d.field (i / 4)).district = some k ∧ g.reserved = true then some (i / 4, i % 4, g) else none

def sumRat (l : List Rat) : Rat := l.foldl (· + ·) 0

/-- c_d in W (R362). With held, the rates of held fields are left out (R367; a DESIGN CHOICE, log entry 40). -/
def Dev.committedW (d : Dev) (k : Nat) (held : Bool) : Rat :=
  sumRat ((d.grantsOf k).map fun (f, _, g) => if held && (d.field f).held then 0 else g.rate)

def Dev.floorW (d : Dev) (k : Nat) : Rat := match d.ent? k with | none => 0 | some e => e.floorW

/-- Districts of the committed image. -/
def Dev.districts (d : Dev) : List Nat := (List.range 16).filter fun k => (d.ent? k).isSome

/-- A rate r of a district fits (R362). -/
def Dev.fits (d : Dev) (k : Nat) (r : Rat) : Bool :=
  let total := sumRat (d.districts.map fun e => max (d.committedW e false + if e = k then r else 0) (d.floorW e))
  decide (d.committedW k false + r ≤ d.reg .altCeil k) &&
    decide (total + d.power.base + d.reg .altMargin 0 ≤ d.limitW)

/-- The least n that is not below the quotient a / b. -/
def ceilRat (r : Rat) : Nat := r.ceil.toNat

/-- The point p that a request of a slot asks for (R363). -/
def Dev.reqPoint (d : Dev) (k f s : Nat) : Nat :=
  max (d.reg .altOpMin k) (match d.prog f s with | some p => p.foppt.getD 0 | none => 0)

/-- Energy, duration and rate of a request at point q, asked for at point p (R363). -/
def Dev.atPoint (d : Dev) (e dur p q : Nat) : Nat × Rat :=
  let ek := ceilDiv (e * d.mvOf q * d.mvOf q) (d.mvOf p * d.mvOf p)
  let dk := ceilDiv (dur * d.mhzOf p) (d.mhzOf q)
  (ek, (ek : Rat) / (10 * (dk : Rat)))

/-- What a request for a grant came to. -/
inductive GrantAns where
  | given (point energy : Nat) (rate : Rat)
  | never
  | wait

/-- grant_request (R363). -/
def Dev.grantRequest (d : Dev) (k f s e dur : Nat) : GrantAns :=
  let p := d.reqPoint k f s
  let n := d.clock.length
  let pts := (List.range n).filter fun q => decide (p ≤ q)
  match pts.find? fun q => d.fits k (d.atPoint e dur p q).2 with
  | some q => .given q (d.atPoint e dur p q).1 (d.atPoint e dur p q).2
  | none =>
    let cont : Rat := match d.ent? k with | none => 0 | some e => e.contW
    if (d.atPoint e dur p (n - 1)).2 > cont then .never else .wait

/-- The point a field is to run at: the slowest of R108. -/
def Dev.wantPoint (d : Dev) (f : Nat) : Nat :=
  let base := match (d.field f).district with
    | none => 0
    | some k => match d.ent? k with | none => 0 | some e => e.opMin
  (List.range 4).foldl (fun m s => match d.prog f s with
    | none => m
    | some p => max m (max (p.foppt.getD 0) (match d.grant? f s with | some g => g.point | none => 0))) base

/-- A field whose point is to change is held for it (R108). -/
def Dev.retune (d : Dev) (f : Nat) : Dev :=
  let w := d.wantPoint f
  d.modField f fun x => { x with opChange := if w = x.opPoint then none else some w }

/-- A slot's grant is returned, and its request given up (R365). -/
def Dev.returnGrant (d : Dev) (f s : Nat) : Dev :=
  ((d.putGrant f s none).modPower fun x =>
    { x with waiting := x.waiting.filter fun w => !(w.field == f && w.slot == s),
             acts := x.acts.filter fun a => match a with | .move g t _ => !(g == f && t == s) | .hold _ => true }).retune f

/-! ### A fall of the module limit (R367) -/

/-- What the limit leaves for floors and grants, in W. -/
def Dev.availW (d : Dev) : Rat := max 0 ((d.limitW : Rat) - d.power.base - d.reg .altMargin 0)

/-- Floors are scaled. -/
def Dev.floorShort (d : Dev) : Bool := decide (d.availW < sumRat (d.districts.map d.floorW))

/-- A district's floor for R367. -/
def Dev.floorNow (d : Dev) (k : Nat) : Rat :=
  if d.floorShort then d.floorW k * d.availW / sumRat (d.districts.map d.floorW) else d.floorW k

/-- The fit of R362 with no new rate. -/
def Dev.fitsNow (d : Dev) : Bool :=
  decide (sumRat (d.districts.map fun k => max (d.committedW k true) (d.floorNow k)) ≤ d.availW)

/-- A grant moved to another point (R367): its remaining energy and its rate are scaled. -/
def Dev.moveGrant (d : Dev) (f s q : Nat) (g : Grant) : Dev :=
  let a := (d.mvOf q * d.mvOf q : Nat)
  let b := (d.mvOf g.point * d.mvOf g.point : Nat)
  (d.putGrant f s (some { g with
    point := q, left := ceilDiv (g.left * a) b, energy := ceilDiv (g.energy * a) b
    rate := g.rate * (a : Rat) / (b : Rat) * (d.mhzOf q : Rat) / (d.mhzOf g.point : Rat) })).retune f

/-- A move or a hold is counted and written to the Silt record. -/
def Dev.repointed (d : Dev) (k f q : Nat) : Dev :=
  (d.modPower fun x => { x with repoint := bump x.repoint k }).siltEv srcAllot 0x0006 0 kField f (pack16 [k, f, q])

/-- Districts above their floors, the furthest above first and the lower number on a tie. -/
def Dev.aboveFloor (d : Dev) : List Nat :=
  let high := d.districts.filter fun k => decide (d.floorNow k < d.committedW k true)
  high.foldl (fun l k =>
    let e := d.committedW k true - d.floorNow k
    let head := l.takeWhile fun j => decide (d.committedW j true - d.floorNow j ≥ e)
    head ++ k :: l.drop head.length) []

/-- One action of R367, or none where nothing is left to do. -/
def Dev.limitAct (d : Dev) : Option Dev :=
  let n := d.clock.length
  let live (k : Nat) := (d.grantsOf k).filter fun (f, _, _) => !(d.field f).held
  match d.aboveFloor.find? fun k => (live k).any fun (_, _, g) => decide (g.point + 1 < n) with
  | some k =>
    let fastest := ((live k).map fun (_, _, g) => g.point).foldl min n
    some (((live k).filter fun (_, _, g) => g.point == fastest).foldl (fun d (f, s, g) =>
      ((d.moveGrant f s (fastest + 1) g).modPower fun x => { x with acts := .move f s g.point :: x.acts }).repointed
        k f (fastest + 1)) d)
  | none => match d.aboveFloor with
    | [] => none
    | k :: _ => match ((d.fieldsOf k).reverse.find? fun f => (live k).any fun (g, _, _) => g == f) with
      | none => none
      | some f =>
        some ((((d.accountField f).modField f fun x => { x with held := true }).modPower fun x =>
          { x with acts := .hold f :: x.acts }).repointed k f (d.field f).opPoint)

/-- Actions until the fit holds. -/
def Dev.limitActs (d : Dev) : Nat → Dev
  | 0 => d
  | n + 1 => if d.fitsNow then d else match d.limitAct with | none => d | some d => d.limitActs n

/-- The module limit may have fallen (R367): 64 grants move over at most 16 points, and 16 fields are held. -/
def Dev.limitFell (d : Dev) : Dev :=
  let d := d.modPower fun x => { x with floorShort := d.floorShort }
  d.limitActs 1100

/-- Undo the actions of R367 in reverse order as far as the fit allows. -/
def Dev.undoActs (d : Dev) : List AltAct → Dev
  | [] => d.modPower fun x => { x with acts := [] }
  | a :: r =>
    let undone := match a with
      | .hold f => (d.accountField f).modField f fun x => { x with held := false }
      | .move f s old => match d.grant? f s with
        | none => d
        | some g => (d.moveGrant f s old g).repointed ((d.field f).district.getD 0) f old
    if undone.fitsNow then undone.undoActs r else d.modPower fun x => { x with acts := a :: r }

end Sys2Proof.Machine
end

