-- ==== Sys2Proof/Machine/InstOps.lean ====
section
/-!
DEFINITION. Cores and their instances: binding, saving, clearing, restoring, suspending and accounting (04 R90, R107,
R111, 13 R304 to R309).
-/
namespace Sys2Proof.Machine

/-! ### Instances of a program -/

/-- Instances of a core: running, suspended in it, about to start, and being restored. -/
def Core.insts (x : Core) : List Inst := x.inst.toList ++ x.held.toList ++ x.starting.toList ++ x.restoring.toList

/-- Live instances of a program: running or suspended (R305). -/
def Dev.instsOf (d : Dev) (f s : Nat) : List Inst :=
  ((d.cores.flatMap fun (_, x) => x.insts) ++ d.saves.map fun r => r.inst).filter fun y => y.field == f && y.slot == s

/-- Some instance of a program is not suspended. -/
def Dev.anyRunning (d : Dev) (f s : Nat) : Bool :=
  d.cores.any fun (_, x) => (x.inst.toList ++ x.starting.toList ++ x.restoring.toList).any fun y =>
    y.field == f && y.slot == s

/-- Instances of an image, of one FRUN where run is not 0. -/
def Dev.instsOfImg (d : Dev) (f s img run : Nat) : List Inst :=
  (d.instsOf f s).filter fun y => y.image == img && (run == 0 || y.run == run)

/-- The reservation of a program follows its instances (16 R365): it is released while all are suspended. -/
def Dev.reserveNow (d : Dev) (f s : Nat) : Dev :=
  match d.grant? f s with
  | none => d
  | some g => if g.reserved = true ∧ d.anyRunning f s = false ∧ (d.instsOf f s).isEmpty = false
    then d.putGrant f s (some { g with reserved := false }) else d

/-! ### Waits and transfers of an instance -/

/-- Change the instance of a core. -/
def Dev.modInst (d : Dev) (i : Nat) (g : Inst → Inst) : Dev := d.modCore i fun x => { x with inst := x.inst.map g }

/-- Waits registered for one waiter stand under another name. -/
def Dev.renameWait (d : Dev) (a b : Waiter) : Dev :=
  d.setWaits (d.waits.map fun w => if w.who = a then { w with who := b } else w)

/-- The waits of a core's instance become those of a suspended instance. -/
def Dev.suspendWaits (d : Dev) (i : Nat) (y : Inst) : Dev :=
  (List.range 16).foldl (fun d t => d.renameWait (.dma i t) (y.dmaWaiter t)) (d.renameWait (.core i) y.waiter)
def Dev.resumeWaits (d : Dev) (i : Nat) (y : Inst) : Dev :=
  (List.range 16).foldl (fun d t => d.renameWait (y.dmaWaiter t) (.dma i t)) (d.renameWait y.waiter (.core i))

/-- Every wait of an instance ends, on core i or suspended. -/
def Dev.dropInstWaits (d : Dev) (i : Nat) (y : Inst) : Dev :=
  let mine : List Waiter := .core i :: y.waiter :: (List.range 16).flatMap fun t => [.dma i t, y.dmaWaiter t]
  d.dropWaits fun w => mine.contains w.who

/-! ### Starts -/

/-- COR_STATUS.STATE while an instance is bound and not stopped. -/
def Inst.shown (y : Inst) : CoreState :=
  match y.wait with
  | .gate => .waitGate
  | .dmaw _ => .waitDma
  | .dmaTag _ => .waitDma
  | _ => .running

/-- FRAME_NS and the entries of the committed table. -/
def Dev.rotTable (d : Dev) : Nat × List RotEnt :=
  match d.survey.committed with
  | none => (1, [])
  | some i => i.rotation.getD (1, [])

/-- The start of the frame that the time base stands in (R312). -/
def Dev.rotFrame (d : Dev) : Nat := d.time.cnt / max 1 d.rotTable.1 * max 1 d.rotTable.1

/-- The entry in force at the time base's time, with its start. -/
def Dev.rotNow (d : Dev) : Option (Nat × Nat) :=
  let es := d.rotTable.2
  (((List.range es.length).zip es).filter fun q => decide (d.rotFrame + q.2.startNs ≤ d.time.cnt)).getLast?.map fun q =>
    (q.1, d.rotFrame + q.2.startNs)

/-- The entry with an index. -/
def Dev.rotEnt (d : Dev) (j : Nat) : Option RotEnt := d.rotTable.2[j]?

/-- The next start of an entry. -/
def Dev.rotNext (d : Dev) (e : RotEnt) : Nat :=
  let s := d.rotFrame + e.startNs
  if d.time.cnt < s then s else s + max 1 d.rotTable.1

/-- Entries whose start is SCH_RT_LEAD.US away or nearer. -/
def Dev.rotLeads (d : Dev) : List Nat :=
  let es := d.rotTable.2
  (((List.range es.length).zip es).filter fun q =>
    decide (d.rotNext q.2 ≤ d.time.cnt + 1000 * d.reg .schRtLead 0)).map Prod.fst

/-- The named fields of an entry that count. -/
def Dev.rotFields (d : Dev) (e : RotEnt) : List Nat :=
  if (d.dist e.district).state = .active then (bitsOf e.fieldMask 16).filter fun f => !d.fenced kField f else []

/-- Entries in force or led into. -/
def Dev.rotEnts (d : Dev) : List RotEnt := ((d.rotNow.toList.map Prod.fst) ++ d.rotLeads).filterMap d.rotEnt

/-- Those that count for a field (R312, R313). -/
def Dev.rotLive (d : Dev) (f : Nat) : List RotEnt := d.rotEnts.filter fun e => (d.rotFields e).contains f

/-- An entry of KIND 0x1 keeps a field for a district's serving context; one of KIND 0x2 empties it. -/
def Dev.rtHolds (d : Dev) (f c : Nat) : Bool :=
  (d.rotLive f).any fun e => e.kind == 2 || (e.kind == 1 && c != 1024 + e.district)

/-- The stop that awaits an instance which starts or resumes on a core (R310). -/
def Dev.stopDue (d : Dev) (i c : Nat) : Option StopCause :=
  let l := d.rotLive (i / 16)
  if (d.field (i / 16)).inTest ∨ l.any (fun e => e.kind == 2) = true then some .selfTest
  else if l.any (fun e => e.kind == 1 && c != 1024 + e.district) then some .realTime
  else if (d.ctx c).state = .draining then some .eviction
  else if (d.core i).toPool.isSome then some .lending
  else none

/-- Instances that an entry pre-empts. -/
def Dev.rotStops (d : Dev) (e : RotEnt) : Dev :=
  if e.kind ≠ 1 ∧ e.kind ≠ 2 then d else
  (d.rotFields e).foldl (fun d f => (coresIn f).foldl (fun d i => match (d.core i).inst with
    | none => d
    | some y =>
      if e.kind = 2 then d.stopCore i .selfTest
      else if y.ctx = 1024 + e.district then d else d.stopCore i .realTime) d) d

/-- A field is in a self-test slot now, or not: it leaves every pool for the slot and rejoins them at its end (R313). -/
def Dev.putTest (d : Dev) (f : Nat) (on : Bool) : Dev :=
  if (d.field f).inTest = on then d else d.modField f fun x => { x with inTest := on }

/-- The entry in force at the time base's time takes effect, also where the time base was stepped or the table has changed,
and so does the lead of the entries that come (R312, R313). -/
def Dev.rotSync (d : Dev) : Dev :=
  let e := d.rotNow.bind fun q => d.rotEnt q.1
  let d := if d.sched.rot = d.rotNow then d else d.setSched { d.sched with rot := d.rotNow, rtDispatched := false }
  let test := match e with | some e => if e.kind = 2 then d.rotFields e else [] | none => []
  d.rotEnts.foldl Dev.rotStops ((List.range 16).foldl (fun d f => d.putTest f (test.contains f)) d)

/-- An instance starts on a core whose pond is its own (R105, R107, 06 R149). -/
def Dev.beginInst (d : Dev) (i : Nat) (y : Inst) : Dev :=
  let d := y.boot.foldl (fun d b => d.write (pondBase i + b.1) b.2) d
  let now := d.eff
  d.modCore i fun x => { x with
    state := .running, starting := none, lastCtx := y.ctx, stop := d.stopDue i y.ctx, stopAt := d.time.osc, stopped := false
    inst := some { y with boot := [], accountedAt := now, resumedAt := now } }

/-- The rest of what an instruction writes, which a stop inside it left, goes into a core's pond (R93). -/
def Dev.writeRest (d : Dev) (i : Nat) (x : Flight) : Dev × Flight :=
  (x.rest.foldl (fun d w => d.write (pondBase i + w.1) w.2) d,
   if x.rest.isEmpty then x else
     { x with old := x.rest.map fun w => (w.1, d.read (pondBase i + w.1) w.2.length), rest := [] })

/-- The instructions in flight of an instance go on from where a stop left them. -/
def Dev.resumeFlights (d : Dev) (i : Nat) (y : Inst) : Dev × Inst :=
  let (d, l) := y.flight.foldl (fun (q : Dev × List Flight) x => let (d, x) := q.1.writeRest i x; (d, q.2 ++ [x])) (d, [])
  (d, { y with flight := l })

/-- The abandoned transfers of an instance start again, under a generation of their own (R307, R308). -/
def Inst.reissue (y : Inst) (gen now : Nat) : Inst :=
  { y with tags := y.tags.map fun (k, t) => (k, t.map fun t =>
      if t.reissue then { t with reissue := false, started := true, gen, since := now } else t) }

/-- A suspended instance runs again on a core that holds its state (R309). -/
def Dev.resumeOn (d : Dev) (i : Nat) (y : Inst) : Dev :=
  let now := d.eff
  let y := ({ y with accountedAt := now, resumedAt := now }).reissue ((d.core i).dmaGen + 1) now
  let (d, y) := d.resumeFlights i y
  (d.resumeWaits i y).modCore i fun x => { x with
    dmaGen := x.dmaGen + 1
    state := y.shown, held := none, restoring := none, lastCtx := y.ctx
    stop := d.stopDue i y.ctx, stopAt := d.time.osc, stopped := false, inst := some y }

/-- The next stage of a core that is to run an instance: the save of another, the clear, or the start; a restore waits
for its own end. -/
def Dev.prepare (d : Dev) (i : Nat) : Dev :=
  let x := d.core i
  if x.inst.isSome then d
  else if x.held.isSome ∧ (x.starting.isSome ∨ x.restoring.isSome) then
    d.modCore i fun x => { x with
      saving := true, state := .clearing
      held := x.held.map fun y => if x.saving then y else { y with accountedAt := d.eff } }
  else if x.saving then d
  else match x.starting with
    | some y => if x.lastCtx ≠ 0x7FF ∧ x.lastCtx ≠ y.ctx then d.modCore i fun x => { x with state := .clearing }
      else d.beginInst i y
    | none => match x.restoring with
      | some _ => d.modCore i fun x => { x with state := .clearing }
      | none => d.modCore i fun x =>
        { x with state := match x.state with | .clearing => .idle | s => s }

/-- The core awaits the end of a clear. -/
def Core.toClear (x : Core) : Bool :=
  !x.saving && x.lastCtx != 0x7FF && match x.starting with
    | some y => x.lastCtx != y.ctx
    | none => match x.restoring with
      | some y => x.lastCtx != y.ctx
      | none => false

/-- Operand slots that a clear has written with zeros. -/
def zeroSlots : Tbl Slot :=
  (List.range 8).foldl (fun t b => Tbl.set Slot.init t b { Slot.init with cleared := true }) []

/-- The clear of a core writes zeros over its pond, slots and banks (04 R111). -/
def Dev.clearCore (d : Dev) (i : Nat) : Dev :=
  (d.scrub (pondBase i) (pondSize i)).modCore i fun x => { x with slots := zeroSlots, banks := [], lastCtx := 0x7FF }

/-- Bytes of a core's save record (R309). -/
def recBytes (i : Nat) : Nat := if isRunnel i then 1604 * 1024 else 3252 * 1024

/-- Where the record of a core's instance goes in the save area: the lowest place that the records there leave (which is
a DESIGN CHOICE, log entry 122). -/
def Dev.recPlace (d : Dev) (i : Nat) : Nat :=
  let k := (d.field (i / 16)).district
  let used := (d.saves.filter fun r => (d.field (r.core / 16)).district == k).map fun r => (r.place, recBytes r.core)
  (fit (recBytes i) (cutAll [(0, match k with | some k => (d.dist k).saveBytes | none => 0)] used)).getD 0

/-- The range of a save record. -/
def Dev.recRange (d : Dev) (r : SaveRec) : Nat × Nat :=
  ((match (d.field (r.core / 16)).district with | some k => (d.dist k).saveBase | none => 0) + r.place, recBytes r.core)

/-- The save record of the instance that a core holds (R309). -/
def Dev.saveRec (d : Dev) (i : Nat) (y : Inst) : SaveRec :=
  { core := i, place := d.recPlace i, inst := y, slots := (d.core i).slots, banks := (d.core i).banks
    pond := (d.mem.filter fun c => decide (pondBase i ≤ c.1 ∧ c.1 < pondBase i + pondSize i)).map fun c =>
      (c.1 - pondBase i, c.2) }

/-- A save ends: the record holds the instance (R309). -/
def Dev.saveDone (d : Dev) (i : Nat) : Dev :=
  let d := d.account i
  let x := d.core i
  match x.held with
  | none => d
  | some y =>
    let d := d.setSaves (d.saves ++ [d.saveRec i y])
    (d.modCore i fun x => { x with held := none, saving := false }).prepare i

/-- A restore ends: pond, slots and banks are the record's, and the instance resumes (R309). -/
def Dev.restoreDone (d : Dev) (i : Nat) : Dev :=
  let d := d.account i
  match (d.core i).restoring with
  | none => d
  | some y => match d.saves.find? fun r => r.inst.waiter == y.waiter with
    | none => d.modCore i fun x => { x with restoring := none, state := .idle }
    | some r =>
      let d := (d.scrub (pondBase i) (pondSize i)).setSaves (d.saves.filter fun q => q.inst.waiter != y.waiter)
      let d := r.pond.foldl (fun d c => d.write (pondBase i + c.1) [c.2]) d
      (d.modCore i fun x => { x with slots := r.slots, banks := r.banks }).resumeOn i r.inst

/-! ### Which cores an instance can take -/

/-- A core takes an instance of a context now: it is idle, usable and its field runs. -/
def Dev.takes (d : Dev) (i c : Nat) : Bool :=
  let x := d.core i
  let f := d.field (i / 16)
  d.usable i && x.inst.isNone && x.starting.isNone && x.restoring.isNone && !x.saving && x.toPool.isNone &&
    (match x.state with | .idle => true | .faulted => true | _ => false) &&
    f.state == .active && !f.inTest && !d.rtHolds (i / 16) c

/-- The context may run instances: a system context, or a resident one. -/
def Dev.mayRun (d : Dev) (c : Nat) : Bool :=
  match (d.ctx c).state with
  | .runnable => !(d.ctx c).rootLoading
  | .blocked => !(d.ctx c).rootLoading
  | _ => false

/-- The Flume jobs of a program are suspended while it is pre-empted, or its context may not run (05 R144, 13 R301). -/
def Dev.progSuspended (d : Dev) (f s : Nat) : Bool :=
  match d.prog f s with
  | none => false
  | some p => !d.mayRun p.ctx || (!(d.instsOf f s).isEmpty && !d.anyRunning f s)

/-- Cores of a field that take an instance of a type, pool and context, in ascending position. -/
def Dev.idleCores (d : Dev) (f : Nat) (runnel : Bool) (pool : Pool) (c : Nat) : List Nat :=
  (coresIn f).filter fun i => isRunnel i == runnel && (d.core i).pool == pool && d.takes i c

/-- A program's grant is reserved, or reserved again at this instant; else its resume waits as FGRANT waits (16
R365). -/
def Dev.reserveAgain (d : Dev) (f s k : Nat) : Dev × Bool :=
  match d.grant? f s with
  | none => (d, true)
  | some g =>
    if g.reserved then (d, true)
    else if (d.power.waiting.any fun w => w.district == k && !(w.field == f && w.slot == s)) = false ∧ d.fits k g.rate = true then
      ((d.putGrant f s (some { g with reserved := true })).modPower fun x =>
        { x with waiting := x.waiting.filter fun w => !(w.field == f && w.slot == s) }, true)
    else if d.power.waiting.any (fun w => w.field == f && w.slot == s) then (d, false)
    else (d.modPower fun x => { x with waiting := x.waiting ++
      [{ field := f, slot := s, district := k, energy := g.left, dur := 0, since := d.eff, resume := true }] }, false)

/-! ### Binding (04 R107, 13 R305) -/

/-- The instances that an FRUN of an image binds now: the cores, or none. -/
def Dev.bindCores (d : Dev) (f s : Nat) (p : Prog) (img : Nat) : Option (List Nat) :=
  match p.imgs[img]? with
  | none => none
  | some m =>
    let idle := d.idleCores f m.runnel p.pool p.ctx
    let live := ((d.instsOf f s).filter fun y => match p.imgs[y.image]? with
      | some z => z.runnel == m.runnel | none => false).length
    let n := min (min idle.length m.countMax) ((d.usableOf f m.runnel).length - live)
    if m.countMin ≤ n ∧ d.mayRun p.ctx = true then some (idle.take n) else none

/-- The instance of an FRUN (04 R90, R105). -/
def Prog.newInst (p : Prog) (f s img run n idx : Nat) (block : List (Nat × Bytes)) : Inst :=
  let m := nth { runnel := false, countMin := 0, countMax := 0, code := [], pondBase := 0 } p.imgs img
  { ctx := p.ctx, field := f, slot := s, image := img, index := idx, pc := m.pondBase, codeBase := m.pondBase,
    codeLen := m.code.length,
    ptrs := ((List.range 13).map fun r => Tbl.get 0 p.setp r % 2 ^ 22) ++ [p.rank, n, idx],
    loops := [], tensor := 0, ebase := 0, stride := 0, strict := p.strict, convNan := p.convNan,
    events := List.replicate 8 0, wait := .none, flight := [], tags := [], ran := 0, accountedAt := 0,
    resumedAt := 0, run, boot := (m.pondBase, m.code) :: block }

/-- Bind instances of an image to cores. -/
def Dev.bind (d : Dev) (f s : Nat) (p : Prog) (img run : Nat) (cores : List Nat) (block : List (Nat × Bytes)) :
    Dev :=
  ((List.range cores.length).zip cores).foldl (fun d q =>
    let y := { p.newInst f s img run cores.length q.1 block with accountedAt := d.eff }
    (d.modCore q.2 fun x => { x with
      starting := some y, state := .clearing
      held := x.held.map fun h => { h with accountedAt := d.eff } }).prepare q.2) d

/-! ### Suspension and resumption (04 R114, 13 R307 to R310) -/

/-- A core joins the pool that lending moves it to, and FLD_LEND_TIME records the instant (04 R114). -/
def Dev.joinPool (d : Dev) (i : Nat) : Dev :=
  match (d.core i).toPool with
  | none => d
  | some p =>
    let (m, d) := d.mark (srcSteward (i / 16))
    (d.modCore i fun x => { x with pool := p, toPool := none }).modField (i / 16) fun z => { z with lendTime := m }

/-- Transfers that a stop waits for: those whose requests are out (R307). A descriptor that still waits on its Gate
stays with the instance. -/
def Inst.outstanding (y : Inst) : List (Nat × DmaTag) := y.inFlight.filter fun (_, t) => t.started && !t.reissue

/-- The instance of a core is gone: its waits end and late responses are discarded (13 R308). -/
def Dev.dropInst (d : Dev) (i : Nat) (state : CoreState) : Dev :=
  let d := d.account i
  let x := d.core i
  match x.inst with
  | none => d
  | some y =>
    let d := y.outstanding.foldl (fun d (_, t) => d.landSome i y.ctx t.desc) d
    (d.joinPool i |>.dropInstWaits i y).modCore i fun x => { x with
      inst := none, state, stop := none, stopped := false, dmaGen := x.dmaGen + 1
      late := x.late ++ (y.outstanding.map fun (t, g) => (t, g.gen)) }

/-- The program in a slot is ending. -/
def Dev.ends (d : Dev) (f s : Nat) : Bool := match d.prog f s with | some p => p.ending.isSome | none => true

/-- A core whose instance has stopped and whose transfers are over: it is suspended in the core, which joins the pool
that lending moves it to. The instance of a program that is ending is discarded (04 R110). -/
def Dev.suspendNow (d : Dev) (i : Nat) : Dev :=
  let d := d.account i
  let x := d.core i
  match x.inst with
  | none => d
  | some y =>
    if d.ends y.field y.slot then d.dropInst i .idle else
    let d := d.suspendWaits i y
    let d := (d.joinPool i).modCore i fun x => { x with
      inst := none, held := some y, state := .idle, stop := none, stopped := false }
    (d.setSched { d.sched with preempt := sat32 (d.sched.preempt + 1) }).reserveNow y.field y.slot

/-- A pond byte lies in what an instruction in flight writes. -/
def Flight.covers (x : Flight) (a : Nat) : Bool := (x.old.any fun r => inRange a (r.1, r.2.length))

/-- The writes of an instruction in flight are taken back from a place on in each of them, but where a later one has
written: what is left to write. -/
def Dev.takeBack (d : Dev) (i : Nat) (later : List Flight) (kept : Nat → Nat) : List (Nat × Bytes) → Dev × List (Nat × Bytes)
  | [] => (d, [])
  | (a, old) :: l =>
    let n := min old.length (kept old.length)
    let new := d.read (pondBase i + a + n) (old.length - n)
    let back := ((List.range new.length).zip (new.zip (old.drop n))).map fun (j, x, y) =>
      if later.any fun f => f.covers (a + n + j) then x else y
    let (d, r) := (d.write (pondBase i + a + n) back).takeBack i later kept l
    (d, if new.isEmpty then r else (a + n, new) :: r)

/-- An instruction in flight at a stop (R93): a VECTOR or XFORM instruction with an inner tile boundary stops at one of
them, which is free, or has written its last; every other completes. -/
def Dev.cutFlight (d : Dev) (i : Nat) (x : Flight) (later : List Flight) : Dev × Option Flight :=
  if (x.cls ≠ 3 ∧ x.cls ≠ 4) ∨ x.step = 0 ∨ x.elems ≤ x.step then (d, none) else
  let (n, d) := d.draw
  let inner := (x.elems - 1) / x.step
  let j := Config.freeNat n % (inner + 1) + 1
  if inner < j then (d, none) else
  let done := j * x.step
  let (d, rest) := d.takeBack i later (fun len => if x.atEnd then 0 else done * len / x.elems) x.old
  (d, some { x with elems := x.elems - done, old := [], rest })

/-- A stopped core whose transfers are over is suspended. -/
def Dev.trySuspend (d : Dev) (i : Nat) : Dev :=
  let x := d.core i
  match x.inst with
  | none => d
  | some y => if x.stopped ∧ y.outstanding.isEmpty = true then d.suspendNow i else d

/-- The suspended instances of a program, and those about to start, are discarded; saves in progress are abandoned. -/
def Dev.dropSuspended (d : Dev) (f s : Nat) : Dev :=
  let mine (y : Inst) : Bool := y.field == f && y.slot == s
  let d := (d.instsOf f s).foldl (fun d y =>
    d.dropWaits fun w => w.who == y.waiter || (List.range 16).any fun t => w.who == y.dmaWaiter t) d
  let d := d.setSaves (d.saves.filter fun r => !mine r.inst)
  d.cores.foldl (fun d (i, x) =>
    if (x.held.toList ++ x.starting.toList ++ x.restoring.toList).any mine then
      let d := d.account i
      let keep (z : Option Inst) : Option Inst := z.filter fun y => !mine y
      let h := x.held.any mine
      (d.modCore i fun x => { x with
        held := keep x.held, starting := keep x.starting, restoring := keep x.restoring
        saving := x.saving && !h
        late := x.late ++ (x.held.toList.filter mine).flatMap fun y => y.inFlight.filterMap fun (t, g) =>
          if g.outstanding = 0 then none else some (t, g.gen) }).prepare i
    else d) d

/-- Suspended instances of a field, with the core that holds each, if one does. -/
def Dev.suspended (d : Dev) (f : Nat) : List (Option Nat × Inst) :=
  ((coresIn f).filterMap fun i => if (d.core i).saving then none else (d.core i).held.map fun y => (some i, y)) ++
    (d.saves.filter fun r => r.inst.field == f && !(d.cores.any fun (_, x) =>
      x.restoring.any fun y => y.waiter == r.inst.waiter)).map fun r => (none, r.inst)

/-- A program that waits at FRUN for the same cores and whose context has a lower V comes first (13 R305, R306). -/
def Dev.outranked (d : Dev) (f : Nat) (runnel : Bool) (pool : Pool) (c : Nat) : Bool :=
  (d.field f).progs.any fun (_, q) => match q.wait with
    | .frun img => q.pool == pool && decide (d.vNow q.ctx < d.vNow c) &&
        (match q.imgs[img]? with | some m => m.runnel == runnel | none => false)
    | _ => false

/-- An instance waits for the answers of an abandoned transfer before its reissue (13 R308). -/
def Inst.waitsReissue (y : Inst) : Bool := y.inFlight.any fun (_, t) => t.reissue && t.outstanding != 0

/-- Resume one suspended instance where it can (04 R114). -/
def Dev.resume1 (d : Dev) (f : Nat) (q : Option Nat × Inst) : Dev :=
  let y := q.2
  match d.prog f y.slot with
  | none => d
  | some p =>
    let runnel := match p.imgs[y.image]? with | some m => m.runnel | none => false
    let cores := d.idleCores f runnel p.pool p.ctx
    if cores.isEmpty ∨ p.ending.isSome = true ∨ d.mayRun y.ctx = false ∨ y.waitsReissue = true ∨ d.outranked f runnel p.pool y.ctx = true
    then d else
    let (d, ok) := d.reserveAgain f y.slot p.district
    if !ok then d else
    match q.1 with
    | some i =>
      if cores.contains i then d.resumeOn i y
      else d.modCore i fun x => { x with saving := true, state := .clearing,
                                         held := x.held.map fun h => { h with accountedAt := d.eff } }
    | none => match cores.find? fun i => (d.core i).held.isNone with
      | some i => (d.modCore i fun x => { x with restoring := some { y with accountedAt := d.eff }, state := .clearing }).prepare i
      | none => match cores with
        | [] => d
        | i :: _ => (d.modCore i fun x => { x with restoring := some { y with accountedAt := d.eff }, state := .clearing }).prepare i

/-- Resume what can resume in a field, the lower V first. -/
def Dev.resumeField (d : Dev) (f : Nat) : Dev :=
  (sortBy (fun (q : Option Nat × Inst) => d.vNow q.2.ctx) (d.suspended f)).foldl (fun d q => d.resume1 f q) d

end Sys2Proof.Machine
end

