-- ==== Sys2Proof/Machine/ServeOps.lean ====
section
/-!
DEFINITION. What Intake keeps and how a request ends: parcels, prefixes, charges, energy, Outfall records, Offtake pins
(09 R222 to R235, 10 R250 to R253).
-/
namespace Sys2Proof.Machine

def Dev.serve (d : Dev) (k : Nat) : Serve := Tbl.get Serve.init d.serves k
def Dev.putServe (d : Dev) (k : Nat) (x : Serve) : Dev := d.setServes (Tbl.set Serve.init d.serves k x)
def Dev.modServe (d : Dev) (k : Nat) (f : Serve → Serve) : Dev := d.putServe k (f (d.serve k))

def Dev.ten (d : Dev) (t : Nat) : Tenant := Tbl.get Tenant.init d.tenants t
def Dev.putTen (d : Dev) (t : Nat) (x : Tenant) : Dev := d.setTenants (Tbl.set Tenant.init d.tenants t x)

def Dev.req? (d : Dev) (n : Nat) : Option Req := d.reqs.find? fun r => r.num == n
def Dev.modReq (d : Dev) (n : Nat) (f : Req → Req) : Dev := d.setReqs (d.reqs.map fun r => if r.num = n then f r else r)
def Dev.reqsOf (d : Dev) (k : Nat) : List Req := d.reqs.filter fun r => r.district == k
def Dev.reqsOfTenant (d : Dev) (t : Nat) : List Req := d.reqs.filter fun r => r.tenant == t

/-! ### Parcels (R222) -/

/-- Live prefix entries of a district, with their indexes. -/
def Dev.prefixesOf (d : Dev) (k : Nat) : List (Nat × Prefix) := (d.serve k).prefixes.filter fun (_, p) => p.live

/-- Unreferenced retained entries, the least recently used first. -/
def Dev.retained (d : Dev) (k : Nat) : List (Nat × Prefix) :=
  sortBy (fun p => p.2.lastUse) ((d.prefixesOf k).filter fun (_, p) => p.refs == 0)

/-- Parcels of a district that are not free. -/
def Dev.usedParcels (d : Dev) (k : Nat) : List Nat :=
  ((d.reqsOf k).flatMap fun r => r.parcels) ++ (d.prefixesOf k).map fun (_, p) => p.parcel

/-- The parcels of a district's pool that lie on its own devices (01 R28, R32), as ranges of numbers. -/
def Dev.parcelRuns (d : Dev) (k : Nat) : List (Nat × Nat) :=
  let (base, _) := d.parcelPool k
  let count := d.reg .intParcelCount k
  let stride := d.reg .intParcelStride k
  if stride = 0 then [(0, count)] else
  (homeRuns (d.dist k).devices).map fun r =>
    let lo := if r.1 ≤ base then 0 else ceilDiv (r.1 - base) stride
    (lo, min count ((r.1 + r.2 - base) / stride) - lo)

/-- Free parcels. -/
def Dev.freeParcels (d : Dev) (k : Nat) : Nat :=
  sumNat ((d.parcelRuns k).map Prod.snd) - (d.usedParcels k).length

/-- The n lowest free parcels. -/
def Dev.takeParcels (d : Dev) (k n : Nat) : List Nat :=
  let u := d.usedParcels k
  ((d.parcelRuns k).flatMap fun r =>
    (((List.range (min r.2 (n + u.length))).map fun i => r.1 + i).filter fun i => !u.contains i)).take n

/-- Parcels that a request of a descriptor needs: P. -/
def ReqDesc.parcels (x : ReqDesc) : Nat := ceilDiv (x.prompt + x.maxNew) 64 + 1

/-- An entry leaves the prefix table: its index's generation advances. -/
def Dev.dropPrefix (d : Dev) (k i : Nat) : Dev :=
  d.modServe k fun x => { x with
    prefixes := Tbl.modify Prefix.init x.prefixes i fun p => { Prefix.init with gen := (p.gen + 1) % 256 } }

/-- Drop the first n of a list of entries. -/
def Dev.reclaim (d : Dev) (k n : Nat) (l : List (Nat × Prefix)) : Dev := (l.take n).foldl (fun d p => d.dropPrefix k p.1) d

/-- A reference more or less on an entry. -/
def Dev.refPrefix (d : Dev) (k i : Nat) (up : Bool) : Dev :=
  let p := Tbl.get Prefix.init (d.serve k).prefixes i
  if !up && p.refs ≤ 1 && p.domain == 0 then d.dropPrefix k i
  else d.modServe k fun x => { x with
    prefixes := Tbl.modify Prefix.init x.prefixes i fun p =>
      { p with refs := if up then p.refs + 1 else p.refs - 1, lastUse := d.time.cnt } }

/-- The entries of a key domain go: none matches any more, and one that a live request refers to keeps its parcel
until its last reference is dropped (R229, R230). -/
def Dev.dropDomain (d : Dev) (k dom : Nat) : Dev :=
  if dom = 0 then d else
  ((d.prefixesOf k).filter fun (_, p) => p.domain == dom).foldl (fun (d : Dev) q =>
    if q.2.refs = 0 then d.dropPrefix k q.1
    else d.modServe k fun x => { x with prefixes := Tbl.modify Prefix.init x.prefixes q.1 fun p => { p with domain := 0 } }) d

/-! ### Share groups (R229) -/

/-- The key domain under which a tenant of district k hashes. -/
def Dev.domainOf (d : Dev) (k t : Nat) : Nat :=
  let x := d.ten t
  if x.group = 0 then x.domain else Tbl.get 0 (d.serve k).groups x.group

/-- A tenant leaves its group; the last member's leave destroys the group's key and its entries. -/
def Dev.leaveGroup (d : Dev) (k t : Nat) : Dev :=
  let g := (d.ten t).group
  if g = 0 then d else
  let d := d.putTen t { d.ten t with group := 0 }
  if d.tenants.any fun q => q.2.group == g && (d.tenant q.1).district == k then d
  else (d.dropDomain k (Tbl.get 0 (d.serve k).groups g)).modServe k fun x => { x with groups := Tbl.set 0 x.groups g 0 }

/-- A tenant joins a group of its district; the first member's join draws the group's key. -/
def Dev.joinGroup (d : Dev) (k t g : Nat) : Dev :=
  if g = 0 then d else
  let d := d.putTen t { d.ten t with group := g }
  if Tbl.get 0 (d.serve k).groups g ≠ 0 then d else
  let (n, d) := d.draw
  d.modServe k fun x => { x with groups := Tbl.set 0 x.groups g (n + 1) }

/-- A tenant's group follows what its physical function offers and what it has consented to. -/
def Dev.regroup (d : Dev) (t : Nat) : Dev :=
  let k := (d.districtOf t).getD 16
  let g := d.reg .intGroup t
  let want := if k < 16 ∧ d.isServe k = true ∧ g = d.reg .intVfShare t then g else 0
  if want = (d.ten t).group ∧ (want = 0 ∨ Tbl.get 0 (d.serve k).groups want ≠ 0) then d
  else (d.leaveGroup k t).joinGroup k t want

/-! ### Charged memory (R223) -/

/-- Offtake memory charged to a tenant (10 R250), installs in progress included. -/
def Dev.oftCharge (d : Dev) (t : Nat) : Nat :=
  sumNat ((d.ofts.filter fun v => v.tenant == t).map fun v => v.charge) +
    sumNat ((d.oftInsts.filter fun v => v.ver.tenant == t).map fun v => v.ver.charge)

/-- Parcels charged to a tenant. -/
def Dev.parcelsOf (d : Dev) (t k : Nat) : Nat :=
  sumNat ((d.reqsOfTenant t).map fun r => r.parcels.length) +
    ((d.prefixesOf k).filter fun (_, p) => p.tenant == t).length

/-- A tenant's charged memory in bytes. -/
def Dev.chargedMem (d : Dev) (t : Nat) : Nat :=
  (match d.districtOf t with
    | none => 0
    | some k => d.reg .intParcelStride k * d.parcelsOf t k) +
  d.oftCharge t + sumNat ((d.ctx t).maps.map fun m => m.bytes)

/-! ### Energy (R224) -/

/-- The bucket at this instant: it has been refilled up to its capacity, in nJ. -/
def Dev.refilled (d : Dev) (t : Nat) : Tenant :=
  let x := d.ten t
  let w := d.reg .intEnergy t
  let cap : Int := w * 10 ^ 9
  { x with bucket := if x.bucket ≥ cap then x.bucket else min cap (x.bucket + w * ((d.time.osc - x.refilledAt : Nat) : Int)),
           refilledAt := d.time.osc }

/-- The refill so far is settled, before the rate changes. -/
def Dev.settleBucket (d : Dev) (t : Nat) : Dev := d.putTen t (d.refilled t)

/-- Add µJ to a tenant's bucket. -/
def Dev.addBucket (d : Dev) (t : Nat) (uj : Int) : Dev :=
  let x := d.refilled t
  d.putTen t { x with bucket := x.bucket + 1000 * uj }

/-- A charge a of R224 to a request. -/
def Dev.chargeReq (d : Dev) (r : Req) (a : Nat) : Dev :=
  let d := d.modReq r.num fun r => { r with charged := r.charged + a, remainder := r.remainder - a }
  let d := d.modOrder r.order fun o => { o with charged := o.charged + a }
  if a ≤ r.remainder then d else d.addBucket r.tenant (-((a - r.remainder : Nat) : Int))

/-! ### Offtake versions (10 R250 to R253) -/

/-- Scrub the memory of a version (10 R253). -/
def Dev.scrubPlace (d : Dev) (l : List (Nat × Nat)) : Dev := l.foldl (fun d r => d.scrub r.1 r.2) d

/-- Versions that are neither current nor pinned are freed (R250). -/
def Dev.retireOfts (d : Dev) : Dev :=
  let gone := d.ofts.filter fun v => !v.current && v.pins == 0
  (gone.foldl (fun d v => d.scrubPlace v.place) d).setOfts (d.ofts.filter fun v => v.current || v.pins != 0)

/-- The current version of a tenant's variant. -/
def Dev.oftCurrent (d : Dev) (t variant : Nat) : Option OftVer :=
  d.ofts.find? fun v => v.tenant == t && v.variant == variant && v.current

/-- A pin more or less on a version. -/
def Dev.oftPin (d : Dev) (t variant version : Nat) (up : Bool) : Dev :=
  (d.setOfts (d.ofts.map fun v =>
    if v.tenant = t ∧ v.variant = variant ∧ v.version = version then
      { v with pins := if up then v.pins + 1 else v.pins - 1 } else v)).retireOfts

/-! ### Use pins of profiles (11 R277) -/

def Dev.profile (d : Dev) (k p : Nat) : Option Profile := (d.serve k).profiles[p]?

/-- A pin more or less on the entries of a profile. -/
def Dev.pinProfile (d : Dev) (k p : Nat) (up : Bool) : Dev :=
  match d.profile k p with
  | none => d
  | some x =>
    let one (d : Dev) (h : Nat) : Dev := match d.handle? h k with
      | none => d
      | some i => if up then d.usePin i else d.useUnpin i
    let d := one d x.teacher
    if x.student = 0xFFFFFFFF then d else one d x.student

/-! ### Outfall records (R232, Table 09-5) -/

/-- The 64 bytes of an Outfall record. -/
def outBytes (type flags status token id mark index latency step accepted tree value cached handle : Nat) : Bytes :=
  le 1 type ++ le 1 flags ++ le 2 status ++ le 4 token ++ le 8 id ++ le 8 mark ++ le 4 index ++ le 4 (sat32 latency) ++
    le 4 step ++ le 2 accepted ++ le 2 tree ++ le 4 value ++ le 4 cached ++ le 4 handle ++ zeros 12

/-- TAIL as the memory at TAIL_ADDR holds it. -/
def Dev.outTail (d : Dev) (r : Req) : Nat := ofLe (d.loadCtx r.tenant r.desc.tailAddr 4)

/-- There is room for a TOKEN record: the last free slot is kept (R232). -/
def Dev.outRoom (d : Dev) (r : Req) : Bool :=
  decide (w32 (r.records + 2 ^ 32 - d.outTail r) < r.desc.outEntries - 1)

/-- The device reads TAIL_ADDR. -/
def Dev.readTail (d : Dev) (r : Req) : Dev := d.reads (d.hgAcc r.tenant) r.tenant r.desc.tailAddr 4

/-- Write a record in the next slot of the ring. The PHASE bit is added to its FLAGS. -/
def Dev.outWrite (d : Dev) (r : Req) (rec : Nat → Bytes) : Dev :=
  let e := r.desc.outEntries
  (d.storeCtx (d.hgAcc r.tenant) r.tenant (r.desc.outAddr + 64 * (r.records % e)) (rec (b2n (phaseOf r.records e)))).modReq r.num
    fun r => { r with records := r.records + 1 }

/-- Write a TOKEN record. -/
def Dev.outToken (d : Dev) (r : Req) (x : OutRec) : Dev :=
  d.outWrite r fun ph =>
    outBytes 1 (x.flags + ph) 0 x.token r.desc.id x.mark x.index x.latency x.step x.accepted x.tree x.value x.cached x.handle

/-! ### The end of a request (R220, R234, R235) -/

/-- The prompt blocks of a request that ended with DONE under KEEP_PREFIX become entries (R230): block b takes the
request's own parcel b - H. parent is the handle of the entry of the block before. -/
def Dev.keepBlocks (d : Dev) (r : Req) : List (Bytes × Nat) → Nat → Nat → Dev
  | [], _, _ => d
  | (dg, parcel) :: l, b, parent =>
    let t := (d.serve r.district).prefixes
    let i := ((List.range (t.length + 1)).find? fun i => !(Tbl.get Prefix.init t i).live).getD 0
    let e : Prefix := { live := true, gen := (Tbl.get Prefix.init t i).gen, digest := dg, domain := r.domain,
                        parent := parent, block := b, parcel := parcel, tenant := r.tenant, refs := 0,
                        lastUse := d.time.cnt }
    (d.modServe r.district fun x => { x with prefixes := Tbl.set Prefix.init x.prefixes i e }).keepBlocks r l (b + 1) (handleOf i e.gen)

/-- The rows of a request are masked in every serving program of its district, running or waiting (R234). -/
def Dev.maskRows (d : Dev) (k n : Nat) : Dev :=
  let one (p : Prog) : Prog :=
    if p.ctx = 1024 + k then { p with table := p.table.map fun r => if r.req = n then { r with masked := true } else r } else p
  (d.fieldsOf k).foldl (fun (d : Dev) f => d.modField f fun x =>
    { x with slots := x.slots.map fun p => p.map one, queue := x.queue.map one }) d

/-- The release steps of R234 after the record: parcels and references, the charge and the energy, the pins, GATE_END,
and the order. -/
def Dev.releaseReq (d : Dev) (r : Req) (status : Nat) : Dev :=
  let h := r.hits.length
  let src := d.hgSource r.tenant
  let keep := status = 0 ∧ bit r.desc.flags 2
  let kept := if keep then (r.digests.drop h).zip r.parcels else []
  let d := d.maskRows r.district r.num
  let d := r.hits.foldl (fun d i => d.refPrefix r.district i false) d
  let d := d.setReqs (d.reqs.filter fun x => x.num != r.num)
  let last := r.hits.getLast?.getD 0
  let d := d.keepBlocks r kept h (handleOf last (Tbl.get Prefix.init (d.serve r.district).prefixes last).gen)
  let d := d.addBucket r.tenant r.remainder
  let d := if r.version = 0 then d else d.oftPin r.tenant r.desc.offtake r.version false
  let d := if (d.reqsOf r.district).any fun x => x.desc.profile == r.desc.profile then d
    else d.pinProfile r.district r.desc.profile false
  let d := if status / 16 = 0x21 then
      d.modServe r.district fun x => { x with cancelled := bump x.cancelled (status % 16) } else d
  let d := if r.desc.gateEnd ≠ 0 ∧ d.holds r.tenant r.desc.gateEnd = true then d.signal r.desc.gateEnd 1 src else d
  d.endOrder r.order status src false

/-- End a request: its END (2) or CANCELLED (3) record, then the release steps. -/
def Dev.endReq (d : Dev) (n type flags status : Nat) : Dev :=
  match d.req? n with
  | none => d
  | some r =>
    let (m, d) := d.mark (d.hgSource r.tenant)
    let d := d.outWrite r fun ph =>
      outBytes type (flags + ph) status 0 r.desc.id m r.records (m - r.markA) 0 0 0 (sat32 (r.charged / 1000)) 0 0
    d.releaseReq r status

/-- Write the held records as far as the ring has room; then the end, if the request has come to it (R232). -/
def Dev.flushReq (d : Dev) (n : Nat) : Nat → Dev
  | 0 => d
  | fuel + 1 =>
    match d.req? n with
    | none => d
    | some r => match r.held with
      | [] =>
        let d := d.modReq n fun r => { r with stallSince := none }
        (match r.finish with
          | none => d
          | some (fl, st) => d.endReq n 2 fl st)
      | x :: l =>
        let d := d.readTail r
        if d.outRoom r then ((d.outToken r x).modReq n fun r => { r with held := l }).flushReq n fuel
        else d.modReq n fun r =>
          { r with stallSince := some (r.stallSince.getD d.eff), stalled := true }

/-- Every request of a tenant ends, with an END record (R235). -/
def Dev.endTenantReqs (d : Dev) (t status : Nat) : Dev :=
  (d.reqsOfTenant t).foldl (fun d r => d.endReq r.num 2 0 status) d

/-- A context's Offtakes, private prefix entries and what waits for them are released (13 R315 step 3). -/
def Dev.releaseServing (d : Dev) (t : Nat) : Dev :=
  let d := d.setOfts (d.ofts.map fun v => if v.tenant = t then { v with current := false, pins := 0 } else v)
  let d := d.retireOfts
  let d := (d.oftInsts.filter fun v => v.ver.tenant == t).foldl (fun d v => d.scrubPlace v.ver.place) d
  let d := d.setOftInsts (d.oftInsts.filter fun v => v.ver.tenant != t)
  (List.range 16).foldl (fun d k => d.dropDomain k (d.ten t).domain) d

end Sys2Proof.Machine
end

