-- ==== Sys2Proof/Machine/ProgEnd.lean ====
section
/-!
DEFINITION. How programs end (04 R109, R110, R113), with their parts (06 R157, R160, R161), their grants (16 R363, R365)
and what waits for them.
-/
namespace Sys2Proof.Machine

/-! ### The optimiser phase (06 R159 to R161) -/

/-- Instances of OPT_IMAGE of the program in a slot, or its FRUN of it that waits. -/
def Dev.optIn (d : Dev) (f s : Nat) : Bool :=
  match d.prog f s with
  | none => false
  | some p => match p.plan? with
    | none => false
    | some q => match q.opt with
      | none => false
      | some img => !(d.instsOfImg f s img 0).isEmpty || p.wait == .frun img

/-- Some program of an order has instances of OPT_IMAGE, or waits to start them. -/
def Dev.optLive (d : Dev) (o : OrderId) : Bool :=
  d.fields.any fun (f, x) => x.progs.any fun (s, p) => p.kind == .order o && d.optIn f s

/-- A field part of an order is a straggler: the round of its step has closed without its contribution (R159, Table
06-6). -/
def Dev.straggles (d : Dev) (k : Nat) (o : OrderId) (f : Nat) : Bool :=
  let r := (d.cfl k).round
  r.order == some o && r.state != .none && r.state != .admitting && !r.settled.contains f

/-- Every field of an order whose program runs has run its OPT_IMAGE; the phase waits for no straggler (R159; DEDUCED,
log entry 121). -/
def Dev.optRan (d : Dev) (k : Nat) (o : OrderId) : Bool :=
  d.fields.all fun (f, x) => (x.progs.map Prod.snd ++ x.queue).all fun p =>
    p.kind != .order o || d.straggles k o f || match p.plan? with
      | none => true
      | some q => match q.opt with
        | none => true
        | some img => decide (0 < p.runsOf img)

/-- The optimiser phase of an order ends when every OPT_IMAGE instance on every field has executed END; the epoch
advances unless the step is skipped, and on APPLY the Gauge advances and closes the step with it (R161, 07 R175, R187). -/
def Dev.optCheck (d : Dev) (o : OrderId) : Dev :=
  match d.step? o with
  | none => d
  | some x =>
    let k := x.district
    if x.optBegun && !x.optEnded && !x.optLost && !d.optLive o && d.optRan k o then
      let d := d.modStep o fun x => { x with optEnded := true }
      if x.skip ≠ 0 then d.dropSums k
      else
        let d := d.epochAdvance k
        if x.verdict then (d.gaugeAdvance k).closeStep k x.step x.ls 1 else d.closeStep k x.step x.ls 0
    else d

/-- The optimiser phases that have come to their end. -/
def Dev.optChecks (d : Dev) : Dev := (d.steps.map fun x => x.o).foldl Dev.optCheck d

/-- Instances of OPT_IMAGE in a slot are stopped before their END: the epoch of their order does not advance (R161). -/
def Dev.loseOpt (d : Dev) (f s : Nat) : Dev :=
  if !d.optIn f s then d else
  match d.prog f s with
  | none => d
  | some p => match p.kind.order? with
    | none => d
    | some o => d.modStep o fun x => { x with optLost := true }

/-! ### Stops (R110) -/

/-- A field part gives up what it holds of the Cistern and of the Confluence: a part that a retirement stops before it
has posted gets its record (06 R160, 08 R197, R200). -/
def Dev.leavePart (d : Dev) (o : OrderId) (f code : Nat) : Dev :=
  let d := d.dropClaims fun c => c.o == o && c.field == f
  match d.part? o f with
  | none => d
  | some y =>
    let d := if code = 0x0612 ∧ y.posted = false then
        let (m, d) := (d.cflCount y.district 2 1).mark (d.cflSrc y.district)
        d.cflRecord y.district 0x0612 (match d.order? o with | some x => x.ctx | none => 1024 + y.district) m 1 (d.orderTag o)
          (some o) [f]
      else d
    let d := if y.posted then d else d.partSilent y.district o f
    d.setParts (d.parts.filter fun p => !(p.o == o && p.field == f))

/-- A program stops (R110): its running instances are asked to, its stopped and suspended ones are discarded, and its
kicked jobs abandoned. It ends with the code once its instances have stopped. -/
def Dev.stopProg (d : Dev) (f s code : Nat) (cause : StopCause) : Dev :=
  match d.prog f s with
  | none => d
  | some p =>
    if p.ending.isSome then d else
    let d := (d.loseOpt f s).modProg f s fun p => { p with ending := some code, wait := .none }
    let d := d.endWait (.steward f s)
    let d := (coresIn f).foldl (fun d i => match (d.core i).inst with
      | some y => if y.field ≠ f ∨ y.slot ≠ s then d
        else if (d.core i).stopped then d.dropInst i .idle else d.stopCore i cause
      | none => d) d
    let d := ((d.dropSuspended f s).abandonFlume f s code).abandonDiv f s
    match p.kind.order? with
    | none => d
    | some o => d.modPart o f fun y => { y with rcpBusy := false }

/-! ### The end of orders -/

/-- A TRAIN_STEP order ends without an advance: its step closes where no verdict stands, and its sums go (06 R159, 07 R186,
R187). -/
def Dev.closeOpt (d : Dev) (o : OrderId) : Dev :=
  match d.step? o with
  | none => d
  | some x =>
    if x.optEnded then d else
    let d := d.modStep o fun x => { x with optEnded := true }
    if !x.started then d
    else if x.verdict then d.dropSums x.district
    else d.closeStep x.district x.step x.ls 0

/-- Every program of an order has ended: a step's skip stands in place of DONE (07 R176). -/
def Dev.finishOrder (d : Dev) (o : OrderId) (src : Nat) : Dev :=
  match d.order? o with
  | none => d.setSteps (d.steps.filter fun x => x.o != o)
  | some x =>
    let st := d.step? o
    let d := d.closeOpt o
    let skip := match st with | some y => y.skip | none => 0
    let d := d.setSteps (d.steps.filter fun y => y.o != o)
    (d.endOrder o (if x.status ≠ 0 then x.status else skip) src false).resettle x.ctx

/-- A field's part of an order has ended with a code (R109). -/
def Dev.fieldDone (d : Dev) (o : OrderId) (f code : Nat) : Dev :=
  let d := d.modOrder o fun x => { x with
    fieldsLeft := x.fieldsLeft.filter (· != f)
    status := if x.phase = .ended ∨ x.status ≠ 0 then x.status else code }
  let d := d.optCheck o
  match d.order? o with
  | none => d.finishOrder o (srcSteward f)
  | some x => if x.fieldsLeft.isEmpty then d.finishOrder o (srcSteward f) else d

/-- Requests of a serving program that ended with a code: a fence and a drain cancel them, any other code ends them
(09 R235). -/
def Dev.failReq (d : Dev) (n code : Nat) : Dev :=
  if code = 0x0230 then d.endReq n 3 0 0x0213
  else if code = 0x0220 then d.endReq n 3 0 0x0211
  else d.endReq n 2 0 code

/-- A serving program of a field has ended (09 R226, R227). -/
def Dev.servingDone (d : Dev) (kind : ProgKind) (f code : Nat) : Dev :=
  match kind with
  | .order _ => d
  | .prefill n c =>
    let d := d.modReq n fun r => { r with
      chunks := r.chunks.modify c fun x => { x with left := x.left.filter (· != f) } }
    if code = 0 then d else d.failReq n code
  | .decode k =>
    match (d.serve k).step with
    | none => d
    | some st =>
      let left := st.left.erase f
      if code = 0 then d.modServe k fun x => { x with step := some { st with left } }
      else
        let d := st.reqs.foldl (fun d r => d.failReq r.1 code) d
        d.modServe k fun x => { x with step := if left.isEmpty then none else some { st with reqs := [], left } }

/-! ### The end of a program (R109, R113) -/

/-- The event records of FEND: numerical events (03 R80) and the Cistern's (06 R165). -/
def Dev.progRecords (d : Dev) (f : Nat) (p : Prog) : Dev :=
  let (m, d) := d.mark (srcSteward f)
  let d := (List.range 8).foldl (fun d i =>
    if nth 0 p.events i = 0 then d
    else d.recordFor p.kind p.ctx (srcSteward f) (0x0640 + i) m (nth 0 p.events i) []) d
  match p.kind.order? with
  | none => d
  | some o => match d.part? o f with
    | none => d
    | some y =>
      let d := if y.spilled = 0 then d else d.recordFor p.kind p.ctx (srcSteward f) 0x0621 m y.spilled []
      if y.recomputed = 0 then d else d.recordFor p.kind p.ctx (srcSteward f) 0x0622 m y.recomputed []

/-- Programs that wait for a slot end with a code before they have run. -/
def Dev.endQueued (d : Dev) (q : Nat → Prog → Bool) (code : Nat) : Dev :=
  d.fields.foldl (fun d (f, x) =>
    let gone := x.queue.filter (q f)
    if gone.isEmpty then d else
    let d := d.modField f fun x => { x with queue := x.queue.filter fun p => !q f p }
    gone.foldl (fun d p => match p.kind.order? with
      | none => d.servingDone p.kind f code
      | some o => (d.leavePart o f code).fieldDone o f code) d) d

/-- A program has ended with a code: its grant is returned, its part and its slot are free. -/
def Dev.finishProg (d : Dev) (f s : Nat) (p : Prog) (code : Nat) : Dev :=
  let d := d.returnGrant f s
  let d := if p.ending.isSome then d else d.progRecords f p
  let d := (d.endWait (.steward f s)).abandonDiv f s
  let d := match p.kind.order? with | none => d | some o => d.leavePart o f code
  let d := (coresIn f).foldl (fun d i => match (d.core i).state with
    | .faulted => if (d.core i).lastCtx = p.ctx ∧ (d.core i).inst.isNone = true then d.modCore i fun x => { x with state := .idle } else d
    | _ => d) d
  let d := (d.nextProg f s).retune f
  let d := if (d.field f).progs.isEmpty then d.modField f fun x => { x with
    idleSince := d.time.osc, state := match x.state with | .active => .gated | z => z } else d
  let d := d.servingDone p.kind f code
  let d := match p.kind.order? with | none => d | some o => d.fieldDone o f code
  d.resettle p.ctx

/-- Unit jobs that a program has kicked and that have not ended. -/
def Dev.jobsOf (d : Dev) (f s : Nat) : Bool :=
  (d.flumes.any fun (_, x) => x.live.any fun (_, j) => j.field == f && j.pslot == s) ||
    (d.divs.any fun (_, x) => x.jobs.any fun (_, j) => match j with
      | some j => j.field == f && j.pslot == s
      | none => false)

/-- The program in a slot ends if nothing of it is left (R109, R110). -/
def Dev.reap (d : Dev) (f s : Nat) : Dev :=
  match d.prog f s with
  | none => d
  | some p => match p.ending with
    | some c => if (d.instsOf f s).isEmpty then d.finishProg f s p c else d
    | none =>
      if p.wait = .fend ∧ (d.instsOf f s).isEmpty = true ∧ d.jobsOf f s = false then d.finishProg f s p 0 else d

/-! ### Retirement and plans (06 R155, R157, R160) -/

/-- The retirement of the previous epoch (R160): parts of older orders stop with 0x0612. -/
def Dev.retire (d : Dev) (k : Nat) : Dev :=
  let old := d.oldParts k
  let d := d.modCistern k fun x => { x with retired := sat32 (x.retired + old.length), retiring := !old.isEmpty }
  old.foldl (fun d y => (d.field y.field).progs.foldl (fun d (s, p) =>
    if p.kind = .order y.o then d.stopProg y.field s 0x0612 .programEnd else d)
    (d.endQueued (fun f p => f == y.field && p.kind == .order y.o) 0x0612)) d

/-- The retirement in progress is over once no older part is live. -/
def Dev.retireCheck (d : Dev) : Dev :=
  (List.range 16).foldl (fun d k =>
    if (d.cistern k).retiring && (d.oldParts k).isEmpty then d.modCistern k fun x => { x with retiring := false } else d) d

/-- What an instance's end means to a stash plan (R155, R157, R161). -/
def Dev.planEnd (d : Dev) (f s : Nat) (y : Inst) : Dev :=
  match d.prog f s with
  | none => d
  | some p => match p.plan?, p.kind.order? with
    | some q, some o =>
      let more := !(d.instsOfImg f s y.image y.run).isEmpty
      match q.role y.image with
      | .backward seg =>
        if more then d else
        let d := d.dropClaims fun c => c.o == o && c.field == f && c.kind == .stash (y.run - 1) seg
        d.modPart o f fun z => { z with rcpBusy := z.rcpBusy && !z.marked.contains (y.run - 1, seg) }
      | .recompute _ =>
        if more then d else
        ((d.modProg f s fun p => { p with afterRecompute := some 1 }).cisEvent p.district 2).modPart o f fun z =>
          { z with recomputed := z.recomputed + 1 }
      | .optimiser => d.optCheck o
      | _ => d
    | _, _ => d

/-- An instance has executed END and its work is done (04 R113, R424). -/
def Dev.endInst (d : Dev) (i : Nat) : Dev :=
  let d := d.account i
  match (d.core i).inst with
  | none => d
  | some y =>
    let d := d.modProg y.field y.slot fun p => { p with
      events := (List.range 8).map fun n => sat32 (nth 0 p.events n + nth 0 y.events n) }
    let d := (d.dropInst i .idle).reserveNow y.field y.slot
    d.planEnd y.field y.slot y

/-! ### Grants that wait (16 R363, R365) -/

/-- Serve the requests of one district in arrival order until one waits: each ends its program, or is given. -/
def Dev.serveDistrict (d : Dev) (k : Nat) : Nat → Dev
  | 0 => d
  | n + 1 =>
    match d.power.waiting.find? fun w => w.district == k with
    | none => d
    | some w =>
      let out (d : Dev) : Dev := d.modPower fun x => { x with waiting := x.waiting.filter fun v => !(v.field == w.field && v.slot == w.slot) }
      if w.resume then
        match d.grant? w.field w.slot with
        | none => (out d).serveDistrict k n
        | some g =>
          if d.fits k g.rate then ((out d).putGrant w.field w.slot (some { g with reserved := true })).serveDistrict k n
          else d
      else match d.grantRequest k w.field w.slot w.energy w.dur with
        | .given q e r =>
          let (m, d) := d.mark srcAllot
          let g : Grant := { point := q, req := d.reqPoint k w.field w.slot, given := q, energy := e, left := e, rate := r,
                             mark := m, reserved := true }
          ((((out d).putGrant w.field w.slot (some g)).modProg w.field w.slot fun p => { p with wait := .none }).retune
            w.field).serveDistrict k n
        | .never => ((out d).stopProg w.field w.slot 0x0170 .programEnd).serveDistrict k n
        | .wait => d

def Dev.serveGrants (d : Dev) : Dev :=
  if d.power.waiting.isEmpty ∨ d.ready = false then d else (List.range 16).foldl (fun d k => d.serveDistrict k 65) d

/-! ### Everything that follows of itself -/

/-- FJOIN of the program in a slot is over once the instances it waits for have executed END (04 R106). -/
def Dev.joinCheck (d : Dev) (f s : Nat) : Dev :=
  match d.prog f s with
  | none => d
  | some p => match p.wait with
    | .fjoin img =>
      if (if img = 0xFFFF then d.instsOf f s else d.instsOfImg f s img 0).isEmpty then
        (d.modProg f s fun p => { p with wait := .none }).resettle p.ctx
      else d
    | _ => d

/-- Nanoseconds of an hour. -/
def hourNs : Nat := 3600 * 10 ^ 9

/-- A field's self-test is enabled and due: in progress, asked for, never run, or RAS_TEST_CTL.HOURS old (17 R390). -/
def Dev.testWanted (d : Dev) (f : Nat) : Bool :=
  let x := d.field f
  d.reg .rasTestEnable 0 == 1 && (x.testPieces != 0 || x.testDue || x.testResult == 0 ||
    decide (x.testLast + hourNs * d.reg .rasTestHours 0 ≤ d.time.cnt))

/-- A field whose self-test is due saves every instance that its cores hold (17 R390). -/
def Dev.testSaves (d : Dev) (f : Nat) : Dev :=
  if (d.field f).inTest && d.testWanted f then
    (coresIn f).foldl (fun d i =>
      let x := d.core i
      if x.held.isSome && x.inst.isNone && !x.saving then d.modCore i fun x => { x with
        saving := true, state := .clearing, held := x.held.map fun y => { y with accountedAt := d.eff } }
      else d) d
  else d

/-- One round: programs that have ended, retirements, grants, instances that resume, and saves for a self-test. -/
def Dev.settle1 (d : Dev) : Dev :=
  let d := d.fields.foldl (fun d (f, x) => x.progs.foldl (fun d q => (d.joinCheck f q.1).reap f q.1) d) d
  let d := d.retireCheck.optChecks.serveGrants
  if d.frozen then d else
  d.fields.foldl (fun d (f, x) =>
    if x.inTest then d.testSaves f else if x.state = .active then d.resumeField f else d) d

/-- Programs waiting to end with nothing left. -/
def Dev.toReap (d : Dev) : Bool :=
  d.fields.any fun (f, x) => x.progs.any fun (s, p) => p.ending.isSome && (d.instsOf f s).isEmpty

/-- Rounds until no program is left to end. -/
def Dev.pumpN (d : Dev) : Nat → Dev
  | 0 => d
  | n + 1 => let d := d.settle1; if d.toReap then d.pumpN n else d

/-- The rotation table's entries take effect, everything that the end of work sets free goes on, and a drain that is over
ends (02 R53). -/
def Dev.pump (d : Dev) : Dev := (d.rotSync.pumpN 65).drainCheck

/-- Programs of a context stop with a code. -/
def Dev.stopCtxProgs (d : Dev) (c code : Nat) (cause : StopCause) : Dev :=
  (d.fields.foldl (fun d (f, x) => x.progs.foldl (fun d q => if q.2.ctx = c then d.stopProg f q.1 code cause else d) d) d).endQueued
    (fun _ p => p.ctx == c) code

/-- The programs of an order stop with a code: the order is stopped as a whole. -/
def Dev.stopOrderProgs (d : Dev) (o : OrderId) (code : Nat) (cause : StopCause) : Dev :=
  let d := d.stopStep o
  (d.fields.foldl (fun d (f, x) => x.progs.foldl (fun d q => if q.2.kind = .order o then d.stopProg f q.1 code cause else d) d) d).endQueued
    (fun _ p => p.kind == .order o) code

end Sys2Proof.Machine
end

