-- ==== Sys2Proof/Machine/CtxOps.lean ====
section
/-!
DEFINITION. Contexts that fault, are torn down and reset (13 R315, R316, 15 R346).
-/
namespace Sys2Proof.Machine

/-- A tenant context takes a fresh memory key and a fresh private prefix domain (09 R229, 15 R346). -/
def Dev.freshKey (d : Dev) (c : Nat) : Dev :=
  if c ≥ 1024 then d else
  let (n, d) := d.draw
  (d.modCtx c fun x => { x with keyGen := n + 1 }).putTen c { d.ten c with domain := n + 1 }

/-- The orders of a context complete (step 4): the order whose work faulted with the fault's code, every other with the
teardown's. TRAIN_STEP orders leave the ledger, and rounds stopped before their verdict are abandoned. -/
def Dev.endCtxOrders (d : Dev) (c code other : Nat) (faulting : Option OrderId) : Dev :=
  let mine := d.orders.filter fun o => o.ctx == c && o.phase != .ended
  let d := (mine.filter fun o => o.opcode == opTrain).foldl (fun d o => match d.step? o.id with
    | none => d
    | some x =>
      let d := (d.stopStep o.id).closeOpt o.id
      if x.started then d else d.setSteps (d.steps.filter fun y => y.o != o.id)) d
  mine.foldl (fun d o =>
    d.endOrder o.id (if faulting = some o.id then code else other) (d.hgSource c) false) d

/-- The transfers that an instance of a context has in flight on a core are abandoned while it runs on to its tile boundary
(R315, step 2): late responses are discarded. -/
def Dev.abandonTags (d : Dev) (i c : Nat) : Dev :=
  match (d.core i).inst with
  | none => d
  | some y =>
    if y.ctx ≠ c ∨ y.inFlight.isEmpty = true then d else
    let d := y.outstanding.foldl (fun d (_, t) => d.landSome i c t.desc) d
    (d.modInst i fun y => { y with tags := [] }).modCore i fun x => { x with
      dmaGen := x.dmaGen + 1, late := x.late ++ (y.outstanding.map fun (t, g) => (t, g.gen)) }

/-- A tenant context enters TEARDOWN, and steps 1 to 4 of R315 are taken. code is the fault's, or 0. -/
def Dev.teardown (d : Dev) (c code : Nat) (faulting : Option OrderId) (after : CtxState) : Dev :=
  let x := d.ctx c
  if c ≥ 1024 ∨ x.state = .teardown ∨ x.state = .faulted then d else
  let other := if code ≠ 0 then 0x0300 else 0x0301
  let (m, d) := d.mark (d.hgSource c)
  let d := if code = 0 then d
    else ((d.putReg .schFaultCode c code).putReg .schFaultValid c 1).putReg .schFaultTime c m
  let d := d.modCtx c fun x => { x with
    state := .teardown, block := 0, blockStart := 0, rootLoading := false
    afterTeardown := if code ≠ 0 then .faulted else after }
  let d := d.stopCtxProgs c (if code ≠ 0 then code else other) .teardown
  let d := (d.coresOf c).foldl (fun d i => d.abandonTags i c) d
  let d := d.dropWaits fun w => w.ctx == c
  let d := (d.endTenantReqs c other).releaseServing c
  let d := (d.gatesOf c).foldl Dev.freeGate d
  d.endCtxOrders c code other faulting

/-- Nothing of a context runs any more: its teardown can end. -/
def Dev.stoppedAll (d : Dev) (c : Nat) : Bool :=
  !(d.cores.any fun (_, x) => x.insts.any fun y => y.ctx == c) && (d.saves.all fun r => r.inst.ctx != c) &&
    (d.progBlocks c).isEmpty

/-- SHARES from TENANT_MAP (R303). -/
def Dev.mapShares (d : Dev) (c : Nat) : Dev := d.putReg .schShares c (d.tenant c).weight

/-- Steps 5 and 6 of R315: mappings go, their frames are scrubbed, and the context leaves TEARDOWN. -/
def Dev.teardownDone (d : Dev) (c : Nat) : Dev :=
  let x := d.ctx c
  let d := x.maps.foldl (fun d m => d.scrub m.phys m.bytes) d
  let d := d.cores.foldl (fun d (i, y) => if y.lastCtx = c then d.modCore i fun z => { z with lastCtx := 0x7FE } else d) d
  let d := if x.slot = 0xFF then d else d.putSlot x.slot 0x7FF
  let d := d.modCtx c fun x => { x with
    state := x.afterTeardown, slot := 0xFF, maps := [], tables := [], keyGen := 0, cmdWaiting := [], flrWaiting := false
    idleSince := 0, waitingSince := 0, unfault := false, vtime := if x.unfault then 0 else x.vtime }
  let d := if x.unfault then d.mapShares c else d
  (if x.afterTeardown = .idle then d.freshKey c else d).fillSlots

/-- A context leaves FAULTED (R316). -/
def Dev.resetCtx (d : Dev) (c : Nat) : Dev :=
  let d := (d.gatesOf c).foldl Dev.freeGate d
  let d := d.modCtx c fun x => { x with
    state := if (d.districtOf c).isNone then .absent else .idle, maps := [], tables := [], vtime := 0, idleSince := 0 }
  (d.freshKey c).mapShares c

/-- Work of a program faults (R315): a tenant context is torn down; a system context's program ends with the code. -/
def Dev.faultProg (d : Dev) (f s code : Nat) : Dev :=
  match d.prog f s with
  | none => d
  | some p => if p.ctx < 1024 then d.teardown p.ctx code p.kind.order? .faulted else d.stopProg f s code .programEnd

/-- Work of an order faults (R315). -/
def Dev.faultOrder (d : Dev) (o : OrderId) (code src : Nat) : Dev :=
  match d.order? o with
  | none => d
  | some x => if x.ctx < 1024 then d.teardown x.ctx code (some o) .faulted else d.failOrder o code src

/-- A context faults through work that no order or program stands for. -/
def Dev.faultCtx (d : Dev) (c code : Nat) : Dev := if c < 1024 then d.teardown c code none .faulted else d

/-- An instance faults at an address (04 R115): the core records it and stands in FAULTED, and its program ends. -/
def Dev.faultAt (d : Dev) (i code pc : Nat) : Dev :=
  match (d.core i).inst with
  | none => d
  | some y =>
    let (m, d) := d.mark (srcCore i)
    let d := (((d.putReg .corFaultCode i code).putReg .corFaultValid i 1).putReg .corFaultPc i pc).putReg .corFaultTime i m
    ((d.loseOpt y.field y.slot).dropInst i .faulted).faultProg y.field y.slot code

/-- The instruction that an instance has come to faults. -/
def Dev.faultCore (d : Dev) (i code : Nat) : Dev :=
  d.faultAt i code (match (d.core i).inst with | some y => y.pc | none => 0)

end Sys2Proof.Machine
end

