-- ==== Sys2Proof/Machine/Sluice.lean ====
section
/-!
DEFINITION. Sluices: messages, acknowledgements, misuse and timeouts (14 R336 to R339).
-/
namespace Sys2Proof.Machine

def idLkk : Nat := 0x600
def isHgId (m : Nat) : Bool := decide (0x500 ≤ m ∧ m < 0x508)

/-- The function of a master identity, if it is one. -/
def fnOfMaster (m : Nat) : Option Nat :=
  if m < 1024 then some m else if m = 0x400 then some 1024 else if m = 0x401 then some 1025 else none

/-- Source identifier of a master identity. -/
def srcOfMaster (m : Nat) : Nat :=
  match fnOfMaster m with
  | some fn => srcRing (portOf fn)
  | none => if isHgId m then srcHeadgate (m - 0x500) else srcLkk

/-- The sender's Sluice vector fires, where the sender is a function (Table 14-8). -/
def Dev.fireSluice (d : Dev) (sender : Nat) : Dev :=
  match fnOfMaster sender with
  | some fn => d.fire fn 2
  | none => d

/-- One error record of a misuse. -/
def Dev.sluiceRecord (d : Dev) (who code : Nat) : Dev :=
  d.raise (srcOfMaster who) (if who < 1024 then who else 0xFFFF) code 0 []

/-- A misuse of a FULL Sluice sets SLC_MISUSE.CODE and writes one record (R338). -/
def Dev.misuse (d : Dev) (who sl code : Nat) : Dev :=
  (d.putSluice sl { d.sluice sl with misuse := code }).sluiceRecord who code

/-- A message leaves its Sluice: EMPTY, the acknowledgement and the sender's vector, at one instant (R338). -/
def Dev.ack (d : Dev) (sl code : Nat) : Dev :=
  let x := d.sluice sl
  (d.putSluice sl { x with full := false, ackCode := code, ackSeq := x.seq }).fireSluice x.sender

/-- A clear of a FULL Sluice acknowledges with 0x0201 and writes one Silt entry (R339). -/
def Dev.clearSluice (d : Dev) (sl src : Nat) : Dev :=
  let x := d.sluice sl
  if x.full then (d.ack sl 0x0201).siltEv src 0x0008 0x0201 0 0 (pack16 [sl, x.seq]) else d

/-- The receiver of a Sluice: the partner of a Headgate that is fenced takes its role (17 R394). -/
def Dev.receiverOf (d : Dev) (x : Sluice) : Nat :=
  if isHgId x.receiver && d.fenced kHeadgate (x.receiver - 0x500) then 0x500 + partner (x.receiver - 0x500)
  else x.receiver

/-- A receiver that is held in reset, or the device in Dry (R339). -/
def Dev.receiverDown (d : Dev) (r : Nat) : Bool :=
  d.dry ||
  (if isHgId r then (nth Headgate.init d.lkk.hgs (r - 0x500)).state != 0
   else r == idLkk && (d.frozen || d.lkk.state == 2 || d.lkk.state == 3))

/-- Bytes of the message. -/
def Sluice.bytes (x : Sluice) : Bytes := x.msg.flatMap (le 4)
def Sluice.command (x : Sluice) : Nat := leAt x.bytes 0 2
def Sluice.length (x : Sluice) : Nat := leAt x.bytes 2 1

/-- The identity may write the Sluice (R336). -/
def Sluice.bound (x : Sluice) (who : Nat) : Bool := x.sender == who && x.sender != 0xFFFF

/-- A master whose writes are discarded: a function of a port that answers Retry Status (16 R380). -/
def Dev.deafMaster (d : Dev) (who : Nat) : Bool :=
  match fnOfMaster who with
  | some fn => d.deaf fn
  | none => false

/-- A write of message words (R338). -/
def Dev.msgWrite (d : Dev) (who sl k len : Nat) (v : Nat) : Dev :=
  let x := d.sluice sl
  if !x.bound who then d.sluiceRecord who 0x0413
  else if x.full then d.misuse who sl 0x0411
  else
    let m := x.msg.set k (fld v 0 32)
    d.putSluice sl { x with msg := if len = 8 then m.set (k + 1) (fld v 32 32) else m }

/-- R338, R336: a write of SLC_MSG while the Sluice is EMPTY; while FULL it is ignored and raises 0x0411. -/
def execSlcMsgWrite (who sl k len : Nat) (data : DWord) (s : State) : Host.Outcome State Fault Refusal :=
  live (.slcMsgWrite who sl k len data) s fun d =>
    if d.deafMaster who then d
    else if len = 8 ∧ k % 2 = 1 then d.sluiceRecord who 0x0401
    else d.msgWrite who sl k len data.toNat

/-- A SEND (R338, R339). -/
def Dev.send (d : Dev) (who sl seq : Nat) : Dev :=
  let x := d.sluice sl
  let q := seq % 256
  if !x.bound who then d.sluiceRecord who 0x0413
  else if x.full then d.misuse who sl 0x0410
  else if x.length > 60 ∨ x.command = 0 then
    (d.putSluice sl { x with ackCode := 0x0412, ackSeq := q }).fireSluice x.sender
  else if d.receiverDown (d.receiverOf x) then
    (d.putSluice sl { x with ackCode := 0x0201, ackSeq := q }).fireSluice x.sender
  else (d.putSluice sl { x with seq := q, full := true, sentAt := d.time.osc }).emit (.sluiceReceiver sl)

/-- R338: SEND. In Dry it is acknowledged at once (R339). -/
def execSlcSend (who sl seq : Nat) (s : State) : Host.Outcome State Fault Refusal :=
  always (.slcSend who sl seq) s fun d =>
    if d.deafMaster who then d else d.send who sl seq

/-- R336: a write by an identity that is not the bound sender is ignored and recorded. -/
def execSluiceUnbound (who sl : Nat) (s : State) : Host.Outcome State Fault Refusal :=
  live (.sluiceUnbound who sl) s fun d =>
    if (d.sluice sl).bound who || d.deafMaster who then d else d.sluiceRecord who 0x0413

/-- The receiver takes a FULL message with a code (R338). -/
def Dev.take (d : Dev) (sl code : Nat) : Dev :=
  let x := d.sluice sl
  if !x.full then d else
  (d.putSluice sl { x with lastTaken := if code = 3 then x.lastTaken else some (x.seq, x.msg) }).ack sl code

/-- SEQ and content equal the last message taken (Table 14-10). -/
def Sluice.duplicate (x : Sluice) : Bool := x.lastTaken == some (x.seq, x.msg)

/-- A command that its receiver knows (R337, 17 R393). -/
def Sluice.known (x : Sluice) : Bool :=
  (x.command == 1 && x.length == 0) || (x.receiver == idLkk && decide (0x0101 ≤ x.command ∧ x.command ≤ 0x0105))

/-- Refusal codes of the master table (R341, 00 R16). -/
def refusalCodes : List (Nat × Nat) :=
  [(0x0100, 0x0105), (0x0110, 0x0110), (0x0120, 0x012C), (0x0140, 0x0141), (0x0143, 0x0148), (0x0150, 0x015A),
   (0x0160, 0x0162), (0x0170, 0x017F)] ++
  [(0x0180, 0x018D), (0x0190, 0x0197), (0x01A0, 0x01AA), (0x01B0, 0x01B4), (0x01C0, 0x01C5), (0x01D0, 0x01D3),
   (0x01E0, 0x01E5)]

/-- R338, R337: the receiver takes the message; a command it does not know it acknowledges with 0x0110, and PING with
0x0001. A command of the Lockkeeper's that it acts on is taken by the row of that command; here it may be refused with a
refusal code of the master table. -/
def execSluiceTake (sl code : Nat) (s : State) : Host.Outcome State Fault Refusal :=
  live (.sluiceTake sl code) s fun d =>
    let x := d.sluice sl
    if !x.known then d.take sl 0x0110
    else if x.command = 1 then d.take sl 0x0001
    else if x.duplicate then d.take sl 0x0003
    else if refusalCodes.any fun r => decide (r.1 ≤ code ∧ code ≤ r.2) then d.take sl code
    else d

/-- R339: a receiver that has not taken the message in time is asleep. -/
def execSluiceTimeout (sl at_ : Nat) (s : State) : Host.Outcome State Fault Refusal :=
  live (.sluiceTimeout sl at_) s fun d =>
    let d := d.advance at_
    let x := d.sluice sl
    if x.full && decide (d.time.osc ≥ x.sentAt + 1000000 * d.reg .slcTimeout 0) then
      d.clearSluice sl (srcOfMaster (d.receiverOf x)) else d

/-- R337: every receiver acknowledges PING with 0x0001. -/
def execPing (sl : Nat) (s : State) : Host.Outcome State Fault Refusal :=
  live (.ping sl) s fun d =>
    let x := d.sluice sl
    if x.command = 1 ∧ x.length = 0 then d.take sl 0x0001 else d

end Sys2Proof.Machine
end

