-- ==== Sys2Proof/Machine/RasOps.lean ====
section
/-!
DEFINITION. Corrected and uncorrectable errors, fences, and the entry into Dry (17 R382 to R389, R394, R397).
-/
namespace Sys2Proof.Machine

/-- A record to both physical functions: a unit event names no context (R407, 14 R333). -/
def Dev.unitRecord (d : Dev) (src code : Nat) (detail : List Nat) : Dev := d.raise src 0xFFFF code 0 detail

def Dev.modUnit (d : Dev) (kind u : Nat) (f : RasUnit → RasUnit) : Dev := d.putUnit kind u (f (d.unit kind u))

/-! ### GEN_STATE (01 R36, 16 R377, R378) -/

/-- The conditions that end Configuration Request Retry Status (16 R378). -/
def Dev.retryOver (d : Dev) : Bool :=
  d.startup.filled && match d.startup.gen with | .none => false | .lkkBoot => false | _ => true

/-- GEN_STATE takes a value: an entry STATE (DEDUCED, log entry 60), and the end of Retry Status where it is due. -/
def Dev.setGen (d : Dev) (g : GenState) (src : Nat) : Dev :=
  let d := (d.setStartup { d.startup with gen := g }).siltEv src 0x0002 0 0 0 g.code
  if d.retryOver then d.setPorts (d.ports.map fun p => { p with retry := false }) else d

/-! ### Dry (R397) -/

/-- Every FULL Sluice that satisfies p is cleared (14 R339). -/
def Dev.clearSluices (d : Dev) (src : Nat) (p : Sluice → Bool) : Dev :=
  (d.sluices.filter fun q => q.2.full && p q.2).foldl (fun d q => d.clearSluice q.1 src) d

/-- Device addresses of the ponds. -/
def Dev.scrubPonds (d : Dev) : Dev := d.scrub pondsBase (256 * pondSlot)

/-- Every field is power-gated and every unit stopped: what runs is lost, and GDDR7 devices keep self-refresh. -/
def Dev.stopUnits (d : Dev) : Dev :=
  let d := (((((d.scrubPonds.setCores []).setFields []).setSaves []).setFlumes []).setDivs []).setDivPins []
  let d := (((((d.setClaims []).setSteps []).setParts []).setOrders []).setWaits []).setReqs []
  let d := (d.setOftInsts []).setPower { d.power with grants := [], waiting := [], acts := [] }
  d.setDevs (Tbl.mapAll MemDev.init (fun _ m => { m with refresh := true }) d.devs)

/-- The device enters Dry: the DRY entry with its cause, a copy of the Silt record, a record to each physical function,
and the state. -/
def Dev.enterDry (d : Dev) (cause : Nat) : Dev :=
  if d.dry then d else
  let d := d.siltAt srcWeir 0x0022 0 0 0 0xFFFF cause true
  let d := d.unitRecord srcWeir 0x0236 [cause]
  let d := (d.setStartup { d.startup with filled := true }).setGen .dry srcWeir
  let d := ((d.clearSluices srcWeir fun _ => true).stopUnits)
  d.setLkk { d.lkk with state := 3 }

/-- A fatal event other than a takeover and the loss of both supplies (R385). -/
def Dev.fatal (d : Dev) (src event status kind u detail : Nat) : Dev :=
  (d.siltAt src event status kind u 0xFFFF detail true).enterDry event

/-! ### Corrected errors (R383) -/

/-- The counts at which CE_THRESHOLD is written. -/
def ceSteps : List Nat := [1, 16, 256, 4096, 65536]

/-- n corrected errors of a unit. -/
def Dev.countCe (d : Dev) (kind u n : Nat) : Dev :=
  let a := (d.unit kind u).ce
  let b := sat32 (a + n)
  let d := d.modUnit kind u fun x => { x with ce := b }
  (ceSteps.filter fun t => decide (a < t ∧ t ≤ b)).foldl (fun d t => d.siltEv srcLkk 0x0010 0 kind u t) d

/-! ### Fences (R386, R387) -/

/-- A program that a field's fence ends, with the programs of its TRAIN_STEP order on every field (R386). -/
def Dev.fenceOrder (d : Dev) (k : ProgKind) : Dev :=
  match k.order? with
  | some o => if (d.step? o).isSome then d.stopOrderProgs o 0x0230 .fence else d
  | none => d

/-- The programs of a field end by a fence: those in its slots and those that wait for one (R386, 05 R119). -/
def Dev.fenceProgs (d : Dev) (f : Nat) : Dev :=
  let d := (d.field f).progs.foldl (fun d (s, p) => (d.stopProg f s 0x0230 .fence).fenceOrder p.kind) d
  let waiting := (d.field f).queue.map fun p => p.kind
  waiting.foldl Dev.fenceOrder (d.endQueued (fun g _ => g == f) 0x0230)

/-- The program that an instance belongs to ends by a fence. -/
def Dev.fenceInst (d : Dev) (y : Inst) : Dev :=
  match d.prog y.field y.slot with
  | none => d
  | some p => (d.stopProg y.field y.slot 0x0230 .fence).fenceOrder p.kind

/-- A core is fenced: the programs of its instances end, and it leaves its pool. -/
def Dev.fenceCore (d : Dev) (i : Nat) : Dev :=
  let d := (d.core i).insts.foldl Dev.fenceInst d
  (d.dropInst i .fenced).modCore i fun x => { x with
    state := .fenced, pool := .none, toPool := none, held := none, starting := none, restoring := none, saving := false
    stop := none, stopped := false }

/-- A field's domain loses its power: every pond, slot and bank is cleared (04 R112). -/
def Dev.powerOff (d : Dev) (f : Nat) (state : FieldState) : Dev :=
  ((coresIn f).foldl (fun d i => (d.clearCore i).modCore i fun x =>
    { x with state := if x.state = .fenced then .fenced else .off }) d).modField f fun x => { x with state }

/-- A district left with no usable field or no usable GDDR7 device becomes INERT (02 R49). -/
def Dev.inertCheck (d : Dev) (k : Nat) : Dev :=
  let x := d.dist k
  if (match x.state with | .active => true | .draining => true | .applying => true | _ => false) = true ∧ ((bitsOf x.fields 16).all (fun f => d.fenced kField f) = true ∨
      x.devices.all (fun v => d.lost v) = true) then
    d.modDist k fun x => { x with state := .inert }
  else d

/-- A field is fenced: its programs end, and it leaves its district at once. -/
def Dev.fenceField (d : Dev) (f : Nat) : Dev :=
  let k := (d.field f).district
  let d := d.fenceProgs f
  let d := (coresIn f).foldl (fun d i =>
    let d := d.dropInst i (d.core i).state
    d.modCore i fun x => { x with pool := .none, toPool := none, held := none, starting := none, restoring := none,
                                  saving := false, stop := none, stopped := false, lastCtx := 0x7FF }) d
  let d := (d.powerOff f .fenced).modField f fun x => { x with
    district := none, held := false, opChange := none, inTest := false }
  let d := d.modPower fun x => { x with acts := x.acts.filter fun a => match a with | .hold g => g != f | .move _ _ _ => true }
  match k with
  | none => d
  | some k => (d.modDist k fun x => { x with fields := if bit x.fields f then x.fields - 2 ^ f else x.fields }).inertCheck k

/-- A context with a hole in its translation tables, or with a save record that lies in one (R387). -/
def Dev.ctxHoled (d : Dev) (k c : Nat) : Bool :=
  ((d.ctx c).tables.any (d.holed k)) || d.saves.any fun r => r.inst.ctx == c && d.holed k (d.recRange r)

/-- The orders of a system context end with a code (R387). -/
def Dev.endSystemOrders (d : Dev) (c code : Nat) : Dev :=
  let d := d.stopCtxProgs c code .programEnd
  (d.orders.filter fun o => o.ctx == c && d.orderLive o && o.phase != .ended && o.fieldsLeft.isEmpty).foldl (fun d o =>
    let d := d.closeOpt o.id
    let d := d.setSteps (d.steps.filter fun x => x.o != o.id)
    d.failOrder o.id code (d.hgSource c)) d

/-- A GDDR7 device is fenced: its chunks are holes (11 R262, R387). -/
def Dev.fenceDevice (d : Dev) (x : Nat) : Dev :=
  let d := d.putMemDev x { d.memDev x with state := .fenced }
  match d.districtOfDev x with
  | none => d
  | some k =>
    let d := (d.cache.filter fun (_, e) => e.live && e.district == k && e.home != 0 && d.holed k (e.home, e.bytes)).foldl
      (fun d (i, e) =>
        let d := e.waiting.foldl (fun d w => d.failOrder w.1 0x0326 (srcMem x)) d
        (d.modEntry i fun e => { e with waiting := [] }).unplace i) d
    (d.ctxsOf k).foldl (fun d c =>
      if !d.ctxHoled k c then d
      else if c < 1024 then d.teardown c 0x0326 none .faulted
      else
        (d.endSystemOrders c 0x0326).retable k c) (d.inertCheck k)

/-- A running order that reaches host memory or the CXL window through port n of it (11 R273). -/
def Dev.readsPort (d : Dev) (n : Nat) (a bytes : Nat) (c : Nat) : Bool :=
  match d.range c a bytes false with
  | .error _ => false
  | .ok l => l.any fun p => match regionOf p.1 with | .cxl m => m == n | _ => false

/-- A descriptor of a context that reaches port n in a row (R290). -/
def Dev.descPort (d : Dev) (c n : Nat) (x : DmaDesc) : Bool :=
  x.rowBytes != 0 && (List.range x.rows).any fun r =>
    (x.op == 1 && x.srcKind == 0 && d.readsPort n (x.src + r * x.srcStride) x.rowBytes c) ||
      (x.dstKind == 0 && d.readsPort n (x.dst + r * x.dstStride) x.rowBytes c)

/-- The requests of an instance's abandoned transfers at port n are discarded under the port's limit (13 R308). -/
def Dev.discardAt (d : Dev) (n : Nat) (y : Inst) : Inst :=
  { y with tags := y.tags.map fun (k, t) => (k, t.map fun t =>
      if t.reissue ∧ d.descPort y.ctx n t.desc = true then { t with outstanding := 0 } else t) }

/-- The requests outstanding at a CXL port are abandoned: each requester's context faults with a code (11 R273). -/
def Dev.abandonPort (d : Dev) (n code : Nat) : Dev :=
  let d := d.cores.foldl (fun d (i, x) => match x.inst with
    | some y => match y.outstanding.find? fun (_, t) => d.descPort y.ctx n t.desc with
      | some (_, t) => d.faultAt i code t.pc
      | none => d
    | none => d) d
  let d := (d.orders.filter fun o => o.opcode == opDma && o.phase == .running &&
      ((!bit (leAt o.body 24 1) 0 && d.readsPort n (leAt o.body 0 8) (leAt o.body 16 8) o.ctx) ||
       (!bit (leAt o.body 24 1) 1 && d.readsPort n (leAt o.body 8 8) (leAt o.body 16 8) o.ctx))).foldl
    (fun d o => d.faultOrder o.id code (srcCxl n)) d
  let d := d.setCores (Tbl.mapAll Core.init (fun _ x => { x with
    inst := x.inst.map (d.discardAt n), held := x.held.map (d.discardAt n), restoring := x.restoring.map (d.discardAt n) }) d.cores)
  let d := d.setSaves (d.saves.map fun r => { r with inst := d.discardAt n r.inst })
  let d := (d.cache.filter fun (_, e) => e.live && e.state == .loading && e.backing == 1 &&
      (match regionOf e.backAddr with | .cxl m => m == n | _ => false)).foldl (fun d (i, e) =>
    let d := e.waiting.foldl (fun d w => d.faultOrder w.1 code (srcCxl n)) d
    (d.modEntry i fun e => { e with waiting := [] }).unplace i) d
  d.ctxs.foldl (fun d q => d.resettle q.1) d

/-- A CXL port is fenced (11 R273). -/
def Dev.fenceCxl (d : Dev) (n reason : Nat) : Dev :=
  let (m, d) := d.mark (srcCxl n)
  ((d.putCxlPort n { d.cxlPort n with state := .fenced, reason }).putReg .cxlFenceTime n m).abandonPort n 0x0325

/-- A Headgate is fenced: its partner takes its duties, and receives from every Sluice bound to it; with both of a
terrace fenced the device enters Dry (R394). -/
def Dev.fenceHeadgate (d : Dev) (h : Nat) : Dev :=
  let d := d.setLkk { d.lkk with hgs := d.lkk.hgs.modify h fun x => { x with state := 2 } }
  if d.fenced kHeadgate (partner h) then d.enterDry 0x0013 else d

/-- The bit of a unit in an availability mask is cleared or set (01 R34). -/
def Dev.available (d : Dev) (kind u : Nat) (on : Bool) : Dev :=
  let put (m i : Nat) : Nat := if bit m i = on then m else if on then m + 2 ^ i else m - 2 ^ i
  let s := d.startup
  d.setStartup (
    if kind = kField then { s with
      availFields := put s.availFields u
      availCores := (coresIn u).foldl (fun m i =>
        if bit m i = (on && !d.fenced kCore i) then m else if bit m i then m - 2 ^ i else m + 2 ^ i) s.availCores }
    else if kind = kCore then
      if on && d.fenced kField (u / 16) then s else { s with availCores := put s.availCores u }
    else if kind = kDevice then { s with availDevs := put s.availDevs u }
    else if kind = kCxl then { s with availPorts := put s.availPorts u }
    else s)

/-- A unit is fenced by the Lockkeeper, or by the Weir in a recovery (R384, R386, R389, R407). -/
def Dev.fence (d : Dev) (kind u reason src : Nat) : Dev :=
  if d.fenced kind u then d else
  let (m, d) := d.mark src
  let d := (d.modUnit kind u fun x => { x with state := .fenced, reason }).putReg .rasUnitTime (unitKey kind u) m
  let d := d.available kind u false
  let d := if kind = kField then d.fenceField u
    else if kind = kCore then d.fenceCore u
    else if kind = kDevice then d.fenceDevice u
    else if kind = kCxl then d.fenceCxl u reason
    else if kind = kHeadgate then d.fenceHeadgate u
    else d
  ((d.siltEv src 0x0013 reason kind u reason).unitRecord src 0x0231 [kind, u, reason]).pump

/-- The status sub-ranges of Table 00-6, as first codes and numbers of codes (00 R16). -/
def statusRanges : List (Nat × Nat) :=
  [(0x0000, 0x10), (0x0100, 0x20), (0x0120, 0x20), (0x0140, 0x10), (0x0150, 0x10), (0x0160, 0x10), (0x0170, 0x10),
   (0x0180, 0x10)] ++
  [(0x0190, 0x10), (0x01A0, 0x10), (0x01B0, 0x10), (0x01C0, 0x10), (0x01D0, 0x10), (0x01E0, 0x10), (0x0200, 0x10),
   (0x0210, 0x10)] ++
  [(0x0220, 0x10), (0x0230, 0x10), (0x0300, 0x20), (0x0320, 0x20), (0x0340, 0x20), (0x0360, 0x10), (0x0400, 0x20),
   (0x0420, 0x20)] ++
  [(0x0440, 0x10), (0x0500, 0x40), (0x0600, 0x10), (0x0610, 0x10), (0x0620, 0x10), (0x0630, 0x10), (0x0640, 0x10)]

/-- The n-th code of a list of ranges. -/
def nthCode : List (Nat × Nat) → Nat → Nat
  | [], _ => 0
  | (a, m) :: r, n => if n < m then a + n else nthCode r (n - m)

/-- A status code of Table 00-6, for a free value. -/
def freeStatus (n : Nat) : Nat := nthCode statusRanges (Config.freeNat n % sumNat (statusRanges.map Prod.snd))

/-- A fence for whose reason the spec gives no code (log entry 62). -/
def Dev.fenceFree (d : Dev) (kind u src : Nat) : Dev :=
  if d.fenced kind u then d else
  let (n, d) := d.draw
  d.fence kind u (freeStatus n) src

/-- A fence is asked for: FENCE_REQ is written, and the Lockkeeper fences the unit, or leaves it to the recovery while
it fails (R384, R389). -/
def Dev.requestFence (d : Dev) (kind u reason : Nat) : Dev :=
  if d.fenced kind u then d else
  let d := d.siltEv srcLkk 0x0012 reason kind u reason
  if d.lkk.state = 1 then d.fence kind u reason srcLkk
  else (d.modUnit kind u fun x => { x with state := .fencePending }).setLkk
    { d.lkk with pendingFence := d.lkk.pendingFence ++ [(kind, u, reason)] }

/-! ### Uncorrectable errors (R384) -/

/-- Nanoseconds of 24 hours. -/
def day : Nat := 86400 * 10 ^ 9

/-- An uncorrectable error of a unit at an address, with the code it returns: counted, written to the Silt record, and
fenced for at the unit's limit. -/
def Dev.countUe (d : Dev) (kind u code addr : Nat) : Dev :=
  let now := d.time.osc
  let d := d.modUnit kind u fun x => { x with
    ue := sat32 (x.ue + 1), ueTimes := (x.ueTimes.filter fun t => decide (now < t + day)) ++ [now] }
  let d := d.siltEv srcLkk 0x0011 code kind u addr
  let limit := if kind = kCore then d.reg .rasUeCore 0 else if kind = kDevice then d.reg .rasUeDevice 0 else 0
  if limit ≠ 0 ∧ (d.unit kind u).ueTimes.length ≥ limit then d.requestFence kind u code else d

/-- An uncorrectable error of a GDDR7 device (11 R263, R264): its address and time mark are kept. -/
def Dev.deviceUe (d : Dev) (x addr : Nat) : Dev :=
  let (m, d) := d.mark (srcMem x)
  let d := d.putMemDev x { d.memDev x with ue := sat32 ((d.memDev x).ue + 1) }
  ((d.putReg .memErrAddr x addr).putReg .memErrTime x m).countUe kDevice x 0x0322 addr

/-- The GDDR7 device that an address stands on. -/
def Dev.devOf (d : Dev) (a : Nat) : Option Nat :=
  match regionOf a with
  | .gddr h => some (match d.districtOfDev h with
    | some k => (locate a (d.dist k).devices).1
    | none => h)
  | _ => none

/-- A reader has met an uncorrectable error at an address: its unit counts it (17 Table 17-1, R384). -/
def Dev.ueAt (d : Dev) (a : Nat) : Dev :=
  match regionOf a, d.devOf a with
  | _, some v => d.deviceUe v a
  | .pond i, _ => d.countUe kCore i 0x0345 a
  | .reservoir t, _ => d.countUe kUncore t 0x0323 a
  | _, _ => d

/-- Locations whose error no code corrects: every later reader meets it (R382). -/
def Dev.spoil (d : Dev) (l : List EccStrike) : Dev :=
  d.setBad (l.foldl (fun b e => match e with
    | .uncorrectable a => if b.contains (a / 64 * 64) then b else b ++ [a / 64 * 64]
    | _ => b) d.bad)

/-- Nanoseconds of a second. -/
def second : Nat := 10 ^ 9

/-- A device's link has failed the eighth retry of a burst; on the 64th within 1 s the device is fenced (R384). -/
def Dev.linkFail (d : Dev) (v a : Nat) : Dev :=
  let m := d.memDev v
  let now := d.time.osc
  let l := (m.linkFails.filter fun t => decide (now < t + second)) ++ [now]
  let d := (d.putMemDev v { m with retry := sat32 (m.retry + 8), linkFails := l }).deviceUe v a
  if 64 ≤ l.length then d.requestFence kDevice v 0x0322 else d

/-- What a report counts, but for an uncorrectable error, which its reader counts (R382 to R384, 11 R263). -/
def Dev.strike (d : Dev) (e : EccStrike) : Dev :=
  match e with
  | .corrected a => match regionOf a, d.devOf a with
    | _, some v => (d.putMemDev v { d.memDev v with ce := sat32 ((d.memDev v).ce + 1) }).countCe kDevice v 1
    | .pond i, _ => d.countCe kCore i 1
    | .reservoir t, _ => d.countCe kUncore t 1
    | _, _ => d
  | .retried a n => match d.devOf a with
    | some v => d.putMemDev v { d.memDev v with retry := sat32 ((d.memDev v).retry + n) }
    | none => d
  | .linkFailed a => match d.devOf a with
    | some v => d.linkFail v a
    | none => d
  | .uncorrectable _ => d
  | .aqueductRetry q n => d.setCanal { d.canal with aqRetry := d.canal.aqRetry.set q (sat32 (nth 0 d.canal.aqRetry q + n)) }

/-- Every report of a list. -/
def Dev.strikes (d : Dev) (l : List EccStrike) : Dev := l.foldl Dev.strike d

/-- A burst in pieces whose link failed its eighth retry: it counts as uncorrectable (11 R263). -/
def linkLost (l : List EccStrike) (ps : List (Nat × Nat)) : Bool :=
  l.any fun e => match e with
    | .linkFailed a => ps.any fun p => overlap p.1 p.2 (a / 64 * 64) 64
    | _ => false

/-! ### Faults of a unit's accesses (11 R265, 13 R315) -/

/-- A fault that a unit's access has met is taken: by the work that the unit did it for. -/
def Dev.takeFault (d : Dev) (f : MemFault) : Dev :=
  let d := match f.prog, f.order with
    | some (x, s), _ => d.faultProg x s f.code
    | none, some o => match d.order? o with
      | some y => if f.ctx < 1024 then d.teardown f.ctx f.code (some o) .faulted
        else if y.fieldsLeft.isEmpty then d.failOrder o f.code (d.hgSource f.ctx)
        else d.stopOrderProgs o f.code .programEnd
      | none => d.faultCtx f.ctx f.code
    | none, none => d.faultCtx f.ctx f.code
  (match f.addr with | some a => d.ueAt a | none => d).resettle f.ctx

/-- The faults that units have met in a command are taken. -/
def Dev.settleFaults (d : Dev) : Dev :=
  if d.memFaults.isEmpty then d else (d.memFaults.foldl Dev.takeFault (d.setMemFaults [])).pump

/-- What follows once the accesses of a unit have all gone through. -/
def Dev.unlessFault (d : Dev) (f : Dev → Dev) : Dev := if d.memFaults.isEmpty then f d else d

/-- A command of a unit: the faults of its accesses are taken at its end. -/
def liveUnit (i : Instr) (s : State) (f : Dev → Dev) : Host.Outcome State Fault Refusal :=
  live i s fun d => (f d).settleFaults

end Sys2Proof.Machine
end

