-- ==== Sys2Proof/Machine/Cache.lean ====
section
/-!
DEFINITION. CACHE orders (11 R275, R276, R281).
-/
namespace Sys2Proof.Machine

/-- A CACHE order with an operation. -/
def Dev.cacheOrder (d : Dev) (o : OrderId) (op : Nat) (f : Order → Nat → Dev) : Dev :=
  match d.taken o opCache with
  | none => d
  | some x => if leAt x.body 0 1 = op then f x (d.hgSource x.ctx) else d

/-- A CACHE order that names an entry by its handle (R274). -/
def Dev.entryOrder (d : Dev) (o : OrderId) (op : Nat) (f : Order → Nat → Nat → Dev) : Dev :=
  d.cacheOrder o op fun x src =>
    match d.handle? (leAt x.body 4 4) ((d.districtOf x.ctx).getD 16) with
    | none => d.failOrder o 0x0155 src
    | some i => f x src i

/-- Make an entry RESIDENT for an order, with an explicit pin or without (R276). -/
def Dev.loadFor (d : Dev) (o : OrderId) (src i : Nat) (pin : Bool) : Dev :=
  let e := d.entry i
  let fin (d : Dev) : Dev :=
    (if pin then d.modEntry i fun e => { e with pins := e.pins + 1, lastUse := d.time.cnt } else d).doneOrder o src
  if pin && !d.pinRoom i then d.failOrder o 0x0157 src else
  match e.state with
  | .resident => fin d
  | .loading => (d.modEntry i fun e => { e with waiting := e.waiting ++ [(o, pin)] }).runOrder o
  | .staged => match d.startLoad i false with
    | none => d.failOrder o 0x0158 src
    | some d => fin d
  | .backed => match d.startLoad i false with
    | none => d.failOrder o 0x0158 src
    | some d => (d.modEntry i fun e => { e with waiting := e.waiting ++ [(o, pin)] }).runOrder o

/-- The entry that a descriptor describes (Table 11-5), for the issuing function's port. -/
def parseEntry (fn : Nat) (b : Bytes) : CacheEnt :=
  { CacheEnt.init with
    live := true, modelId := leAt b 0 16, kind := leAt b 16 1, backing := leAt b 18 1, district := leAt b 19 1,
    parent := leAt b 20 4, bytes := leAt b 24 8, backAddr := leAt b 32 8, port := portOf fn, tensor := leAt b 40 4 }

/-- The descriptor lies within Table 11-5 and R275. -/
def Dev.descOk (d : Dev) (e : CacheEnt) (b : Bytes) : Bool :=
  match d.ent? e.district with
  | none => false
  | some x =>
    decide (1 ≤ e.kind ∧ e.kind ≤ 4 ∧ leAt b 17 1 < 2 ∧ leAt b 44 4 = 0 ∧ leAt b 60 4 = 0 ∧
      (e.backing = 1 ∨ e.backing = 2) ∧ 0 < e.bytes ∧ e.bytes ≤ 2 ^ 40 ∧ e.bytes % 65536 = 0 ∧
      e.backAddr % 4096 = 0) &&
    bit x.backing (e.backing - 1) &&
    (if e.kind = 3 then e.backing == 1 && (match d.handle? e.parent e.district with
        | some p => (d.entry p).kind == 1
        | none => false)
      else e.parent == 0xFFFFFFFF) &&
    (e.backing == 2 || x.cxl.any fun r =>
      decide (cxlBase + r.1 * gib ≤ e.backAddr ∧ e.backAddr + e.bytes ≤ cxlBase + (r.1 + r.2) * gib))

/-- The lowest index without an entry (a DESIGN CHOICE, log entry 23). -/
def Dev.freeIndex (d : Dev) : Option Nat :=
  let used := (d.cache.filter fun (_, e) => e.live).map Prod.fst
  (List.range (used.length + 1)).find? fun i => decide (i < entryCount) && !used.contains i

/-- R275, R276: CREATE; with PIN the entry is loaded and pinned. -/
def execCreate (o : OrderId) (s : State) : Host.Outcome State Fault Refusal :=
  liveUnit (.create o) s fun d => d.cacheOrder o 1 fun x src =>
    let da := leAt x.body 8 8
    match d.readCtx (d.hgAcc x.ctx) x.ctx da 64 with
    | .error e => d.failOrder o e src
    | .ok (b, d) =>
      let e := parseEntry x.id.fn b
      if !d.descOk e b then d.failOrder o 0x0154 src else
      match d.freeIndex with
      | none => d.failOrder o 0x0159 src
      | some i =>
        let gen := (d.entry i).gen
        let d' := (d.putEntry i { e with gen, descAddr := da, descCtx := x.ctx }).storeCtx (d.hgAcc x.ctx) x.ctx (da + 48)
          (le 8 0 ++ le 4 (handleOf i gen))
        if bit (leAt b 17 1) 0 then
          let d'' := d'.loadFor o src i true
          match d''.order? o with
          | some y => if y.status = 0x0157 ∨ y.status = 0x0158 then d.failOrder o y.status src else d''
          | none => d''
        else d'.doneOrder o src

/-- R276: LOAD makes the entry RESIDENT. -/
def execLoad (o : OrderId) (s : State) : Host.Outcome State Fault Refusal :=
  live (.load o) s fun d => d.entryOrder o 2 fun _ src i => d.loadFor o src i false

/-- R276, R277: PIN loads the entry if needed and adds an explicit pin. -/
def execPin (o : OrderId) (s : State) : Host.Outcome State Fault Refusal :=
  live (.pin o) s fun d => d.entryOrder o 3 fun _ src i => d.loadFor o src i true

/-- R276, R277: UNPIN removes one explicit pin. -/
def execUnpin (o : OrderId) (s : State) : Host.Outcome State Fault Refusal :=
  live (.unpin o) s fun d => d.entryOrder o 4 fun _ src i =>
    if (d.entry i).pins = 0 then d.failOrder o 0x0156 src
    else (d.modEntry i fun e => { e with pins := e.pins - 1 }).doneOrder o src

/-- R276, R277: DROP deletes an entry that is not pinned. -/
def execDrop (o : OrderId) (s : State) : Host.Outcome State Fault Refusal :=
  live (.drop o) s fun d => d.entryOrder o 5 fun _ src i =>
    if (d.entry i).pinned then d.failOrder o 0x0156 src else (d.deleteEntry i src).doneOrder o src

/-- The bytes of an entry's backing: the CXL window's, or those the host gave. -/
def Dev.backingBytes (d : Dev) (e : CacheEnt) (data : Bytes) : Option (Bytes × Dev) :=
  if e.backing = 1 then
    (if (chunksOf e.backAddr e.bytes).all fun p => d.physCheck e.district p.1 == 0 then
      some (d.fetchDev (d.hgAcc e.descCtx) e.backAddr e.bytes) else none)
  else some (data.take e.bytes, d)

/-- An order that waited for a load, once the entry is in GDDR7. -/
def Dev.loadEnds (d : Dev) (i src : Nat) (w : OrderId × Bool) : Dev :=
  let fin (d : Dev) : Dev :=
    (if w.2 then d.modEntry i fun e => { e with pins := e.pins + 1, lastUse := d.time.cnt } else d).doneOrder w.1 src
  if (d.entry i).state = .staged then
    match d.startLoad i false with
    | none => d.failOrder w.1 0x0158 src
    | some d => fin d
  else fin d

/-- R276: the backing read of a load ends; a failed one completes with 0x015A and leaves the entry BACKED. -/
def execCacheLoadDone (idx : Nat) (ok : Bool) (data : Bytes) (s : State) : Host.Outcome State Fault Refusal :=
  live (.cacheLoadDone idx ok data) s fun d =>
    let e := d.entry idx
    if e.live = false ∨ e.state ≠ .loading then d else
    let src := d.hgSource e.descCtx
    if !ok then d.loadFail idx 0x015A else
    match d.backingBytes e data with
    | none => d.loadFail idx 0x015A
    | some (bs, d) =>
      let d := (d.storeDev (d.hgAcc e.descCtx) e.home bs).modEntry idx fun e =>
        { e with state := if e.toStaging then .staged else .resident, lastUse := d.time.cnt, waiting := [] }
      let d := if e.toStaging then d else d.parentPin idx true
      e.waiting.foldl (fun d w => d.loadEnds idx src w) (d.writeHome idx)

end Sys2Proof.Machine
end

