-- ==== Sys2Proof/Machine/Clock.lean ====
section
/-!
DEFINITION. The commands of the time base (16 R372 to R376).
-/
namespace Sys2Proof.Machine

/-- A step of the counter to a target (R376): forward at once, backward as a hold; each sets TIM_STEP_FROM and
TIM_STEP_TO, counts, and writes one Silt entry with both. -/
def Dev.stepTo (d : Dev) (v : Nat) : Dev :=
  let x := d.time
  let c := x.cnt
  let d := (d.putReg .timStepFrom 0 c).putReg .timStepTo 0 v
  let d := d.setTime { d.time with
    steps := sat32 (x.steps + 1)
    cnt := if c ≤ v then v else c, frac := if c ≤ v then 0 else x.frac, hold := if c ≤ v then none else some (v, 0) }
  d.silt2 srcTime 0x0005 c v

/-- The rotation follows the time base at once (13 R312). -/
def Dev.timeMoved (d : Dev) : Dev := if d.dry then d else d.pump

/-- TIM_SET takes effect (R374, R376). -/
def Dev.setEpoch (d : Dev) (v : Nat) : Dev :=
  if d.time.epochSet ∧ v + 10 ^ 9 < d.time.cnt then d.putReg .timSetIgnored 0 1
  else (d.setTime { d.time with epochSet := true }).stepTo v

/-- A write of TIM_SET by a physical function (R374). -/
def Dev.timSet (d : Dev) (fn v : Nat) : Dev :=
  if !isPf fn then d
  else if d.reg .timSetAtPps 0 = 1 then d.setTime { d.time with pendingSet := some v }
  else d.setEpoch v

/-- R374. -/
def execTimSet (fn : Nat) (value : DWord) (s : State) : Host.Outcome State Fault Refusal :=
  hosted fn (.timSet fn value) s fun d => (d.timSet fn value.toNat).timeMoved

/-- The nearest multiple of 10⁹, ties upward. -/
def nearestSecond (c : Int) : Int := (c + 500000000) / 1000000000 * 1000000000

/-- An edge of TIME_PPS (R375): c is the counter less the cable delay. -/
def Dev.ppsEdge (d : Dev) : Dev :=
  let x := d.time
  let c : Int := (x.cnt : Int) - d.reg .timPpsDelay 0
  if (match x.last with | none => false | some l => decide (c - l < 500000000)) then
    d.setTime { x with ppsIgnored := sat32 (x.ppsIgnored + 1) }
  else
    let x := { x with ppsCount := sat32 (x.ppsCount + 1), lastAcceptOsc := x.osc, holdover := false, last := some c }
    match x.pendingSet with
    | some v => (d.setTime { x with pendingSet := none, goodEdges := 0, last := some ((v : Int) - d.reg .timPpsDelay 0) }).setEpoch v
    | none =>
      let e := c - nearestSecond c
      let x := { x with err := e, goodEdges := if -1000 ≤ e ∧ e ≤ 1000 then min 3 (x.goodEdges + 1) else 0 }
      if e > 1000000 ∨ e < -1000000 then (d.setTime x).stepTo (nearestSecond c).toNat
      else
        let drift := x.drift + e / 8
        d.setTime { x with drift, slew := clampInt (-(drift + e)) (-500000) 500000 }

/-- R375: a rising edge of TIME_PPS, with TIM_CTL.PPS_EN set. -/
def execPpsEdge (at_ : Nat) (s : State) : Host.Outcome State Fault Refusal :=
  always (.ppsEdge at_) s fun d =>
    let d := d.advance at_
    if d.reg .timPpsEn 0 = 1 then d.ppsEdge.timeMoved else d

/-- R375: no edge has been accepted for 2.5 s. -/
def execHoldover (at_ : Nat) (s : State) : Host.Outcome State Fault Refusal :=
  always (.holdover at_) s fun d =>
    let d := d.advance at_
    if d.time.lastAcceptOsc + 2500000000 ≤ d.time.osc then
      d.setTime { d.time with holdover := true, slew := -d.time.drift }
    else d

/-- R376: a held backward step meets the true time as time runs on. -/
def execStepHoldEnd (at_ : Nat) (s : State) : Host.Outcome State Fault Refusal :=
  always (.stepHoldEnd at_) s fun d => d.advance at_

/-- R372: a signal appears on REF_10MHZ, or vanishes. -/
def execRef10mhz (present : Bool) (s : State) : Host.Outcome State Fault Refusal :=
  always (.ref10mhz present) s fun d => d.setTime { d.time with refPresent := present }

end Sys2Proof.Machine
end

