-- ==== Sys2Proof/Machine/Gauge.lean ====
section
/-!
DEFINITION. The commands of GAU_CMD (07 R193).
-/
namespace Sys2Proof.Machine

/-- A device range in a district's memory: its home ranges, its Reservoir shares or its CXL ranges. -/
def Dev.ownRange (d : Dev) (k a n : Nat) : Bool :=
  let inside (r : Nat × Nat) : Bool := decide (r.1 ≤ a ∧ a + n ≤ r.1 + r.2)
  (homeRuns (d.dist k).devices).any inside || (d.shares k).any inside ||
    (match d.ent? k with
      | none => false
      | some e => e.cxl.any fun (b, s) => inside (cxlBase + b * gib, s * gib))

/-- A GAU_CMD ends with a code. -/
def Dev.gauEnd (d : Dev) (fn k code : Nat) : Dev :=
  (d.modGauge k fun g => { g with cmdCode := code }).mgmtDone fn .gauCmdDone k

/-- The refusals that every GAU_CMD shares, in their order (R193). Only a physical function has the register. -/
def Dev.gauCmd (d : Dev) (fn k : Nat) (f : Dev) (own : Nat) : Dev :=
  if !isPf fn then d
  else if !d.isTrain k then d.gauEnd fn k 0x01E4
  else if d.liveTrain k then d.gauEnd fn k 0x01E3
  else if own ≠ 0 then d.gauEnd fn k own
  else f.gauEnd fn k 0

/-- The entries of a watch table (R185): none if two name one tensor, a KIND is undefined or a reserved byte is not 0. -/
def parseWatch (bs : Bytes) (n : Nat) : Option (List Watch) :=
  let ent (i : Nat) : Bytes := (bs.drop (8 * i)).take 8
  let ok (b : Bytes) : Bool := (leAt b 4 1 == 1 || leAt b 4 1 == 2) && leAt b 6 2 == 0
  let l := (List.range n).map fun i => Watch.of (leAt (ent i) 0 4) (leAt (ent i) 4 1) (leAt (ent i) 5 1)
  if (List.range n).all (fun i => ok (ent i)) && allDistinct (l.map fun w => w.tensor) then some l else none

/-- Entries in the tables of the other districts. -/
def Dev.watchOthers (d : Dev) (k : Nat) : Nat :=
  sumNat ((List.range 16).map fun j => if j = k then 0 else (d.gauge j).table.length)

/-- LOAD_TABLE (R185): the table that it reads, and the code that refuses it. -/
def Dev.loadWatch (v : Dev) (fn k : Nat) : Dev :=
  let a := 64 * v.reg .gauTableAddr k
  let n := v.reg .gauTableCount k
  let t := parseWatch (v.readDev a (8 * n)) n
  let own := if n ≠ 0 ∧ v.ownRange k a (8 * n) = false then 0x01E2
    else match t with
      | none => 0x01E0
      | some _ => if v.watchOthers k + n > 4096 then 0x01E1 else 0
  let read := if own = 0x01E2 then v else (v.fetchDev (unitAcc (v.gaugeInst k)) a (8 * n)).2
  v.gauCmd fn k (read.modGauge k fun g => { g with table := t.getD [] }) own

/-- SET_RING (R193). -/
def Dev.setSampleRing (v : Dev) (fn k : Nat) : Dev :=
  let a := 64 * v.reg .gauRingAddr k
  let n := v.reg .gauRingEntries k
  let own := if 1 ≤ n ∧ n ≤ 65536 ∧ v.ownRange k a (64 * n) = true then 0 else 0x01E2
  v.gauCmd fn k
    ((v.putReg .gauRingTail k 0).modGauge k fun g => { g with ringAddr := a, ringEntries := n, head := 0 }) own

/-- SET_LS (R193). -/
def Dev.setLossScale (v : Dev) (fn k : Nat) : Dev :=
  let ls := v.reg .gauLsSetLs k
  v.gauCmd fn k (v.modGauge k fun g => { g with ls, attempt := v.reg .gauLsSetAttempt k, clean := 0 })
    (if ls > 127 then 0x01E5 else 0)

/-- CLEAR_STREAKS (R193). -/
def Dev.clearStreaks (v : Dev) (fn k : Nat) : Dev :=
  v.gauCmd fn k (v.modGauge k fun g => { g with table := g.table.map fun w => { w with streak := 0 } }) 0

/-- LOAD_TABLE: replaces the watch table, with every streak at 0 (R185). -/
def execLoadTable (fn d : Nat) (s : State) : Host.Outcome State Fault Refusal :=
  hosted fn (.loadTable fn d) s fun v => v.loadWatch fn d

/-- SET_RING: takes the ring's address and entries, and sets HEAD and TAIL to 0 (R193). -/
def execSetRing (fn d : Nat) (s : State) : Host.Outcome State Fault Refusal :=
  hosted fn (.setRing fn d) s fun v => v.setSampleRing fn d

/-- SET_LS: sets LS and ATTEMPT from GAU_LS_SET, and CLEAN to 0 (R193). -/
def execSetLs (fn d : Nat) (s : State) : Host.Outcome State Fault Refusal :=
  hosted fn (.setLs fn d) s fun v => v.setLossScale fn d

/-- CLEAR_STREAKS: every streak returns to 0 (R193). -/
def execClearStreaks (fn d : Nat) (s : State) : Host.Outcome State Fault Refusal :=
  hosted fn (.clearStreaks fn d) s fun v => v.clearStreaks fn d

/-- A write of OP into GAU_CMD (R193): an undefined OP is refused before anything else is tested. -/
def Dev.gauWrite (v : Dev) (fn k op : Nat) : Dev :=
  if op = 0 then v
  else if op = 1 then v.loadWatch fn k
  else if op = 2 then v.setSampleRing fn k
  else if op = 3 then v.setLossScale fn k
  else if op = 4 then v.clearStreaks fn k
  else v.gauEnd fn k 0x01E5

end Sys2Proof.Machine
end

