-- ==== Sys2Proof/Machine/Confluence.lean ====
section
/-!
DEFINITION. CONFLUENCE orders, the commands of CFL_CMD, and the instants of a round (08 R197, R203, R207, R211 to R214).
-/
namespace Sys2Proof.Machine

/-- A CONFLUENCE order with its descriptor (R209): the refusals that need no round, and TAG_COUNT 0 (R10). -/
def Dev.cflOrder (d : Dev) (o : OrderId) (op : Nat) (f : Dev → Order → Nat → Nat → CflDesc → Dev) : Dev :=
  match d.taken o opConfluence with
  | none => d
  | some x =>
    match d.districtOf x.ctx with
    | none => d.failOrder o 0x0195 (srcCfl 0)
    | some k =>
      let src := d.cflSrc k
      let a := leAt x.body 0 8
      if a % 64 ≠ 0 ∨ allZero (x.body.drop 8) = false then d.failOrder o (if a % 64 ≠ 0 then 0x0194 else 0x0190) src else
      match d.readCtx (orderAcc (d.gaugeInst k) o) x.ctx a 64 with
      | .error _ => d.failOrder o 0x0194 src
      | .ok (b, e) =>
        let y := parseCfl b
        if y.op ≠ op ∧ 2 ≤ y.op ∧ y.op ≤ 5 then d else
        let code := if y.op = 1 then 0x0190 else e.cflCode x.ctx k y b
        if code ≠ 0 then e.failOrder o code src
        else if y.tagCount = 0 then (e.cflEmpty x.ctx k y).endOrder o 0 src true
        else f e x k src y

/-- R198: an IMPORT is placed by its key; the order completes at its acceptance. -/
def execImportPart (o : OrderId) (s : State) : Host.Outcome State Fault Refusal :=
  live (.importPart o) s fun d => d.cflOrder o 2 fun d x k src y =>
    let key := (y.step, y.attempt)
    let z := d.cfl k
    if d.hasImport k y.origin key then d.failOrder o 0x0193 src
    else if (z.round.state = .none ∨ keyLt z.round.key key = true) ∧ some key ≠ z.prev ∧ z.held.length ≥ 16 then
      d.failOrder o 0x0197 src
    else
      let c : Contrib := { step := y.step, attempt := y.attempt, ls := y.ls, epoch := y.epoch, tokens := y.tokens,
                           fmt := y.fmt, firstTag := y.firstTag, tagCount := y.tagCount, base := y.base, gate := y.gate,
                           origin := y.origin, isImport := true, fold := false, ctx := x.ctx, o, tag := x.tag }
      (d.placeContrib k c).doneOrder o src

/-- The part with LAST writes S/N, forms normsq and supplies the reason (R212). -/
def Dev.finalise (d : Dev) (k n : Nat) : Dev :=
  let r := (d.cfl k).round
  let t := (d.cfl k).table
  let cs := r.parts.map fun c => (c, (0 : Int))
  let bad := r.parts.any fun c => (tagged t).any fun (tag, b) =>
    let f := d.found c tag b
    f.ovf || f.nonfinite != 0
  let d := d.passReports k r.parts (wholeRead t)
  let d := d.modRound k fun r => { r with state := .finalising, tokens := n }
  if n = 0 then (d.cflReleaseAll k r.parts).deliver k 0x0602 none
  else
    let (d, q) := d.writeResults { seed := r.seed, step := r.step, attempt := r.attempt } cs n (tagged t)
    (d.cflReleaseAll k r.parts).deliver k (if bad then 0x0600 else 0) (some (to32 q))

/-- R212: a FINAL part of the round in AWAIT_FINAL. -/
def execFinal (o : OrderId) (s : State) : Host.Outcome State Fault Refusal :=
  liveUnit (.final o) s fun d => d.cflOrder o 3 fun d x k src y =>
    let r := (d.cfl k).round
    if r.state ≠ .awaitFinal ∨ r.key ≠ (y.step, y.attempt) then d.failOrder o 0x0197 src
    else
      let c : Contrib := { step := y.step, attempt := y.attempt, ls := r.ls, epoch := r.epoch, tokens := y.tokens,
                           fmt := y.fmt, firstTag := y.firstTag, tagCount := y.tagCount, base := y.base, gate := y.gate,
                           origin := 0, isImport := true, fold := false, ctx := x.ctx, o, tag := x.tag }
      let d := d.modRound k fun r => { r with parts := r.parts ++ [c] }
      let d := d.doneOrder o src
      if bit y.flags 0 then (d.finalise k y.tokens).pump else d

/-- The FP32 sum of two words, rounded by RNE (R213). -/
def add32 (a b : Nat) : Nat := rne32 (Val.add (f32 a) (f32 b))

/-- One block of EXPORT (R213): the sign1 block, the Residue after it, and whether it was non-finite. -/
def exportBlock (src res : List Nat) : Bytes × List Nat × Bool :=
  let e := List.zipWith add32 src res
  if e.any fun c => nonFinite (f32 c) then (le 4 nan32 ++ zeros 32, res, true)
  else
    let m := rne32 (Val.scale (-8) (e.foldl (fun a c => Val.add a (Val.abs (f32 c))) (.fin false 0 0)))
    let neg (c : Nat) : Bool := bit c 31
    let bits := (List.range 32).map fun j => BitVec.ofNat 8 (maskOf ((List.range 8).filter fun i => neg (nth 0 e (8 * j + i))))
    let r := e.map fun c => rne32 (Val.add (f32 c) (let v := f32 m; if neg c then v else Val.neg v))
    (le 4 m ++ bits, r, false)

/-- The words of bytes. -/
def words (bs : Bytes) (n : Nat) : List Nat := (List.range n).map fun i => leAt bs (4 * i) 4

/-- EXPORT of one bucket: the device and the non-finite blocks. -/
def Dev.exportBucket (d : Dev) (o : OrderId) (c : Nat) (y : CflDesc) (b : Bucket) : Dev × Nat :=
  let w := orderAcc b.inst o
  (List.range (b.elements / 256)).foldl (fun (a : Dev × Nat) i =>
    let n := b.offset + 256 * i
    let (src, d) := a.1.fetchCtx w c (y.base + 4 * n) 1024
    let (res, d) := d.fetchCtx w c (y.aux + 4 * n) 1024
    let (out, res', bad) := exportBlock (words src 256) (words res 256)
    ((d.storeCtx w c (y.dest + 36 * (n / 256)) out).storeCtx w c (y.aux + 4 * n) (res'.flatMap (le 4)), a.2 + b2n bad))
    (d, 0)

/-- R213: EXPORT compresses each block against the Residue. -/
def execExportSum (o : OrderId) (s : State) : Host.Outcome State Fault Refusal :=
  liveUnit (.exportSum o) s fun d => d.cflOrder o 4 fun d x k src y =>
    if (d.cfl k).round.state ≠ .awaitFinal then d.failOrder o 0x0197 src
    else
      let (d, n) := (d.descBuckets k y).foldl (fun (a : Dev × Nat) (_, b) =>
        let (d, m) := a.1.exportBucket o x.ctx y b; (d, a.2 + m)) (d, 0)
      d.unlessFault fun d => ((d.cflSummary k 7 x.ctx n (some o)).signal y.gate 1 src).doneOrder o src

/-- A carrier block as bytes: scale, Z, BUMP, OVF and the elements. -/
def carrier (scale : Nat) (z ovf : Bool) (bmp : Nat) (elems : List Nat) : Bytes :=
  le 2 (scale + 256 * b2n z + 512 * bmp + 4096 * b2n ovf) ++ elems.map (BitVec.ofNat 8)

/-- The bump loop of RING (R214) from bump b on: fuel counts the bumps left to try. The block, its last bump, and whether
it has overflowed. The agreed scale is SCALE − BUMP, which an incoming block may make negative. -/
def ringBump (key : RndKey) (tensor e0 : Nat) (agreed : Int) (x : List Val) : Nat → Nat → Bytes × Nat × Bool
  | 0, b => (carrier (min (agreed + 7) 0xFE).toNat false true 7 (List.replicate 32 0), b, true)
  | fuel + 1, b =>
    if b > 7 ∨ agreed + b > 0xFE then (carrier (min (agreed + 7) 0xFE).toNat false true 7 (List.replicate 32 0), b, true)
    else
      let q (i : Nat) : Nat × Bool :=
        match Val.scale (127 - agreed - b) (nth (.fin false 0 0) x i) with
        | .fin s m e =>
          let (n, u) := roundMag (srOf key 0 tensor (e0 + i)) 3 (-6) m e
          if magGt n u 14 5 then (0, false) else ((if s then 0x80 else 0) + packMag .e4m3 n u, true)
        | _ => (0, false)
      let l := (List.range 32).map q
      if l.all fun r => r.2 then (carrier (agreed + b).toNat false false b (l.map fun r => r.1), b, false)
      else ringBump key tensor e0 agreed x fuel (b + 1)

/-- One block of RING (R214): the outgoing block, and the last digits of its events: 7 for 0x0647, 8 for 0x0618, 9 for
0x0619. -/
def ringBlock (key : RndKey) (tensor e0 : Nat) (origin : Option Nat) (incoming : Bytes) (loc : List Nat) :
    Bytes × List Nat :=
  let inc := readBlk .ifb8 incoming 0
  let nanBlock := carrier 0xFF false false 0 (List.replicate 32 0)
  let go (agreed : Int) (bumpIn : Nat) (ins : List Val) : Bytes × List Nat :=
    let x := List.zipWith (fun a c => Val.add a (f32 c)) ins loc
    if x.any fun v => v.isNan || v.isInf then (nanBlock, [7])
    else if x.all Val.isZero then (carrier (agreed + bumpIn).toNat true false bumpIn (List.replicate 32 0), [])
    else
      let (out, b, lost) := ringBump key tensor e0 agreed x 9 bumpIn
      (out, (if lost then [9] else []) ++ if bumpIn < b then [8] else [])
  match origin with
  | some sc => if sc = 0xFF then (nanBlock, [7]) else go sc 0 (List.replicate 32 (.fin false 0 0))
  | none =>
    if ovfOf incoming then (incoming, [])
    else if inc.scale = 0xFF ∧ inc.z = false then (nanBlock, [7])
    else go ((inc.scale : Int) - bumpOf incoming) (bumpOf incoming) (decodeBlk .ifb8 inc)

/-- RING of one bucket: the device and the events of its blocks. -/
def Dev.ringBucket (d : Dev) (o : OrderId) (c : Nat) (y : CflDesc) (key : RndKey) (b : Bucket) : Dev × List Nat :=
  let w := orderAcc b.inst o
  (List.range (b.elements / 32)).foldl (fun (a : Dev × List Nat) i =>
    let n := b.offset + 32 * i
    let (loc, d) := a.1.fetchCtx w c (y.base + 4 * n) 128
    let (inc, d) := d.fetchCtx w c (if bit y.flags 1 then y.aux + n / 32 else y.aux + 34 * (n / 32))
      (if bit y.flags 1 then 1 else 34)
    let origin := if bit y.flags 1 then some (leAt inc 0 1) else none
    let (out, ev) := ringBlock key (w32 (b.tensor + 2 ^ 24 * y.origin)) (b.elemBase + 32 * i) origin inc (words loc 32)
    (d.storeCtx w c (y.dest + 34 * (n / 32)) out, a.2 ++ ev)) (d, [])

/-- One record of a code of RING's blocks with its count, at the completion (R216). 0x0647 is not among the codes that the
Confluence counts: its record is the model's (DEDUCED, log entry 120). -/
def Dev.ringEvents (d : Dev) (k ctx : Nat) (o : OrderId) (evs : List Nat) : Dev :=
  let n (i : Nat) : Nat := (evs.filter (· == i)).length
  let d := if n 7 = 0 then d else
    let (m, d) := d.mark (d.cflSrc k)
    d.cflRecord k 0x0647 ctx m (n 7) (d.orderTag o) (some o) []
  (d.cflSummary k 8 ctx (n 8) (some o)).cflSummary k 9 ctx (n 9) (some o)

/-- R214: RING adds the local sum to the incoming carrier blocks. -/
def execRing (o : OrderId) (s : State) : Host.Outcome State Fault Refusal :=
  liveUnit (.ring o) s fun d => d.cflOrder o 5 fun d x k src y =>
    let r := (d.cfl k).round
    if r.state ≠ .awaitFinal then d.failOrder o 0x0197 src
    else
      let key : RndKey := { seed := r.seed, step := r.step, attempt := r.attempt }
      let (d, evs) := (d.descBuckets k y).foldl (fun (a : Dev × List Nat) (_, b) =>
        let (d, m) := a.1.ringBucket o x.ctx y key b; (d, a.2 ++ m)) (d, [])
      d.unlessFault fun d => ((d.ringEvents k x.ctx o evs).signal y.gate 1 src).doneOrder o src

/-- R197: admission closes at the deadline; missing contributions raise 0x0610. -/
def execCflDeadline (d at_ : Nat) (s : State) : Host.Outcome State Fault Refusal :=
  live (.cflDeadline d at_) s fun v =>
    let v := v.advance at_
    let r := (v.cfl d).round
    match r.deadline with
    | some t => if r.state = .admitting ∧ v.eff ≥ t then (v.closeRound d true).pump else v
    | none => v

/-- R199 to R204: the reduction pass of a closed round, with its restart, up to its last result. -/
def execReductionDone (d : Nat) (s : State) : Host.Outcome State Fault Refusal :=
  liveUnit (.reductionDone d) s fun v => if (v.cfl d).round.state = .reducing then (v.reduce d).pump else v

/-- R212: LAST has not arrived in time: reason 0x0602. -/
def execCflFinalLimit (d at_ : Nat) (s : State) : Host.Outcome State Fault Refusal :=
  live (.cflFinalLimit d at_) s fun v =>
    let v := v.advance at_
    let r := (v.cfl d).round
    if r.state = .awaitFinal ∧ v.eff ≥ r.finalEnd then ((v.cflReleaseAll d r.parts).deliver d 0x0602 none).pump else v

/-- A CFL_CMD ends with a code. -/
def Dev.cflEnd (d : Dev) (fn k code : Nat) : Dev :=
  (d.modCfl k fun c => { c with cmdCode := code }).mgmtDone fn .cflCmdDone k

/-- A bucket table entry (08 Table 08-2), if every field lies within its bound. -/
def parseBucket (b : Bytes) : Option Bucket :=
  let x : Bucket := { elements := leAt b 0 4, offset := leAt b 4 4, tensor := leAt b 8 4, elemBase := leAt b 12 4,
                      outAddr := leAt b 16 8, outFmt := leAt b 24 1, inst := leAt b 25 1 }
  if 256 ≤ x.elements ∧ x.elements ≤ 16777216 ∧ x.elements % 256 = 0 ∧ x.offset % 256 = 0 ∧ x.outAddr % 64 = 0 ∧
      (x.outFmt = 1 ∨ x.outFmt = 2) ∧ x.inst ≤ 3 ∧ allZero (b.drop 26) then some x else none

/-- Two entries overlap, in element space or in their OUT ranges. -/
def Bucket.meets (a b : Bucket) : Bool :=
  overlap a.offset a.elements b.offset b.elements || overlap a.outAddr (4 * a.elements) b.outAddr (4 * b.elements)

def pairsApart : List Bucket → Bool
  | [] => true
  | a :: r => r.all (fun b => !a.meets b) && pairsApart r

/-- The table that LOAD_BUCKETS reads: 0x0192 if it is refused (R207). -/
def Dev.bucketTable (d : Dev) (k a n : Nat) : Option (List Bucket) :=
  if n = 0 then some [] else
  if !d.ownRange k a (32 * n) then none else
  let bs := d.readDev a (32 * n)
  let l := (List.range n).filterMap fun i => parseBucket ((bs.drop (32 * i)).take 32)
  if l.length = n ∧ pairsApart l = true ∧ (l.all fun b => d.ownRange k b.outAddr (4 * b.elements) &&
      decide ((d.shareOf k 3 b.inst).2 ≥ mib)) = true then some l else none

/-- LOAD_BUCKETS (R207). -/
def Dev.loadBuckets (v : Dev) (fn k : Nat) : Dev :=
  let x := v.cfl k
  let n := v.reg .cflBucketCount k
  let others := sumNat ((List.range 16).map fun j => if j = k then 0 else (v.cfl j).table.length)
  if !v.isTrain k then v.cflEnd fn k 0x0195
  else if v.liveTrain k ∨ x.folds ≠ [] ∨ x.held ≠ [] then v.cflEnd fn k 0x0196
  else match v.bucketTable k (64 * v.reg .cflBucketAddr k) n with
    | none => v.cflEnd fn k 0x0192
    | some t => if others + n > 4096 then v.cflEnd fn k 0x0196
      else ((v.fetchDev (unitAcc (v.gaugeInst k)) (64 * v.reg .cflBucketAddr k) (32 * n)).2.modCfl k fun c => { c with table := t }).cflEnd fn k 0

/-- A write of OP into CFL_CMD by a physical function (R207, R217). -/
def Dev.cflWrite (v : Dev) (fn k op : Nat) : Dev :=
  if op = 0 then v
  else if op = 1 then v.loadBuckets fn k
  else if 2 < op then v.cflEnd fn k 0x0190
  else if !v.isTrain k then v.cflEnd fn k 0x0195
  else (v.dropPending k).cflEnd fn k 0

/-- R207: LOAD_BUCKETS replaces the bucket table. -/
def execLoadBuckets (fn d : Nat) (s : State) : Host.Outcome State Fault Refusal :=
  hosted fn (.loadBuckets fn d) s fun v => if isPf fn then v.cflWrite fn d 1 else v

/-- R207: DROP_PENDING drops every pending fold and held import, with 0x0614 for each. -/
def execDropPending (fn d : Nat) (s : State) : Host.Outcome State Fault Refusal :=
  hosted fn (.dropPending fn d) s fun v => if isPf fn then v.cflWrite fn d 2 else v

end Sys2Proof.Machine
end

