-- ==== Sys2Proof/Machine/CoreOps.lean ====
section
/-!
DEFINITION. How a core issues its instructions and what an engine instruction may read and write (04 R85, R88 to R98).
-/
namespace Sys2Proof.Machine

/-- A free value of the n-th draw, by an index of its own. -/
def freeAt (n i : Nat) : Nat := Config.freeNat (2 ^ 64 * n + i)

/-! ### Issue -/

/-- The instance of a core that issues now: nothing stops or holds it (R91 to R93). -/
def Dev.coreReady (d : Dev) (i : Nat) : Option Inst :=
  let x := d.core i
  let f := d.field (i / 16)
  match x.inst with
  | none => none
  | some y =>
    if x.state = .running ∧ y.wait = .none ∧ x.stop = none ∧ x.stopped = false ∧ f.state = .active ∧ f.held = false ∧
        f.opChange = none ∧ d.frozen = false ∧ d.mayRun y.ctx = true then some y else none

/-- The word that an instance comes to; none outside its image (R88). -/
def Dev.coreWord (d : Dev) (i : Nat) (y : Inst) : Option Nat :=
  if y.codeBase ≤ y.pc ∧ y.pc + 8 ≤ y.codeBase + y.codeLen then some (d.readLe (pondBase i + y.pc) 8) else none

/-- What the instance of a core reads holds an error that no code corrects: it faults with 0x0345, which is counted for
the core (R89, 17 R382, R384). -/
def Dev.pondUe (d : Dev) (i addr : Nat) : Dev := (d.faultCore i 0x0345).countUe kCore i 0x0345 addr

/-- A core issues its next instruction, if it is one of an opcode: it faults past its image, and on a word that is not
defined for it, whichever instruction was to be issued where the opcode is none (R88, R94). -/
def Dev.issueCore (d : Dev) (i op : Nat) (g : Dev → Inst → Nat → Dev) : Dev :=
  match d.coreReady i with
  | none => d
  | some y => match d.coreWord i y with
    | none => (d.faultCore i 0x0342).pump
    | some w =>
      match d.badIn [(pondBase i + y.pc, 8)] with
      | some b => (d.pondUe i b).pump
      | none =>
      if (coreFmt (opOf w)).isSome ∧ opOf w ≠ op then d
      else if !coreWordOk (isRunnel i) w then (d.faultCore i 0x0340).pump
      else ((g d y w).resettle y.ctx).pump

/-- The instance goes on behind the instruction it has issued, and waits for nothing. -/
def Inst.next (y : Inst) : Inst :=
  { y with wait := .none, loops := (loopStep y.loops (y.pc + 8)).1, pc := (loopStep y.loops (y.pc + 8)).2 }

def Dev.coreNext (d : Dev) (i : Nat) : Dev := d.modInst i Inst.next

/-- The pointer that a register holds. -/
def Inst.ptr (y : Inst) (r : Nat) : Nat := nth 0 y.ptrs (r % 16)

/-- Put a pointer register; arithmetic is modulo 2²² (R90). -/
def Inst.setPtr (y : Inst) (r v : Nat) : Inst := { y with ptrs := y.ptrs.set (r % 16) (v % 2 ^ 22) }

/-! ### What an engine instruction reads and does -/

/-- What an engine instruction comes to: the pond bytes, slots and banks it writes, the advance of pointers (in the
order of R95) and of the element base, its events and its report. -/
structure Eff where
  /-- Pond ranges that it reads. -/
  reads : List (Nat × Nat)
  writes : List (Nat × Bytes)
  slots : List (Nat × Slot)
  banks : List (Nat × Bank)
  incs : List (Nat × Nat)
  baseInc : Nat
  events : Evs
  report : Option GaugeRep
deriving DecidableEq, Repr

def Eff.none : Eff :=
  { reads := [], writes := [], slots := [], banks := [], incs := [], baseInc := 0, events := [], report := Option.none }

/-- What the instruction is computed from. -/
structure Env where
  runnel : Bool
  inst : Inst
  slots : Tbl Slot
  banks : Tbl Bank
  key : RndKey
  /-- The draw that numbers its free values. -/
  draw : Nat
  rd : Nat → Nat → Bytes

/-- A fault code, or what the instruction does: nothing where it retires without effect (00 R11). -/
abbrev Res := Except Nat (Option Eff)

/-- How far apart the inner tile boundaries of a VECTOR or XFORM instruction lie (R93: 256 clocks of its interval, Table
04-5): its elements, those of 256 clocks, and whether its result comes at its end alone. -/
def innerOf (runnel strict : Bool) (w : Nat) : Nat × Nat × Bool :=
  let op := opOf w
  let n := fld w 0 24
  let lane := 256 * (if runnel then 512 else 256)
  let slow := if strict then 16 else 1
  if op = 0x13 then (4096 * n, 4096 * (256 / (if fld w 40 4 = 1 ∨ fld w 40 4 = 11 then 64 else if fld w 40 4 = 2 ∨ fld w 40 4 = 3 then 32 else 16)), false)
  else if op = 0x14 then (roundUp n 32, 65536, bit w 33)
  else if 0x30 ≤ op ∧ op ≤ 0x32 then (n, lane, false)
  else if 0x40 ≤ op ∧ op ≤ 0x44 then (n, lane / slow, false)
  else if op = 0x45 ∨ op = 0x46 then (n, lane / 4 / slow, false)
  else if 0x47 ≤ op ∧ op ≤ 0x4A then (n, lane / 2 / slow, false)
  else if 0x4B ≤ op ∧ op ≤ 0x50 then (n, lane, false)
  else if op = 0x51 then (n, lane / slow, true)
  else if op = 0x54 then (n, lane / 2, true)
  else if 0x52 ≤ op ∧ op ≤ 0x55 then (n, lane, true)
  else if op = 0x58 then (n, lane / 4 / slow, false)
  else (0, 0, false)

/-- Add events, as the low digits of their codes, to an instance's counts (R113). -/
def Inst.count (y : Inst) (evs : Evs) : Inst :=
  { y with events := (List.range 8).map fun n => sat32 (nth 0 y.events n + (evs.filter (· == n)).length) }

/-- Advance each pointer once, by the first operand it serves (R95). -/
def Inst.advance (y : Inst) : List (Nat × Nat) → List Nat → Inst
  | [], _ => y
  | (r, n) :: l, done =>
    if done.contains (r % 16) then y.advance l done
    else (y.setPtr r (y.ptr r + n)).advance l (r % 16 :: done)

/-- The engine instruction has been issued: its effect is there, and stays in flight until it completes. One that
writes and reports nothing has retired. -/
def Dev.launch (d : Dev) (i cls w : Nat) (e : Eff) : Dev :=
  let old := e.writes.map fun w => (w.1, d.read (pondBase i + w.1) w.2.length)
  let x := d.core i
  let slots := e.slots.map fun s => (s.1, Tbl.get Slot.init x.slots s.1)
  let banks := e.banks.map fun b => (b.1, Tbl.get Bank.init x.banks b.1)
  let d := e.writes.foldl (fun d w => d.write (pondBase i + w.1) w.2) d
  let d := d.modCore i fun x => { x with
    slots := e.slots.foldl (fun t s => Tbl.set Slot.init t s.1 s.2) x.slots
    banks := e.banks.foldl (fun t s => Tbl.set Bank.init t s.1 s.2) x.banks }
  d.modInst i fun y =>
    let (elems, step, atEnd) := innerOf (isRunnel i) y.strict w
    let fl : Flight := { cls, pc := y.pc, old, slots, banks, elems, step, atEnd, rest := [], report := e.report }
    let busy := !(e.writes.isEmpty && e.slots.isEmpty && e.banks.isEmpty) || e.report.isSome
    let y := ((y.advance e.incs []).count e.events).next
    { y with ebase := w32 (y.ebase + e.baseInc), flight := y.flight ++ if busy then [fl] else [] }

/-- An engine instruction of a class issues. -/
def Dev.engine (d : Dev) (i op cls : Nat) (f : Env → Nat → Res) : Dev :=
  d.issueCore i op fun d y w =>
    let (n, d) := d.draw
    let kind := match d.prog y.field y.slot with | some p => p.kind | none => .decode 0
    let x := d.core i
    let env : Env := { runnel := isRunnel i, inst := y, slots := x.slots, banks := x.banks, key := d.progKey kind,
                       draw := n, rd := d.pondRead i y cls n }
    match f env w with
    | .error c => d.faultCore i c
    | .ok none => d.coreNext i
    | .ok (some e) => match d.badIn (e.reads.map fun r => (pondBase i + r.1, r.2)) with
      | some b => d.pondUe i b
      | none => d.launch i cls w e

/-! ### Operands -/

/-- An operand's bytes lie in the backed pond (R88). One without bytes reaches nothing. -/
def Env.inPond (e : Env) (a n : Nat) : Bool := n == 0 || decide (a + n ≤ pondOf e.runnel)
/-- They may be written (R88). -/
def Env.mayWrite (e : Env) (a n : Nat) : Bool := e.inPond a n && !overlap a n e.inst.codeBase e.inst.codeLen

/-- The first code of a list of tests that fails. -/
def firstFault : List (Bool × Nat) → Option Nat
  | [] => none
  | (ok, c) :: r => if ok then firstFault r else some c

/-- Go on only where every test holds. -/
@[inline] def guardAll (l : List (Bool × Nat)) (k : Res) : Res := match firstFault l with | some c => .error c | none => k

/-- CONV of a format M or X word: the conversion option in force, none for the reserved code (R95). -/
def Env.conv (e : Env) (w : Nat) (lo : Nat) : Option Bool :=
  match fld w lo 2 with
  | 0 => some e.inst.convNan
  | 2 => some false
  | 3 => some true
  | _ => none

/-- The rounding of an element of an index, with SR or without (R95, R98). -/
def Env.rnd (e : Env) (sr : Bool) (idx : Nat) : Rnd := if sr then srOf e.key 0 e.inst.tensor (e.inst.ebase + idx) else .rne

/-- Element codes of a plain format in bytes. -/
def codesOf (f : Fmt) (bs : Bytes) (n : Nat) : List Nat := (List.range n).map fun j => leAt bs (f.bits / 8 * j) (f.bits / 8)

/-- Bytes of element codes. -/
def bytesOfCodes (f : Fmt) (l : List Nat) : Bytes := l.flatMap (le (f.bits / 8))

/-- The values of n elements in bytes, with MX scales apart: a row of a tile, or an operand. -/
def valsOf (f : Fmt) (bs sc : Bytes) (n : Nat) : List Val :=
  if f.isBlock then
    (List.range (n / 32)).flatMap fun b => decodeBlk f (readBlk f (bs.drop (f.bytes 32 * b)) (leAt sc b 1))
  else (codesOf f bs n).map (decodeElem f)

/-- The largest finite value of a format. -/
def Fmt.maxVal (f : Fmt) : Val := .fin false f.largest.1 f.largest.2

/-- Alignment of an operand of a format (R89). -/
def Fmt.align (f : Fmt) : Nat :=
  match f with
  | .ifb8 => 2 | .ifb4 => 4 | .mxfp8 => 1 | .mxfp4 => 1 | f => f.bits / 8

/-- Encoded elements: bytes, MX scales, events and how many blocks are crushed. -/
structure Enc where
  bytes : Bytes
  scales : Bytes
  events : Evs
  crushed : Nat
deriving DecidableEq, Repr

/-- Values encoded in blocks of a format (03 R69). rnd gives the rounding of element j. -/
def encodeAll (f : Fmt) (srcMax : Val) (rnd : Nat → Rnd) (escOn nan : Bool) (v : List Val) : Enc :=
  (List.range (v.length / 32)).foldl (fun (a : Enc) b =>
    let (x, ev, c) := encodeBlk f srcMax (fun k => rnd (32 * b + k)) escOn nan ((v.drop (32 * b)).take 32)
    { bytes := a.bytes ++ writeBlk f x, scales := if f.isMx then a.scales ++ le 1 x.scale else a.scales,
      events := a.events ++ ev, crushed := a.crushed + b2n c }) { bytes := [], scales := [], events := [], crushed := 0 }

/-- Values converted to a plain format (03 R68). -/
def convertAll (f : Fmt) (rnd : Nat → Rnd) (nan : Bool) (v : List Val) : Enc :=
  let l := ((List.range v.length).zip v).map fun (j, x) => convert f (rnd j) nan x
  { bytes := bytesOfCodes f (l.map Prod.fst), scales := [], events := l.flatMap Prod.snd, crushed := 0 }

/-- Values written in any format. -/
def storeAll (f : Fmt) (srcMax : Val) (rnd : Nat → Rnd) (escOn nan : Bool) (v : List Val) : Enc :=
  if f.isBlock then encodeAll f srcMax rnd escOn nan v else convertAll f rnd nan v

/-- A destination overlaps a source other than as an identical range of the same element size (R102). -/
def clash (dst src : Nat × Nat × Nat) : Bool :=
  overlap dst.1 dst.2.1 src.1 src.2.1 && !(dst == src)

/-- No destination clashes with a source. -/
def noClash (dsts srcs : List (Nat × Nat × Nat)) : Bool := dsts.all fun t => srcs.all fun s => !clash t s

end Sys2Proof.Machine
end

