-- ==== Sys2Proof/Machine/DmaOps.lean ====
section
/-!
DEFINITION. Core DMA tags and Gate waits that are released (12 R287, R289 to R291, R294).
-/
namespace Sys2Proof.Machine

/-- Put a core DMA tag of the instance of a core. -/
def Dev.putTag (d : Dev) (i tag : Nat) (t : Option DmaTag) : Dev :=
  d.modInst i fun y => { y with tags := Tbl.set none y.tags tag t }

/-- The tag of an instance. -/
def Inst.tag? (y : Inst) (tag : Nat) : Option DmaTag := Tbl.get none y.tags tag

/-- Classes of a FENCE mask that still have work (Table 04-3): engine instructions, or DMA tags. -/
def Inst.fenceBusy (y : Inst) (mask : Nat) : Bool :=
  (y.flight.any fun x => bit mask x.cls) || (bit mask 5 && !y.inFlight.isEmpty)

/-- Nothing that the instance has issued is left. -/
def Inst.idle (y : Inst) : Bool := y.flight.isEmpty && y.inFlight.isEmpty

/-- What the instance of a core waits for may be over (R92, R424, 12 R289). -/
def Dev.waitsOver (d : Dev) (i : Nat) : Dev :=
  match (d.core i).inst with
  | none => d
  | some y =>
    let go : Dev := (d.coreNext i).modCore i fun x => { x with state := .running }
    match y.wait with
    | .fence m => if y.fenceBusy m then d else go
    | .dmaw m => if y.inFlight.any (fun (k, _) => bit m k) then d else go
    | .dmaTag t => if (y.tag? t).isSome then d
      else (d.modInst i fun y => { y with wait := .none }).modCore i fun x => { x with state := .running }
    | _ => d

/-- DMA (R289): a tag whose descriptor has not completed stalls issue; else the descriptor at PTR starts, behind its
Gate wait if it has one. A descriptor that is not 64-byte aligned is malformed (log entry 42). -/
def Dev.startDma (d : Dev) (i : Nat) (y : Inst) (w : Nat) : Dev :=
  let tag := imm16 w % 16
  let a := y.ptr (iPtr w)
  if (y.tag? tag).isSome then
    (d.modInst i fun y => { y with wait := .dmaTag tag }).modCore i fun x => { x with state := .waitDma }
  else if a % 64 ≠ 0 then d.faultCore i 0x0361
  else if a + 64 > pondSize i then d.faultCore i 0x0342
  else
    let (n, d) := d.draw
    let b := d.pondRead i y 5 n a 64
    let x := parseDma b
    let waits := bit x.flags 0
    if !x.ok b then d.faultCore i 0x0361
    else if (waits && !d.holds y.ctx x.gateWait) || (bit x.flags 1 && !d.holds y.ctx x.gateSig) then d.faultCore i 0x0360
    else
      let t : DmaTag := { desc := x, ctx := y.ctx, started := !waits, reissue := false, outstanding := 0, abandoned := 0,
                          gen := (d.core i).dmaGen, pc := y.pc, since := d.time.osc }
      let d := (d.putTag i tag (some t)).coreNext i
      if waits then d.startWait (.dma i tag) y.ctx x.gateWait x.cond x.waitValue else d

/-- Device pieces that a descriptor reads. -/
def Dev.dmaReads (d : Dev) (i c : Nat) (x : DmaDesc) : List (Nat × Nat) :=
  if x.op = 2 then [] else
  match d.allRows i c x.srcKind x.src x.srcStride x.rowBytes false (List.range x.rows) with
  | .ok l => l.flatten
  | .error _ => []

/-- A descriptor completes: its data has moved and its signal is applied; a fault signals nothing, and stands at the
instruction that started the transfer (R287, R291, 04 R115). -/
def Dev.dmaDone (d : Dev) (i tag : Nat) (ecc : List EccStrike) : Dev :=
  match (d.core i).inst with
  | none => d
  | some y => match y.tag? tag with
    | none => d
    | some t =>
      if !t.started || t.reissue then d else
      let d := d.spoil ecc
      let src := d.dmaReads i y.ctx t.desc
      match if linkLost ecc src then .error 0x0322 else d.moveRows i y.ctx t.desc with
      | .error e =>
        let bad := (d.badIn src).filter fun b => eccCode b == e
        let d := d.faultAt i e t.pc
        (match bad with | some b => d.ueAt b | none => d).strikes ecc
      | .ok d =>
        let d := if bit t.desc.flags 1 then d.signal t.desc.gateSig t.desc.sigValue (srcCore i) else d
        (((d.putTag i tag none).waitsOver i).trySuspend i).strikes ecc

/-- Change a suspended instance, wherever it is held. -/
def Dev.modSuspended (d : Dev) (w : Waiter) (g : Inst → Inst) : Dev :=
  let upd (z : Option Inst) : Option Inst := z.map fun y => if y.waiter = w then g y else y
  let d := d.setSaves (d.saves.map fun r => if r.inst.waiter = w then { r with inst := g r.inst } else r)
  d.setCores (Tbl.mapAll Core.init (fun _ x => { x with held := upd x.held, restoring := upd x.restoring }) d.cores)

/-- The waiter of an instance whose descriptor waits. -/
def waiterOwner : Waiter → Waiter
  | .instDma f s img run idx _ => .inst f s img run idx
  | w => w

/-- A released wait lets its waiter go on (R294). -/
def Dev.releaseWait (d : Dev) (w : Waiter) : Dev :=
  match d.waitOf w with
  | none => d
  | some x =>
    if !x.released then d else
    let d := d.endWait w
    let startTag (tag : Nat) (y : Inst) : Inst := match y.tag? tag with
      | some t => { y with tags := Tbl.set none y.tags tag (some { t with started := true, since := d.time.osc }) }
      | none => y
    let d := match w with
      | .order o => d.modOrder o fun z => { z with released := true }
      | .core i => (d.coreNext i).modCore i fun z => { z with state := .running }
      | .dma i tag => d.modInst i (startTag tag)
      | .steward f s => d.modProg f s Prog.next
      | .inst _ _ _ _ _ => d.modSuspended w Inst.next
      | .instDma _ _ _ _ _ tag => d.modSuspended (waiterOwner w) (startTag tag)
    (d.resettle x.ctx).pump

end Sys2Proof.Machine
end

