-- ==== Sys2Proof/Machine/CoreCtl.lean ====
section
/-!
DEFINITION. The control instructions of a core, its DMA, and the end of what it has issued (04 R90 to R98, R424, 12 R288
to R294).
-/
namespace Sys2Proof.Machine

/-- R96. -/
def execNop (core : Nat) (s : State) : Host.Outcome State Fault Refusal :=
  live (.nop core) s fun d => d.issueCore core 0x00 fun d _ _ => d.coreNext core

/-- The instance has come to END and nothing it has issued is left (R424). -/
def Dev.tryEnd (d : Dev) (i : Nat) : Dev :=
  match (d.core i).inst with
  | none => d
  | some y => if y.wait = .ending ∧ y.idle = true then d.endInst i else d

/-- R424: END; the instance ends once its issued work and its tags have completed. -/
def execEndInst (core : Nat) (s : State) : Host.Outcome State Fault Refusal :=
  live (.endInst core) s fun d => d.issueCore core 0x01 fun d _ _ =>
    (d.modInst core fun y => { y with wait := .ending }).tryEnd core

/-- R424: the last of its work has completed. -/
def execInstanceEnd (core : Nat) (s : State) : Host.Outcome State Fault Refusal :=
  live (.instanceEnd core) s fun d =>
    match (d.core core).inst with
    | none => d
    | some y => ((d.tryEnd core).resettle y.ctx).pump

/-- R97. -/
def execLoop (core : Nat) (s : State) : Host.Outcome State Fault Refusal :=
  live (.loop core) s fun d => d.issueCore core 0x02 fun d y w =>
    match loopStart y.loops y.pc (imm16 w) (imm32 w) (y.codeBase + y.codeLen) 0x0348 0x0342 with
    | .error c => d.faultCore core c
    | .ok (l, pc) => d.modInst core fun y => { y with loops := l, pc }

/-- R90: PTR := IMM32[21:0]. -/
def execSetp (core : Nat) (s : State) : Host.Outcome State Fault Refusal :=
  live (.setp core) s fun d => d.issueCore core 0x03 fun d _ w =>
    d.modInst core fun y => (y.setPtr (iPtr w) (imm32 w)).next

/-- R90: PTR := PTR + IMM32, modulo 2²². -/
def execAddp (core : Nat) (s : State) : Host.Outcome State Fault Refusal :=
  live (.addp core) s fun d => d.issueCore core 0x04 fun d _ w =>
    d.modInst core fun y => (y.setPtr (iPtr w) (y.ptr (iPtr w) + imm32 w)).next

/-- 12 R294, R295: the wait starts. -/
def execWaitg (core : Nat) (s : State) : Host.Outcome State Fault Refusal :=
  live (.waitg core) s fun d => d.issueCore core 0x05 fun d y w =>
    if !condOk (iCond w) then d.faultCore core 0x0363
    else if !d.holds y.ctx (imm16 w) then d.faultCore core 0x0360
    else
      let d := (d.modInst core fun y => { y with wait := .gate }).modCore core fun x => { x with state := .waitGate }
      d.startWait (.core core) y.ctx (imm16 w) (iCond w) (imm32 w)

/-- 12 R294: a wait that a test has released lets its waiter go on. -/
def execWaitRelease (w : Waiter) (s : State) : Host.Outcome State Fault Refusal :=
  live (.waitRelease w) s fun d => d.releaseWait w

/-- 12 R288, R293, R295. -/
def execSigg (core : Nat) (s : State) : Host.Outcome State Fault Refusal :=
  live (.sigg core) s fun d => d.issueCore core 0x06 fun d y w =>
    if !d.holds y.ctx (imm16 w) then d.faultCore core 0x0360
    else (d.signal (imm16 w) (imm32 w) (srcCore core)).coreNext core

/-- R92: the classes of IMM16[5:0] are waited for. -/
def execFence (core : Nat) (s : State) : Host.Outcome State Fault Refusal :=
  live (.fence core) s fun d => d.issueCore core 0x07 fun d _ w =>
    (d.modInst core fun y => { y with wait := .fence (imm16 w % 64) }).waitsOver core

/-- R98. -/
def execSett (core : Nat) (s : State) : Host.Outcome State Fault Refusal :=
  live (.sett core) s fun d => d.issueCore core 0x08 fun d _ w =>
    d.modInst core fun y => { y.next with tensor := imm32 w }

/-- R98. -/
def execSete (core : Nat) (s : State) : Host.Outcome State Fault Refusal :=
  live (.sete core) s fun d => d.issueCore core 0x09 fun d _ w =>
    d.modInst core fun y => { y.next with ebase := imm32 w }

/-- R98. -/
def execSets (core : Nat) (s : State) : Host.Outcome State Fault Refusal :=
  live (.sets core) s fun d => d.issueCore core 0x0A fun d _ w =>
    d.modInst core fun y => { y.next with stride := imm32 w }

/-- 12 R289. -/
def execDma (core : Nat) (s : State) : Host.Outcome State Fault Refusal :=
  live (.dma core) s fun d => d.issueCore core 0x0B fun d y w => d.startDma core y w

/-- 12 R291: a descriptor completes. -/
def execCoreDmaDone (core tag : Nat) (ecc : List EccStrike) (s : State) : Host.Outcome State Fault Refusal :=
  live (.coreDmaDone core tag ecc) s fun d =>
    match (d.core core).inst with
    | none => d
    | some y => ((d.dmaDone core tag ecc).resettle y.ctx).pump

/-- R96: the tags of IMM16 are waited for. -/
def execDmaw (core : Nat) (s : State) : Host.Outcome State Fault Refusal :=
  live (.dmaw core) s fun d => d.issueCore core 0x0C fun d _ w =>
    ((d.modInst core fun y => { y with wait := .dmaw (imm16 w) }).modCore core fun x =>
      { x with state := .waitDma }).waitsOver core

/-- A report reaches the Gauge instance of a core's terrace (07 R184, R186). -/
def Dev.sendReport (d : Dev) (i k : Nat) (r : GaugeRep) : Dev :=
  d.gaugeReport (i / 64) k r.tensor fun w =>
    let w := { w with crushed := w.crushed + r.crushed, blocks := w.blocks + r.blocks }
    match r.opt with
    | none => w
    | some (sdw, sw, nz) => { w with opt := true, sdw := Val.add w.sdw (f32 sdw), sw := Val.add w.sw (f32 sw), nz := w.nz + nz }

/-- The oldest instruction of a class in flight completes: its report is made, and what waits for it goes on. -/
def Dev.flightDone (d : Dev) (i cls : Nat) (y : Inst) : Dev :=
  match y.flight.find? fun x => x.cls == cls with
  | none => d
  | some x =>
    let d := match x.report, d.prog y.field y.slot with
      | some r, some p => d.sendReport i p.district r
      | _, _ => d
    (d.modInst i fun y => { y with flight := y.flight.erase x }).waitsOver i

/-- Give the slots and banks of a core back what an instruction in flight found in them. -/
def Core.restore (x : Core) (fl : Flight) : Core :=
  { x with slots := fl.slots.foldl (fun t s => Tbl.set Slot.init t s.1 s.2) x.slots
           banks := fl.banks.foldl (fun t s => Tbl.set Bank.init t s.1 s.2) x.banks }

/-- The effects of instructions of a class that come behind a faulting one are taken back, the last first: it has not
reached them (R92, R115). The faulting one, the last of the list, has written as much as a free value says. -/
def Dev.unwind (d : Dev) (i cls kept : Nat) : List Flight → List Flight → Dev
  | [], _ => d
  | x :: l, later =>
    if x.cls ≠ cls then d.unwind i cls kept l (x :: later) else
    let (d, _) := d.takeBack i later (fun n => if l.all (fun z => z.cls != cls) then kept % (n + 1) else 0) x.old
    (d.modCore i fun c => c.restore x).unwind i cls kept l later

/-- The oldest instruction of a class in flight has read an error that no code corrects: it writes nothing further, and
faults (R89, R115, 17 R382). -/
def Dev.strikeInst (d : Dev) (i cls : Nat) (fl : Flight) (y : Inst) (ecc : List EccStrike) (addr : Nat) : Dev :=
  let (n, d) := d.draw
  let d := (d.spoil ecc).unwind i cls (Config.freeNat n) (y.flight.dropWhile fun x => x != fl).reverse []
  ((d.faultAt i 0x0345 fl.pc).countUe kCore i 0x0345 addr).strikes ecc

/-- The address of the first uncorrectable error of a list. -/
def lostAt : List EccStrike → Option Nat
  | [] => none
  | .uncorrectable a :: _ => some a
  | _ :: l => lostAt l

/-- R92, R96: an engine instruction completes; an uncorrectable error in what it read faults it (R89, 17 R382). -/
def execInstructionDone (core cls : Nat) (ecc : List EccStrike) (s : State) : Host.Outcome State Fault Refusal :=
  live (.instructionDone core cls ecc) s fun d =>
    match (d.core core).inst with
    | none => d
    | some y => match if (d.core core).stopped then none else y.flight.find? fun x => x.cls == cls with
      | none => d
      | some fl => match lostAt ecc with
        | none => (((d.flightDone core cls y).resettle y.ctx).strikes ecc).pump
        | some addr => ((d.strikeInst core cls fl y ecc addr).resettle y.ctx).pump

end Sys2Proof.Machine
end

