-- ==== Sys2Proof/Machine/CoreVec.lean ====
section
/-!
DEFINITION. Conversion and vector instructions of a core (03 R64 to R72, R77 to R79; 04 R89, R95, R96, R98, R102).
-/
namespace Sys2Proof.Machine

/-! ### CVT, ENC, DEC -/

/-- Formats that CVT and ENC read, and that CVT writes (03 R68). -/
def plainSrc (f : Fmt) : Bool := !f.isBlock
def plainDst (f : Fmt) : Bool := !f.isBlock && f != .int32
/-- Formats that DEC writes (03 R64). -/
def decDst (f : Fmt) : Bool := f == .fp32 || f == .bf16 || f == .fp16

/-- An operand of a format X word: register, address, elements, format and scale bytes. -/
structure XOpd where
  reg : Nat
  addr : Nat
  scAddr : Nat
  n : Nat
  fmt : Fmt
deriving DecidableEq, Repr

def Env.xOpd (e : Env) (reg n : Nat) (fmt : Fmt) : XOpd :=
  { reg, addr := e.inst.ptr reg, scAddr := e.inst.ptr (reg + 1), n, fmt }

/-- Bytes of its elements, and of its scales (R90). -/
def XOpd.len (x : XOpd) : Nat := x.fmt.bytes x.n
def XOpd.scLen (x : XOpd) : Nat := if x.fmt.isMx then x.n / 32 else 0
/-- The ranges it takes, each with the bytes of 32 elements as the element size. -/
def XOpd.ranges (x : XOpd) : List (Nat × Nat × Nat) := [(x.addr, x.len, x.fmt.bytes 32), (x.scAddr, x.scLen, 1)]
/-- The pointers it uses and how far each advances (R95). -/
def XOpd.incs (x : XOpd) : List (Nat × Nat) :=
  (x.reg, x.len) :: if x.fmt.isMx then [(x.reg + 1, x.scLen)] else []

/-- CVT, ENC and DEC (R68, R69, R64), between the formats each accepts. Only CVT and ENC advance the element base
(R98); element j of a DEC that rounds stochastically takes the word of base + j (03 R66; DESIGN CHOICE, log entry 131). -/
def conversion (blocks enc : Bool) (srcOk dstOk : Fmt → Bool) (e : Env) (w : Nat) : Res :=
  let n := fld w 0 24
  if n = 0 then .ok none else
  match fmtOfTag (fld w 40 4), fmtOfTag (fld w 44 4), e.conv w 36 with
  | some fa, some fd, some nan =>
    let a := e.xOpd (fld w 48 4) n fa
    let d := e.xOpd (iPtr w) n fd
    guardAll [(srcOk fa && dstOk fd && !(blocks && n % 32 != 0), 0x0341),
        (a.addr % fa.align == 0 && d.addr % fd.align == 0, 0x0343),
        (e.inPond a.addr a.len && e.inPond a.scAddr a.scLen && e.mayWrite d.addr d.len && e.mayWrite d.scAddr d.scLen,
          0x0342), (noClash d.ranges a.ranges, 0x0347)] <|
      let v := valsOf fa (e.rd a.addr a.len) (e.rd a.scAddr a.scLen) n
      let x := storeAll fd fa.maxVal (e.rnd (bit w 34)) (!bit w 35) nan v
      .ok (some { Eff.none with
        reads := [(a.addr, a.len), (a.scAddr, a.scLen)]
        writes := (d.addr, x.bytes) :: if fd.isMx then [(d.scAddr, x.scales)] else []
        incs := if bit w 32 then d.incs ++ a.incs else []
        baseInc := if bit w 32 && enc then n else 0
        events := x.events
        report := if fd.isBlock then some { tensor := e.inst.tensor, crushed := x.crushed, blocks := n / 32, opt := none }
                  else none })
  | _, _, _ => .error 0x0341

/-- R68. -/
def execCvt (core : Nat) (s : State) : Host.Outcome State Fault Refusal :=
  live (.cvt core) s fun d => d.engine core 0x30 3 (conversion false true plainSrc plainDst)

/-- R69. -/
def execEnc (core : Nat) (s : State) : Host.Outcome State Fault Refusal :=
  live (.enc core) s fun d => d.engine core 0x31 3 (conversion true true plainSrc Fmt.isBlock)

/-- R64. -/
def execDec (core : Nat) (s : State) : Host.Outcome State Fault Refusal :=
  live (.dec core) s fun d => d.engine core 0x32 3 (conversion true false Fmt.isBlock decDst)

/-! ### Vector operands -/

/-- An operand of a format V word: its register, address, elements and format. -/
structure VOpd where
  reg : Nat
  addr : Nat
  n : Nat
  fmt : Fmt
deriving DecidableEq, Repr

/-- The format of a two-bit code. -/
def vFmt (c : Nat) : Fmt := if c = 1 then .bf16 else if c = 2 then .fp16 else .fp32

def Env.vOpd (e : Env) (reg n : Nat) (fmt : Fmt) : VOpd := { reg, addr := e.inst.ptr reg, n, fmt }

/-- Operands A, B and C of a word, of n elements each; and the destination. -/
def Env.vA (e : Env) (w n : Nat) : VOpd := e.vOpd (fld w 48 4) n (vFmt (fld w 38 2))
def Env.vB (e : Env) (w n : Nat) : VOpd := e.vOpd (fld w 44 4) n (vFmt (fld w 36 2))
def Env.vC (e : Env) (w n : Nat) : VOpd := e.vOpd (fld w 40 4) n (vFmt (fld w 34 2))
def Env.vD (e : Env) (w n : Nat) : VOpd := e.vOpd (iPtr w) n .fp32
/-- An INT32 scalar at PTR_B (R102). -/
def Env.vK (e : Env) (w : Nat) : VOpd := e.vOpd (fld w 44 4) 1 .int32

def VOpd.len (x : VOpd) : Nat := x.fmt.bytes x.n
def VOpd.range (x : VOpd) : Nat × Nat × Nat := (x.addr, x.len, x.fmt.bytes 1)
def VOpd.aligned (x : VOpd) : Bool := x.addr % x.fmt.align == 0

/-- The values of an operand. -/
def Env.vals (e : Env) (x : VOpd) : List Val := valsOf x.fmt (e.rd x.addr x.len) [] x.n

/-- No format code is 0b11. -/
def vFmtsOk (w : Nat) : Bool := fld w 38 2 != 3 && fld w 36 2 != 3 && fld w 34 2 != 3

/-- A vector instruction that writes words at D from its sources (R88, R89, R95, R102). -/
def Env.vector (e : Env) (w : Nat) (srcs : List VOpd) (outLen : Nat) (out : List Nat × Evs) : Res :=
  let d := e.vD w outLen
  guardAll [(vFmtsOk w, 0x0341), (d.aligned && srcs.all VOpd.aligned, 0x0343),
      ((srcs.all fun x => e.inPond x.addr x.len) && e.mayWrite d.addr d.len, 0x0342),
      (noClash [d.range] (srcs.map VOpd.range), 0x0347)] <|
    .ok (some { Eff.none with
      reads := srcs.map fun x => (x.addr, x.len)
      writes := [(d.addr, bytesOfCodes .fp32 out.1)]
      incs := if bit w 24 then (d.reg, d.len) :: srcs.map fun x => (x.reg, x.len) else []
      events := out.2 })

/-- Results with their events. -/
def gather (l : List (Nat × Evs)) : List Nat × Evs := (l.map Prod.fst, l.flatMap Prod.snd)

/-- COUNT of a format V word; 0 retires without effect (00 R11). -/
def vCount (w : Nat) : Nat := fld w 0 24

/-- One operand, element by element. -/
def vec1 (f : Bool → Val → Nat × Evs) (e : Env) (w : Nat) : Res :=
  let n := vCount w
  if n = 0 then .ok none else
  let a := e.vA w n
  e.vector w [a] n (gather ((e.vals a).map (f e.inst.strict)))

/-- Two operands, element by element. -/
def vec2 (f : Bool → Val → Val → Nat × Evs) (e : Env) (w : Nat) : Res :=
  let n := vCount w
  if n = 0 then .ok none else
  let a := e.vA w n
  let b := e.vB w n
  e.vector w [a, b] n (gather (((e.vals a).zip (e.vals b)).map fun (x, y) => f e.inst.strict x y))

/-- Three operands, element by element. -/
def vec3 (f : Bool → Val → Val → Val → Nat × Evs) (e : Env) (w : Nat) : Res :=
  let n := vCount w
  if n = 0 then .ok none else
  let a := e.vA w n
  let b := e.vB w n
  let c := e.vC w n
  e.vector w [a, b, c] n
    (gather (((e.vals a).zip ((e.vals b).zip (e.vals c))).map fun (x, y, z) => f e.inst.strict x y z))

/-- A reduction of A to words. -/
def vecRed (outLen : Nat) (f : Bool → List Val → List Nat × Evs) (e : Env) (w : Nat) : Res :=
  let n := vCount w
  if n = 0 then .ok none else
  let a := e.vA w n
  e.vector w [a] outLen (f e.inst.strict (e.vals a))

/-- A value written as it is. -/
def plain32 (v : Val) : Nat × Evs := (to32 v, [])

/-! ### Elementwise arithmetic (03 R77) -/

def execVadd (core : Nat) (s : State) : Host.Outcome State Fault Refusal :=
  live (.vadd core) s fun d => d.engine core 0x40 3 (vec2 fun st a b => finish32 st (Val.add a b))

def execVsub (core : Nat) (s : State) : Host.Outcome State Fault Refusal :=
  live (.vsub core) s fun d => d.engine core 0x41 3 (vec2 fun st a b => finish32 st (Val.add a (Val.neg b)))

def execVmul (core : Nat) (s : State) : Host.Outcome State Fault Refusal :=
  live (.vmul core) s fun d => d.engine core 0x42 3 (vec2 fun st a b => finish32 st (Val.mul a b))

def execVfma (core : Nat) (s : State) : Host.Outcome State Fault Refusal :=
  live (.vfma core) s fun d => d.engine core 0x43 3 (vec3 fun st a b c => finish32 st (Val.add (Val.mul a b) c))

/-- a · 2^b for the INT32 scalar b at PTR_B, rounded once (R102). A b beyond ±1,000 gives what ±1,000 gives. -/
def vscale (e : Env) (w : Nat) : Res :=
  let n := vCount w
  if n = 0 then .ok none else
  let a := e.vA w n
  let k := e.vK w
  let b := clampInt (sgn 32 (leAt (e.rd k.addr 4) 0 4)) (-1000) 1000
  e.vector w [a, k] n (gather ((e.vals a).map fun v => finish32 e.inst.strict (Val.scale b v)))

def execVscale (core : Nat) (s : State) : Host.Outcome State Fault Refusal :=
  live (.vscale core) s fun d => d.engine core 0x44 3 vscale

def execVdiv (core : Nat) (s : State) : Host.Outcome State Fault Refusal :=
  live (.vdiv core) s fun d => d.engine core 0x45 3 (vec2 fun st a b => finish32 st (Val.div a b))

def execVsqrt (core : Nat) (s : State) : Host.Outcome State Fault Refusal :=
  live (.vsqrt core) s fun d => d.engine core 0x46 3 (vec1 fun st a => finish32 st (Val.sqrt a))

/-- 1/a: ±infinity for ±0. -/
def execVrcp (core : Nat) (s : State) : Host.Outcome State Fault Refusal :=
  live (.vrcp core) s fun d => d.engine core 0x47 3 (vec1 fun st a => finish32 st (Val.div (.fin false 1 0) a))

/-- 1/√a; ±infinity for ±0. -/
def Val.rsqrt (a : Val) : Val :=
  if a.isZero then .inf a.sign else if a.sign then .nan else Val.sqrt (Val.div (.fin false 1 0) a)

def execVrsqrt (core : Nat) (s : State) : Host.Outcome State Fault Refusal :=
  live (.vrsqrt core) s fun d => d.engine core 0x48 3 (vec1 fun st a => finish32 st a.rsqrt)

def execVexp2 (core : Nat) (s : State) : Host.Outcome State Fault Refusal :=
  live (.vexp2 core) s fun d => d.engine core 0x49 3 (vec1 fun st a => finish32 st (Val.exp2 a))

def execVlog2 (core : Nat) (s : State) : Host.Outcome State Fault Refusal :=
  live (.vlog2 core) s fun d => d.engine core 0x4A 3 (vec1 fun st a => finish32 st (Val.log2 a))

/-! ### Order, selection and copies (03 R79; R102) -/

def execVmax (core : Nat) (s : State) : Host.Outcome State Fault Refusal :=
  live (.vmax core) s fun d => d.engine core 0x4B 3 (vec2 fun _ a b => plain32 (Val.max a b))

def execVmin (core : Nat) (s : State) : Host.Outcome State Fault Refusal :=
  live (.vmin core) s fun d => d.engine core 0x4C 3 (vec2 fun _ a b => plain32 (Val.min a b))

/-- 1.0 if a lies above b, else +0. -/
def execVgt (core : Nat) (s : State) : Host.Outcome State Fault Refusal :=
  live (.vgt core) s fun d => d.engine core 0x4D 3 (vec2 fun _ a b => (if Val.gt a b then 0x3F800000 else 0, []))

/-- a if c ≠ 0, else b. -/
def execVsel (core : Nat) (s : State) : Host.Outcome State Fault Refusal :=
  live (.vsel core) s fun d => d.engine core 0x4E 3 (vec3 fun _ a b c => plain32 (if c.isZero then b else a))

def execVmov (core : Nat) (s : State) : Host.Outcome State Fault Refusal :=
  live (.vmov core) s fun d => d.engine core 0x4F 3 (vec1 fun _ a => plain32 a)

/-- n copies of the scalar at PTR_A. -/
def vbcast (e : Env) (w : Nat) : Res :=
  let n := vCount w
  if n = 0 then .ok none else
  let a := e.vA w 1
  e.vector w [a] n (List.replicate n (to32 (nth .nan (e.vals a) 0)), [])

def execVbcast (core : Nat) (s : State) : Host.Outcome State Fault Refusal :=
  live (.vbcast core) s fun d => d.engine core 0x50 3 vbcast

/-! ### Reductions (03 R78, R79; R102) -/

/-- One FP32 sum, from +0. -/
def execVrsum (core : Nat) (s : State) : Host.Outcome State Fault Refusal :=
  live (.vrsum core) s fun d => d.engine core 0x51 3 (vecRed 1 fun st l => let (c, ev) := dotAcc st 0 l; ([c], ev))

/-- One maximum; of magnitudes when ABS is set. -/
def execVrmax (core : Nat) (s : State) : Host.Outcome State Fault Refusal :=
  live (.vrmax core) s fun d => d.engine core 0x52 3 fun e w =>
    vecRed 1 (fun _ l => ([to32 ((if bit w 25 then l.map Val.abs else l).foldl Val.max .nan)], [])) e w

/-- Values with their indices in falling order, the lower index first on a tie. -/
def insTop (x : Val × Nat) : List (Val × Nat) → List (Val × Nat)
  | [] => [x]
  | y :: r => if Val.gt x.1 y.1 then x :: y :: r else y :: insTop x r

def falling (l : List Val) : List (Val × Nat) := (l.zip (List.range l.length)).foldl (fun a x => insTop x a) []

/-- The maximum, and its index. -/
def execVargmax (core : Nat) (s : State) : Host.Outcome State Fault Refusal :=
  live (.vargmax core) s fun d => d.engine core 0x53 3
    (vecRed 2 fun _ l => (((falling l).take 1).flatMap fun (v, i) => [to32 v, i], []))

/-- The K largest values and their indices: entries from n on hold the canonical NaN and 0xFFFF_FFFF. -/
def topWords (k : Nat) (l : List Val) : List Nat :=
  let t := (falling l).take k
  (t.map fun (v, _) => to32 v) ++ List.replicate (k - t.length) nan32 ++ (t.map Prod.snd) ++
    List.replicate (k - t.length) 0xFFFFFFFF

/-- VTOPK: K is an INT32 at PTR_B. -/
def vtopk (e : Env) (w : Nat) : Res :=
  let n := vCount w
  if n = 0 then .ok none else
  let a := e.vA w n
  let b := e.vK w
  let k := sgn 32 (leAt (e.rd b.addr 4) 0 4)
  guardAll [(vFmtsOk w, 0x0341), (b.aligned, 0x0343), (e.inPond b.addr 4, 0x0342)] <|
    if k = 0 then .ok none
    else guardAll [(decide (0 < k ∧ k ≤ 256), 0x0344)] (e.vector w [a, b] (2 * k.toNat) (topWords k.toNat (e.vals a), []))

def execVtopk (core : Nat) (s : State) : Host.Outcome State Fault Refusal :=
  live (.vtopk core) s fun d => d.engine core 0x54 3 vtopk

/-- INT32 count of NaN and infinite elements. -/
def execVnfin (core : Nat) (s : State) : Host.Outcome State Fault Refusal :=
  live (.vnfin core) s fun d => d.engine core 0x55 3
    (vecRed 1 fun _ l => ([(l.filter fun v => v.isNan || v.isInf).length], []))

end Sys2Proof.Machine
end

