-- ==== Sys2Proof/Machine/CoreOpt.lean ====
section
/-!
DEFINITION. OPTW, the fused optimiser update (07 R179 to R184).
-/
namespace Sys2Proof.Machine

/-! ### Moment blocks (R181, R182) -/

/-- The value of a UE4M4 element. -/
def ue4m4 (c : Nat) : Val :=
  let e := fld c 4 4
  let m := fld c 0 4
  if e = 0 then .fin false m (-10) else .fin false (16 + m) ((e : Int) - 11)

/-- The 32 values of an R block. -/
def decodeR (bs : Bytes) : List Val :=
  let h := leAt bs 0 2
  if bit h 8 then List.replicate 32 (.fin false 0 0)
  else if fld h 0 8 = 0xFF then List.replicate 32 .nan
  else ((bs.drop 2).take 32).map fun b => Val.scale ((fld h 0 8 : Int) - 127) (ue4m4 b.toNat)

/-- An R block of r values with its events and whether it is crushed: R69 with UE4M4 elements, emax_elem 8 and max_elem
496; a −0 is stored as +0 (R183). -/
def encodeR (rnd : Nat → Rnd) (x : List Val) : Bytes × Evs × Bool :=
  if x.any Val.isNan then (le 2 0xFF ++ zeros 32, [7], false)
  else
    let ev : Evs := (x.filter Val.isInf).map fun _ => 1
    let x := x.map fun v => if v.isInf then Fmt.maxVal .fp32 else v
    if x.all Val.isZero then (le 2 0x100 ++ zeros 32, ev, false)
    else
      let at_ (i : Nat) := nth (.fin false 0 0) x i
      let xs : Int := max ((at_ (argMaxMag x (List.range 32))).ex - 8) (-127)
      let code (i : Nat) : Nat := match at_ i with
        | .fin _ m e =>
          let (n, q) := roundMag (rnd i) 4 (-6) m (e - xs)
          if magGt n q 31 4 then 0xFF else if n < 16 then n else (q + 11).toNat * 16 + (n - 16)
        | _ => 0
      let elems := (List.range 32).map code
      let n := (x.filter fun v => !v.isZero).length
      let c := ((x.zip elems).filter fun (v, k) => !v.isZero && k == 0).length
      let crushed := decide (2 * c ≥ n)
      (le 2 (xs + 127).toNat ++ elems.map (BitVec.ofNat 8), ev ++ (if crushed then [6] else []), crushed)

/-! ### One parameter (R183, R184) -/

/-- The hyper-parameters of Table 07-4 and s. -/
structure Hyper where
  lr : Val
  beta1 : Val
  beta2 : Val
  eps : Val
  wd : Val
  bc1 : Val
  bc2r : Val
  s : Val
deriving DecidableEq, Repr

def hyperOf (b : Bytes) (vscale : Nat) : Hyper :=
  let at_ (o : Nat) := f32 (leAt b o 4)
  { lr := at_ 0, beta1 := at_ 4, beta2 := at_ 8, eps := at_ 12, wd := at_ 16, bc1 := at_ 20, bc2r := at_ 24,
    s := f32 vscale }

/-- What an update gives for one parameter: m and r to encode, the new master and working words, the terms of SDW and
SW, and whether the gradient is not zero. -/
structure Param where
  m : Val
  r : Val
  master : Nat
  work : Nat
  sdw : Val
  sw : Val
  nz : Bool
deriving DecidableEq, Repr

/-- An FP32 operation in the program's mode: the value, and the events so far with its own. -/
def op32 (strict : Bool) (ev : Evs) (v : Val) : Val × Evs := let (c, e) := finish32 strict v; (f32 c, ev ++ e)

/-- The update of one parameter (R183). -/
def optParam (strict : Bool) (h : Hyper) (m r w g : Val) : Param × Evs :=
  let op := op32 strict
  let sub (a b : Val) := Val.add a (Val.neg b)
  let one : Val := .fin false 1 0
  let nz := !g.isZero
  let (ob1, ev) := op [] (sub one h.beta1)
  let (ob2, ev) := op ev (sub one h.beta2)
  let (g, ev) := op ev (Val.mul g h.s)
  let (x, ev) := op ev (Val.mul ob1 g)
  let (m, ev) := op ev (Val.add (Val.mul h.beta1 m) x)
  let (rr, ev) := op ev (Val.mul r r)
  let (gg, ev) := op ev (Val.mul g g)
  let (y, ev) := op ev (Val.mul ob2 gg)
  let (v, ev) := op ev (Val.add (Val.mul h.beta2 rr) y)
  let (r, ev) := op ev (Val.sqrt v)
  let (mb, ev) := op ev (Val.mul m h.bc1)
  let (rb, ev) := op ev (Val.mul r h.bc2r)
  let (dn, ev) := op ev (Val.add rb h.eps)
  let (u, ev) := op ev (Val.div mb dn)
  let (f, ev) := op ev (Val.add (Val.mul h.wd w) u)
  let (l, ev) := op ev (Val.mul h.lr f)
  let (wn, ev) := op ev (sub w l)
  let (work, e) := convert .bf16 .rne false wn
  let (d, ev) := op (ev ++ e) (sub wn w)
  let (sdw, ev) := op ev (Val.mul d d)
  let (sw, ev) := op ev (Val.mul w w)
  ({ m, r, master := to32 wn, work, sdw, sw, nz }, ev)

/-! ### The instruction -/

/-- The update of n parameters from the bytes of its operands: the masters, moments and working words, the events, the
crushed blocks and the report's sums. -/
def optUpdate (e : Env) (h : Hyper) (gf : Fmt) (masters moments grads : Bytes) (n : Nat) : Bytes × Bytes × Bytes × Evs × GaugeRep :=
  let g := valsOf gf grads [] n
  let w := codesOf .fp32 masters n
  let blocks : List (List Param × Bytes × Evs × Nat) := (List.range (n / 32)).map fun b =>
    let mr := (moments.drop (68 * b)).take 68
    let m := decodeBlk .ifb8 (readBlk .ifb8 mr 0)
    let r := decodeR (mr.drop 34)
    let ps : List (Param × Evs) := (List.range 32).map fun i =>
      optParam e.inst.strict h (nth .nan m i) (nth .nan r i) (f32 (nth 0 w (32 * b + i))) (nth .nan g (32 * b + i))
    let rnd (stream i : Nat) : Rnd := srOf e.key stream e.inst.tensor (e.inst.ebase + 32 * b + i)
    let (mb, ev1, c1) := encodeBlk .ifb8 (Fmt.maxVal .fp32) (rnd 0) false false (ps.map fun p => p.1.m)
    let (rb, ev2, c2) := encodeR (rnd 1) (ps.map fun p => p.1.r)
    (ps.map Prod.fst, writeBlk .ifb8 mb ++ rb, ps.flatMap Prod.snd ++ ev1 ++ ev2, b2n c1 + b2n c2)
  let ps := blocks.flatMap fun x => x.1
  let (sdw, ev3) := dotAcc e.inst.strict 0 (ps.map Param.sdw)
  let (sw, ev4) := dotAcc e.inst.strict 0 (ps.map Param.sw)
  (ps.flatMap fun p => le 4 p.master, blocks.flatMap fun x => x.2.1, ps.flatMap fun p => le 2 p.work,
   (blocks.flatMap fun x => x.2.2.1) ++ ev3 ++ ev4,
   { tensor := e.inst.tensor, crushed := sumNat (blocks.map fun x => x.2.2.2), blocks := 2 * (n / 32),
     opt := some (sdw, sw, (ps.filter Param.nz).length) })

/-- The operands of OPTW are within R179. -/
def optwTests (e : Env) (w : Nat) : List (Bool × Nat) :=
  let c := fld w 40 4
  let gsz := (vFmt (fld w 34 2)).bits / 8
  [(fld w 36 4 == 0 && decide (fld w 34 2 ≤ 1) && vCount w % 32 == 0, 0x0341),
   (e.inst.ptr (fld w 48 4) % 4 == 0 && e.inst.ptr (c + 1) % 4 == 0 && e.inst.ptr (fld w 44 4) % 2 == 0 &&
      e.inst.ptr (iPtr w) % 2 == 0 && e.inst.ptr c % gsz == 0, 0x0343)]

/-- OPTW under a verdict (R180): under SKIP it retires and writes nothing, and INC still advances. -/
def optw (isOpt : Bool) (verdict vscale : Nat) (e : Env) (w : Nat) : Res :=
  if !isOpt then .error 0x0340 else
  let n := vCount w
  if n = 0 then .ok none else
  let gf := vFmt (fld w 34 2)
  let gsz := gf.bits / 8
  let nb := n / 32
  let a := e.inst.ptr (fld w 48 4)
  let b := e.inst.ptr (fld w 44 4)
  let c := e.inst.ptr (fld w 40 4)
  let d := e.inst.ptr (iPtr w)
  let h := e.inst.ptr (fld w 40 4 + 1)
  let incs := if bit w 24 then [(iPtr w, 2 * n), (fld w 48 4, 4 * n), (fld w 44 4, 68 * nb), (fld w 40 4, gsz * n)] else []
  guardAll (optwTests e w) <|
    if verdict ≠ 1 then .ok (some { Eff.none with incs }) else
    guardAll [(e.mayWrite a (4 * n) && e.mayWrite b (68 * nb) && e.inPond c (gsz * n) && e.mayWrite d (2 * n) &&
        e.inPond h 64, 0x0342),
        (noClash [(a, 4 * n, 4), (b, 68 * nb, 68), (d, 2 * n, 2)]
          [(a, 4 * n, 4), (b, 68 * nb, 68), (c, gsz * n, gsz), (h, 64, 4)], 0x0347)] <|
      let (ma, mo, wk, events, rep) :=
        optUpdate e (hyperOf (e.rd h 64) vscale) gf (e.rd a (4 * n)) (e.rd b (68 * nb)) (e.rd c (gsz * n)) n
      .ok (some { Eff.none with
        reads := [(a, 4 * n), (b, 68 * nb), (c, gsz * n), (h, 64)], writes := [(a, ma), (b, mo), (d, wk)], incs, events, report := some rep })

/-- An instance runs the OPT_IMAGE of a stash plan (06 R146). -/
def Dev.inOptImage (d : Dev) (y : Inst) : Bool :=
  match d.prog y.field y.slot with
  | none => false
  | some p => match p.plan? with
    | none => false
    | some x => x.opt == some y.image

/-- OPTW stalls at issue until the verdict of the order is formed (R180). -/
def Dev.optwStalls (d : Dev) (i : Nat) (y : Inst) : Bool :=
  match d.coreWord i y, d.prog y.field y.slot with
  | some w, some p => opOf w == 0x58 && d.inOptImage y && vCount w != 0 && (d.gauge p.district).verdict == 0
  | _, _ => false

/-- OPTW (R179, R180). A stalled one changes nothing. -/
def execOptw (core : Nat) (s : State) : Host.Outcome State Fault Refusal :=
  live (.optw core) s fun d =>
    match d.coreReady core with
    | none => d
    | some y =>
      if d.optwStalls core y then d else
      let k := match d.prog y.field y.slot with | some p => p.district | none => 0
      d.engine core 0x58 3 (optw (d.inOptImage y) (d.gauge k).verdict (d.gauge k).vscale)

end Sys2Proof.Machine
end

