-- ==== Sys2Proof/Machine/Merge.lean ====
section
/-!
DEFINITION. Offtake packages as memory holds them (10 R248), and the merge of a version into the teacher's weights as they
stream into a core's operand slots (R252).
-/
namespace Sys2Proof.Machine

/-! ### Packages (R248) -/

/-- A tensor of a package's directory (Table 10-5). -/
structure OftTensor where
  tensor : Nat
  rows : Nat
  cols : Nat
  fmt : Nat
  tiles : Nat
  offset : Nat
deriving DecidableEq, Repr

def tensorAt (b : Bytes) (k : Nat) : OftTensor :=
  let o := 64 + 32 * k
  { tensor := leAt b o 4, rows := leAt b (o + 4) 4, cols := leAt b (o + 8) 4, fmt := leAt b (o + 12) 1,
    tiles := leAt b (o + 16) 4, offset := leAt b (o + 24) 8 }

def tensorsOf (b : Bytes) : List OftTensor := (List.range (leAt b 12 4)).map (tensorAt b)

/-- Bytes of a tile of a format (R248); 0 for a format that a package may not use. -/
def tileBytes (fmt : Nat) : Nat := if fmt = 2 then 2048 else if fmt = 7 then 1088 else if fmt = 8 then 640 else 0

/-- TILE_ROW and TILE_COL of entry i of an index. -/
def tileAt (b : Bytes) (o i : Nat) : Nat × Nat := (leAt b (o + 4 * i) 2, leAt b (o + 4 * i + 2) 2)

/-- The delta tile of an index entry (R248): the tensor's format and the tile's bytes. -/
def tileBytesAt (b : Bytes) (t : OftTensor) (i : Nat) : Bytes :=
  (b.drop (roundUp (t.offset + 4 * t.tiles) 8 + i * tileBytes t.fmt)).take (tileBytes t.fmt)

/-- The tile of a package at (TILE_ROW, TILE_COL) of a tensor, where it has one. -/
def deltaTile (b : Bytes) (tensor : Nat) (at_ : Nat × Nat) : Option (Fmt × Bytes) :=
  match (tensorsOf b).find? fun t => t.tensor == tensor with
  | none => none
  | some t => match (List.range t.tiles).find? fun i => tileAt b t.offset i == at_, fmtOfTag t.fmt with
    | some i, some f => some (f, tileBytesAt b t i)
    | _, _ => none

/-- The 32 × 32 values of a tile, row after row: a row is one block, or 32 elements. -/
def tileVals (f : Fmt) (bs : Bytes) : List (List Val) :=
  (List.range 32).map fun r =>
    if f.isBlock then decodeBlk f (readBlk f (bs.drop (f.bytes 32 * r)) 0)
    else (List.range 32).map fun c => decodeElem f (leAt bs (f.bytes 32 * r + f.bytes c) (f.bytes 1))

/-! ### The merge (R252) -/

/-- The copy of a version in the district's memory, as its package stood without the signature. -/
def Dev.oftCopy (d : Dev) (v : OftVer) : Bytes := v.place.flatMap fun (a, n) => d.readDev a n

/-- The version of a row of a serving program's table. -/
def Dev.rowOft (d : Dev) (r : ServRow) : Option OftVer :=
  if r.version = 0 then none
  else d.ofts.find? fun v => v.tenant == r.tenant && v.variant == r.offtake && v.version == r.version

/-- The delta tiles that a load of a core merges, each with its first row and column in what the load reads: those of a row
that the core's serving program carries and has not masked, where the row's version has a delta tile there. -/
def Dev.deltas (d : Dev) (core : Nat) (ms : List OftMerge) : List (Nat × Nat × List (List Val)) :=
  match d.progFor (coreAcc core) with
  | none => []
  | some p => ms.filterMap fun m =>
    ((p.table.find? fun r => r.req == m.req && !r.masked).bind d.rowOft).bind fun v =>
      (deltaTile (d.oftCopy v) m.tensor (m.tileRow, m.tileCol)).map fun (f, b) => (m.row, m.col, tileVals f b)

/-- One row of elements with the elements of a delta row from a column on: rne_bf16(base + delta), the sum exact, with one
rounding; an overflow raises 0x0645. -/
def mergeRow (base delta : List Val) (col : Nat) : List Val × Evs :=
  let l := ((base.drop col).zip delta).map fun (x, y) => convert .bf16 .rne false (Val.add x y)
  (base.take col ++ l.map (fun x => decodeElem .bf16 x.1) ++ base.drop (col + l.length), l.flatMap fun x => x.2)

/-- Rows of elements with a delta tile merged in. A tile that does not lie within them merges nothing. -/
def mergeTile (l : List (List Val)) (t : Nat × Nat × List (List Val)) : List (List Val) × Evs :=
  if l.length < t.1 + 32 ∨ (nth [] l t.1).length < t.2.1 + 32 then (l, []) else
  let m := ((l.drop t.1).zip t.2.2).map fun (x, y) => mergeRow x y t.2.1
  (l.take t.1 ++ m.map Prod.fst ++ l.drop (t.1 + m.length), m.flatMap Prod.snd)

/-- Rows of elements with every delta tile of a load merged in, and the events. -/
def mergeAll (l : List (List Val)) (ts : List (Nat × Nat × List (List Val))) : List (List Val) × Evs :=
  ts.foldl (fun (x : List (List Val) × Evs) t => let y := mergeTile x.1 t; (y.1, x.2 ++ y.2)) (l, [])

end Sys2Proof.Machine
end

