-- ==== Sys2Proof/Machine/CoreTile.lean ====
section
/-!
DEFINITION. The tile and matrix instructions of a core (04 R85 to R87, R95 to R101, R103; 03 R73 to R76).
-/
namespace Sys2Proof.Machine

/-! ### Slots and banks (Table 04-2) -/

/-- Rows of a slot, or columns of a right slot; none for a code that is no slot of the core's type. -/
def slotRows (runnel : Bool) (buf : Nat) : Option Nat :=
  if runnel then (if buf < 2 then some 32 else if buf < 4 then some 64 else none)
  else if buf < 8 then some 64 else none

/-- A slot accepts a format tag. -/
def slotAccepts (buf tag : Nat) : Bool :=
  if buf < 6 then decide (2 ≤ tag ∧ tag ≤ 10) else decide (2 ≤ tag ∧ tag ≤ 5)

/-- The largest K of a slot in a format (R85). -/
def slotCap (buf : Nat) (f : Fmt) : Nat := if 6 ≤ buf then 64 else 2048 / f.bits

/-- The banks of an accumulator code; none for a code that is no bank of the core's type. -/
def bankCodes (runnel : Bool) (buf : Nat) : Option (List Nat) :=
  if buf = 8 ∨ buf = 9 then some [buf]
  else if runnel then none
  else if buf = 10 ∨ buf = 11 then some [buf]
  else if buf = 12 then some [8, 10]
  else if buf = 13 then some [9, 11]
  else none

/-- Rows of the core's array. -/
def arrayRows (runnel : Bool) : Nat := if runnel then 32 else 64

def Env.slot (e : Env) (buf : Nat) : Slot := Tbl.get Slot.init e.slots buf
def Env.bank (e : Env) (b : Nat) : Bank := Tbl.get Bank.init e.banks b

/-- The value that a bank holds at a place, or its word. -/
def Bank.word (b : Bank) (r c : Nat) : Nat := nth 0 b.vals (64 * r + c)
def Bank.val (b : Bank) (r c : Nat) : Val := if b.int then Val.ofInt (sgn 32 (b.word r c)) else f32 (b.word r c)

/-- The address of a format M operand (R90). -/
def Env.mAddr (e : Env) (w : Nat) : Nat := (e.inst.ptr (iPtr w) + 64 * fld w 16 16) % 2 ^ 22

/-- INC of a list of pointers and bytes (R95). -/
def incIf (w i : Nat) (l : List (Nat × Nat)) : List (Nat × Nat) := if bit w i then l else []

/-! ### TLOAD, TSTORE, ACCLD -/

/-- Rows turned into columns, n of them. -/
def transpose (n : Nat) (l : List (List Val)) : List (List Val) :=
  (List.range n).map fun r => l.map fun x => nth (.fin false 0 0) x r

/-- TLOAD (R99), with the delta tiles that the weight fetch stage merges into the rows it reads (10 R252). -/
def tload (ts : List (Nat × Nat × List (List Val))) (e : Env) (w : Nat) : Res :=
  let k := fld w 0 16
  let buf := fld w 36 4
  if k = 0 then .ok none else
  match slotRows e.runnel buf, fmtOfTag (fld w 48 4), e.conv w 44 with
  | some rows, some f, some _ =>
    let tr := bit w 41
    let a := e.mAddr w
    let s := e.inst.ptr (iPtr w + 1)
    let src := if tr then k else rows
    let wid := if tr then rows else k
    let pitch := roundUp (f.bytes wid) 64
    let per := if f.isMx then k / 32 else 0
    guardAll [(slotAccepts buf (fld w 48 4) && !(tr && f.isBlock) && !(f.isBlock && k % 32 != 0), 0x0341),
        (decide (k ≤ slotCap buf f), 0x0344), (a % 64 == 0, 0x0343),
        (e.inPond a ((src - 1) * pitch + f.bytes wid) && e.inPond s (rows * per), 0x0342)] <|
      let l := (List.range src).map fun r => valsOf f (e.rd (a + r * pitch) (f.bytes wid)) (e.rd (s + r * per) per) wid
      let m := mergeAll l ts
      let l := m.1
      let l := if tr then transpose rows l else l
      let fill := if 6 ≤ buf then l.map fun x => x ++ List.replicate (64 - k) (.fin false 0 0) else l
      .ok (some { Eff.none with
        reads := [(a, (src - 1) * pitch + f.bytes wid), (s, rows * per)]
        slots := [(buf, { fmt := fld w 48 4, k := if 6 ≤ buf then 64 else k, rows := fill, cleared := (e.slot buf).cleared })]
        events := m.2, incs := incIf w 40 [(iPtr w, src * pitch)] })
  | _, _, _ => .error 0x0341

/-- TSTORE (R98, R100). -/
def tstore (e : Env) (w : Nat) : Res :=
  let rows := fld w 0 16
  if rows = 0 then .ok none else
  match bankCodes e.runnel (fld w 36 4), fmtOfTag (fld w 48 4), e.conv w 44 with
  | some bs, some f, some nan =>
    let banks := bs.map e.bank
    let width := 64 * bs.length
    let a := e.mAddr w
    let s := e.inst.ptr (iPtr w + 1)
    let pitch := roundUp (f.bytes width) 64
    let scLen := if f.isMx then rows * (width / 32) else 0
    let int := decide (f = .int32)
    guardAll [(!int || banks.all fun b => b.int, 0x0341), (decide (rows ≤ arrayRows e.runnel), 0x0344),
        (a % 64 == 0, 0x0343),
        ((List.range rows).all (fun r => e.mayWrite (a + r * pitch) (f.bytes width)) && e.mayWrite s scLen, 0x0342)] <|
      let enc (r : Nat) : Enc :=
        let cols := List.range 64
        if int then { bytes := bytesOfCodes f (banks.flatMap fun b => cols.map fun c => b.word r c), scales := [],
                      events := [], crushed := 0 }
        else storeAll f (Fmt.maxVal .fp32) (fun c => e.rnd (bit w 42) (r * e.inst.stride + c)) (!bit w 43) nan
          (banks.flatMap fun b => cols.map fun c => b.val r c)
      let l := (List.range rows).map fun r => (r, enc r)
      .ok (some { Eff.none with
        writes := (l.map fun (r, x) => (a + r * pitch, x.bytes)) ++
          (if f.isMx then [(s, l.flatMap fun (_, x) => x.scales)] else [])
        incs := incIf w 40 [(iPtr w, rows * pitch)]
        baseInc := if bit w 40 then rows * e.inst.stride else 0
        events := l.flatMap fun (_, x) => x.events
        report := if f.isBlock then some { tensor := e.inst.tensor, crushed := sumNat (l.map fun (_, x) => x.crushed),
                                           blocks := rows * (width / 32), opt := none } else none })
  | _, _, _ => .error 0x0341

/-- A bank with its first rows replaced. -/
def Bank.load (b : Bank) (size : Nat) (words : List Nat) : Bank :=
  { int := false, vals := (List.range size).map fun j => if j < words.length then nth 0 words j else nth 0 b.vals j }

/-- ACCLD (R100). A format other than FP32 is 0x0341 (DEDUCED, log entry 130). -/
def accld (e : Env) (w : Nat) : Res :=
  let rows := fld w 0 16
  if rows = 0 then .ok none else
  match bankCodes e.runnel (fld w 36 4), e.conv w 44 with
  | some bs, some _ =>
    let a := e.mAddr w
    let pitch := 256 * bs.length
    guardAll [(fld w 48 4 == 1, 0x0341), (decide (rows ≤ arrayRows e.runnel), 0x0344), (a % 64 == 0, 0x0343),
        (e.inPond a (rows * pitch), 0x0342)] <|
      let words (i : Nat) : List Nat := (List.range rows).flatMap fun r => codesOf .fp32 (e.rd (a + r * pitch + 256 * i) 256) 64
      .ok (some { Eff.none with
        reads := [(a, rows * pitch)]
        banks := ((List.range bs.length).zip bs).map fun (i, b) =>
          (b, (e.bank b).load (64 * arrayRows e.runnel) (words i))
        incs := incIf w 40 [(iPtr w, rows * pitch)] })
  | _, _ => .error 0x0341

/-! ### TRANS, SOUND -/

/-- The pointers of a format X word. -/
def Env.xd (e : Env) (w : Nat) : Nat := e.inst.ptr (iPtr w)
def Env.xa (e : Env) (w : Nat) : Nat := e.inst.ptr (fld w 48 4)

/-- TRANS (R101): n tiles of 64 × 64, of one format; another FMT_D is 0x0341 (DEDUCED, log entry 130). It moves the codes
as they are, those of NaNs too (03 R59; DEDUCED, log entry 131). -/
def trans (e : Env) (w : Nat) : Res :=
  let n := fld w 0 24
  if n = 0 then .ok none else
  match fmtOfTag (fld w 40 4), e.conv w 36 with
  | some f, some _ =>
    let z := f.bits / 8
    let len := n * 4096 * z
    let d := e.xd w
    let a := e.xa w
    guardAll [(fld w 44 4 == fld w 40 4 && !f.isBlock, 0x0341), (d % z == 0 && a % z == 0, 0x0343),
        (e.inPond a len && e.mayWrite d len, 0x0342), (noClash [(d, len, z)] [(a, len, z)], 0x0347)] <|
      let tile (t : Nat) : Bytes :=
        let b := e.rd (a + t * 4096 * z) (4096 * z)
        (List.range 64).flatMap fun r => (List.range 64).flatMap fun c => (b.drop ((64 * c + r) * z)).take z
      .ok (some { Eff.none with
        reads := [(a, len)]
        writes := (List.range n).map fun t => (d + t * 4096 * z, tile t)
        incs := incIf w 32 [(iPtr w, len), (fld w 48 4, len)] })
  | _, _ => .error 0x0341

/-- The largest magnitude under R79. -/
def maxAbs (l : List Val) : Val := l.foldl (fun a v => Val.max a v.abs) .nan

/-- SOUND (R101). Its maxima are FP32; another FMT_D is 0x0341 (DEDUCED, log entry 130). -/
def sound (e : Env) (w : Nat) : Res :=
  let n := fld w 0 24
  if n = 0 then .ok none else
  match fmtOfTag (fld w 40 4), e.conv w 36 with
  | some f, some _ =>
    let z := f.bits / 8
    let d := e.xd w
    let a := e.xa w
    let out := if bit w 33 then 1 else ceilDiv n 32
    guardAll [(decide (fld w 40 4 = 1 ∨ fld w 40 4 = 2 ∨ fld w 40 4 = 3) && fld w 44 4 == 1, 0x0341),
        (d % 4 == 0 && a % z == 0, 0x0343), (e.inPond a (n * z) && e.mayWrite d (4 * out), 0x0342),
        (noClash [(d, 4 * out, 4)] [(a, n * z, z)], 0x0347)] <|
      let v := valsOf f (e.rd a (n * z)) [] n
      let r := if bit w 33 then [maxAbs v] else (List.range out).map fun b => maxAbs ((v.drop (32 * b)).take 32)
      .ok (some { Eff.none with
        reads := [(a, n * z)]
        writes := [(d, bytesOfCodes .fp32 (r.map to32))]
        incs := incIf w 32 [(iPtr w, 4 * out), (fld w 48 4, n * z)] })
  | _, _ => .error 0x0341

/-! ### Matrix instructions -/

/-- One product of a left and a right operand into a bank: rows and columns of k values each. -/
structure Product where
  left : List (List Val)
  right : List (List Val)
  acc : Bool
  bank : Nat
deriving DecidableEq, Repr

/-- The first k values of a row of a slot. What no TLOAD has written is zero after a clear (R111), and has else a value that
nothing states (log entry 31). -/
def Env.slotRow (e : Env) (buf k : Nat) (s : Slot) (r : Nat) : List Val :=
  let x := nth [] s.rows r
  let f := ((fmtOfTag s.fmt).map Fmt.elem).getD .bf16
  (List.range k).map fun j => (x[j]?).getD (if s.cleared then .fin false 0 0 else
    decodeElem f (freeAt e.draw (2 ^ 20 * buf + 2 ^ 10 * r + j) % 2 ^ f.bits))

/-- The rows, or columns, of a slot. -/
def Env.operand (e : Env) (buf k : Nat) : List (List Val) :=
  (List.range ((slotRows e.runnel buf).getD 0)).map (e.slotRow buf k (e.slot buf))

/-- What a matrix instruction needs of a slot: its format, and that it can hold K. A slot that no TLOAD has filled has no
format, and is refused with 0x0341 (DESIGN CHOICE, log entry 130). -/
def Env.slotOk (e : Env) (int : Bool) (buf k : Nat) : Bool :=
  match fmtOfTag (e.slot buf).fmt with
  | some f => decide ((f = .int8) ↔ int = true) && !(f.isBlock && k % 32 != 0)
  | none => false

def Env.slotHolds (e : Env) (buf k : Nat) : Bool :=
  match fmtOfTag (e.slot buf).fmt with
  | some f => decide (k ≤ slotCap buf f)
  | none => false

/-- The integer that an INT8 value is. -/
def intOf : Val → Int
  | .fin s m e => (if s then -1 else 1) * ((m * 2 ^ e.toNat : Nat) : Int)
  | _ => 0

/-- An element of a product: FP32 or INT32 (03 R73 to R76). -/
def Env.cell (e : Env) (int : Bool) (start : Nat) (l r : List Val) : Nat × Evs :=
  if int then
    let (v, ev) := intAcc (sgn 32 start) ((l.zip r).map fun (x, y) => intOf x * intOf y)
    (unsgn 32 v, ev)
  else dotAcc e.inst.strict start ((l.zip r).map fun (x, y) => Val.mul x y)

/-- The bank that a product leaves, and its events (R87). -/
def Env.product (e : Env) (int : Bool) (p : Product) : (Nat × Bank) × Evs :=
  let old := e.bank p.bank
  let cells := ((List.range p.left.length).zip p.left).flatMap fun (r, x) =>
    ((List.range p.right.length).zip p.right).map fun (c, y) => e.cell int (if p.acc then old.word r c else 0) x y
  ((p.bank, { int, vals := cells.map Prod.fst }), cells.flatMap Prod.snd)

/-- A matrix instruction over slots (R86): the formats, then the capacities, then the products. -/
def Env.matrix (e : Env) (int : Bool) (k : Nat) (bufs : List Nat) (ps : List Product) : Res :=
  guardAll [(bufs.all fun b => e.slotOk int b k, 0x0341), (bufs.all fun b => e.slotHolds b k, 0x0344)] <|
    let l := ps.map (e.product int)
    .ok (some { Eff.none with banks := l.map Prod.fst, events := l.flatMap Prod.snd })

/-- Slots and banks of a format T word. -/
def tLeft (w : Nat) : Nat := fld w 47 1
def tARight (w : Nat) : Nat := 2 + fld w 46 1
def tBRight (w : Nat) : Nat := 4 + fld w 46 1
def tDy (w : Nat) : Nat := 6 + fld w 45 1
def tBankA (w : Nat) : Nat := 8 + fld w 44 1
def tBankB (w : Nat) : Nat := 10 + fld w 43 1

/-- MMA, MMAA, MMAB and IMMA: left times right, on the arrays named. -/
def mma (int onA onB : Bool) (e : Env) (w : Nat) : Res :=
  let k := fld w 0 16
  if k = 0 then .ok none else
  let l := e.operand (tLeft w) k
  let a := if onA then [(tARight w, bit w 48, tBankA w)] else []
  let b := if onB && !e.runnel then [(tBRight w, bit w 49, tBankB w)] else []
  e.matrix int k (tLeft w :: (a ++ b).map fun x => x.1)
    ((a ++ b).map fun (r, acc, bank) => { left := l, right := e.operand r k, acc, bank })

/-- BGRAD and BGRADF (R103). -/
def bgrad (frozen : Bool) (e : Env) (w : Nat) : Res :=
  let k := fld w 0 16
  if k = 0 then .ok none
  else if k ≠ 64 then .error 0x0344
  else
    let dy := e.operand (tDy w) 64
    let dx : Product := { left := dy, right := e.operand (tARight w) 64, acc := bit w 48, bank := tBankA w }
    let other := if frozen then tBRight w else tLeft w
    let second : Product :=
      if frozen then { left := dy, right := e.operand other 64, acc := bit w 49, bank := tBankB w }
      else { left := e.operand other 64, right := transpose 64 dy, acc := bit w 49, bank := tBankB w }
    e.matrix false 64 [tDy w, tARight w, other] [dx, second]

/-! ### The commands -/

/-- R99; 10 R252 for the tiles that the weight fetch stage merges. -/
def execTload (load : TileLoad) (s : State) : Host.Outcome State Fault Refusal :=
  live (.tload load) s fun d => d.engine load.core 0x10 1 (tload (d.deltas load.core load.merges))

/-- R100. -/
def execTstore (core : Nat) (s : State) : Host.Outcome State Fault Refusal :=
  live (.tstore core) s fun d => d.engine core 0x11 2 tstore

/-- R100. -/
def execAccld (core : Nat) (s : State) : Host.Outcome State Fault Refusal :=
  live (.accld core) s fun d => d.engine core 0x12 1 accld

/-- R101. -/
def execTrans (core : Nat) (s : State) : Host.Outcome State Fault Refusal :=
  live (.trans core) s fun d => d.engine core 0x13 4 trans

/-- R101. -/
def execSound (core : Nat) (s : State) : Host.Outcome State Fault Refusal :=
  live (.sound core) s fun d => d.engine core 0x14 4 sound

/-- R86, R87: both arrays of a Basin core, the one of a Runnel core. -/
def execMma (core : Nat) (s : State) : Host.Outcome State Fault Refusal :=
  live (.mma core) s fun d => d.engine core 0x20 0 (mma false true true)

/-- The A array only. -/
def execMmaa (core : Nat) (s : State) : Host.Outcome State Fault Refusal :=
  live (.mmaa core) s fun d => d.engine core 0x21 0 (mma false true false)

/-- The B array only. -/
def execMmab (core : Nat) (s : State) : Host.Outcome State Fault Refusal :=
  live (.mmab core) s fun d => d.engine core 0x22 0 (mma false false true)

/-- R103. -/
def execBgrad (core : Nat) (s : State) : Host.Outcome State Fault Refusal :=
  live (.bgrad core) s fun d => d.engine core 0x23 0 (bgrad false)

/-- R103. -/
def execBgradf (core : Nat) (s : State) : Host.Outcome State Fault Refusal :=
  live (.bgradf core) s fun d => d.engine core 0x24 0 (bgrad true)

/-- 03 R76. -/
def execImma (core : Nat) (s : State) : Host.Outcome State Fault Refusal :=
  live (.imma core) s fun d => d.engine core 0x25 0 (mma true true true)

end Sys2Proof.Machine
end

