-- ==== Sys2Proof/Machine/DmaOrders.lean ====
section
/-!
DEFINITION. DMA orders on the system DMA engines (12 R292).
-/
namespace Sys2Proof.Machine

/-- Terrace of the engine that serves a port's host transfers, and those of its functions (14 R320). -/
def engineOf (port : Nat) : Nat := if port = 0 then 0 else 3

/-- A DMA body as its fields. -/
structure DmaBody where
  src : Nat
  dst : Nat
  bytes : Nat
  srcHost : Bool
  dstHost : Bool
deriving DecidableEq, Repr

def dmaFields (b : Bytes) : DmaBody :=
  { src := leAt b 0 8, dst := leAt b 8 8, bytes := leAt b 16 8, srcHost := bit (leAt b 24 1) 0,
    dstHost := bit (leAt b 24 1) 1 }

/-- Some byte of a device range lies outside a context's memory, whatever faults the others have. -/
def Dev.outsideN (d : Dev) (c : Nat) : Nat → Nat → Nat → Bool
  | 0, _, _ => false
  | fuel + 1, va, n =>
    if n = 0 then false else
    match d.translate c va false with
    | .error _ => true
    | .ok (p, room) =>
      let e := d.physCheck ((d.districtOf c).getD 16) p
      e == 0x0320 || e == 0x0327 ||
        (let t := max 1 (min n (min room (chunkBytes - p % chunkBytes))); d.outsideN c fuel (va + t) (n - t))

def Dev.outside (d : Dev) (c va n : Nat) : Bool := d.outsideN c n va n

/-- A DMA order is refused, completes at once, or starts (R292). -/
def Dev.beginDma (d : Dev) (x : Order) : Dev :=
  let b := dmaFields x.body
  let src := srcDma (engineOf (portOf x.id.fn))
  if b.bytes = 0 then d.endOrder x.id 0 src true
  else if (!b.srcHost && d.outside x.ctx b.src b.bytes) || (!b.dstHost && d.outside x.ctx b.dst b.bytes) then
    d.failOrder x.id 0x01C1 src
  else (d.runOrder x.id).modOrder x.id fun y => { y with since := d.time.osc }

/-- How the engine of a DMA order reaches memory. -/
def dmaAcc (x : Order) : Accessor := orderAcc (engineOf (portOf x.id.fn)) x.id

/-- Device pieces that a DMA order reads. -/
def Dev.orderReads (d : Dev) (x : Order) : List (Nat × Nat) :=
  let b := dmaFields x.body
  if b.srcHost then [] else match d.range x.ctx b.src b.bytes false with | .ok l => l | .error _ => []

/-- The transfer of a DMA order: the device, or the fault of the access that fails. -/
def Dev.moveDma (d : Dev) (x : Order) (data : Bytes) : Except Nat Dev :=
  let b := dmaFields x.body
  match (if b.srcHost then .ok ((data ++ zeros (b.bytes - data.length)).take b.bytes, d)
    else d.readCtx (dmaAcc x) x.ctx b.src b.bytes) with
  | .error e => .error e
  | .ok (bs, d) =>
    if b.dstHost then .ok (d.hostWrite (portOf x.id.fn) b.dst bs) else d.writeCtx (dmaAcc x) x.ctx b.dst bs

/-- R292: the order is checked and started; only a resident context has transfers in progress (13 R301). -/
def execDmaOrder (o : OrderId) (s : State) : Host.Outcome State Fault Refusal :=
  live (.dmaOrder o) s fun d =>
    match d.taken o opDma with
    | none => d
    | some x =>
      let c := d.ctx x.ctx
      if c.slot = 0xFF ∨ c.rootLoading = true ∨ c.state = .draining then d
      else ((d.beginDma x).resettle x.ctx).pump

/-- R292: the transfer ends. -/
def execSystemDmaDone (o : OrderId) (got : DmaEnd) (s : State) : Host.Outcome State Fault Refusal :=
  live (.systemDmaDone o got) s fun d =>
    match d.runningOrder o opDma with
    | none => d
    | some x =>
      let src := srcDma (engineOf (portOf x.id.fn))
      let d := d.spoil got.ecc
      let reads := d.orderReads x
      let d := match if linkLost got.ecc reads then .error 0x0322 else d.moveDma x got.data with
        | .ok d => d.doneOrder o src
        | .error e =>
          let bad := (d.badIn reads).filter fun b => eccCode b == e
          let d := d.faultOrder o e src
          match bad with | some b => d.ueAt b | none => d
      ((d.strikes got.ecc).resettle x.ctx).pump

end Sys2Proof.Machine
end

