-- ==== Sys2Proof/Machine/Gates.lean ====
section
/-!
DEFINITION. GATE orders (12 R295, R296, Table 12-5).
-/
namespace Sys2Proof.Machine

/-- The Gates that a GATE order names. -/
def gateRange (b : Bytes) : List Nat := (List.range (leAt b 2 2)).map fun i => leAt b 4 2 + i

/-- A GATE order with its target context: the checks that every operation shares, and COUNT 0 (R10). -/
def Dev.gateOrder (d : Dev) (o : OrderId) (op : Nat) (f : Order → Nat → List Nat → Dev) : Dev :=
  match d.taken o opGate with
  | none => d
  | some x =>
    if leAt x.body 0 1 ≠ op then d else
    let src := d.hgSource x.ctx
    match bodyCtx x (leAt x.body 6 2) with
    | none => d.failOrder o 0x0103 src
    | some c =>
      if (d.districtOf c).isNone then d.failOrder o 0x0161 src
      else if leAt x.body 2 2 = 0 then d.endOrder o 0 src true
      else f x c (gateRange x.body)

/-- PER_TENANT_MAX allows a tenant context n more Gates (R295). -/
def Dev.gateRoom (d : Dev) (c n : Nat) : Bool :=
  decide (1024 ≤ c) || match d.districtOf c with
    | none => false
    | some k => match d.ent? k with
      | none => false
      | some e => decide ((d.gatesOf c).length + n ≤ e.perTenantMax)

/-- ALLOC: the context holds the Gates, each set to 0 with a zero time mark. -/
def execAlloc (o : OrderId) (s : State) : Host.Outcome State Fault Refusal :=
  live (.alloc o) s fun d => d.gateOrder o 1 fun x c gs =>
    let src := d.hgSource x.ctx
    if gs.all (fun g => d.mayHold c g && (d.gate g).holder == noHolder) && d.gateRoom c gs.length then
      (gs.foldl (fun d g => d.putGate g { Gate.init with holder := c }) d).doneOrder o src
    else d.failOrder o 0x01C2 src

/-- FREE: releases the Gates, each set to 0. -/
def execFree (o : OrderId) (s : State) : Host.Outcome State Fault Refusal :=
  live (.free o) s fun d => d.gateOrder o 2 fun x c gs =>
    let src := d.hgSource x.ctx
    if !gs.all (d.holds c) then d.failOrder o 0x01C4 src
    else if gs.any (d.gateBusy o) then d.failOrder o 0x01C3 src
    else (gs.foldl (fun d g => d.freeGate g) d).doneOrder o src

/-- SET: each Gate takes VALUE, as one signal. -/
def execSet (o : OrderId) (s : State) : Host.Outcome State Fault Refusal :=
  live (.set o) s fun d => d.gateOrder o 3 fun x c gs =>
    let src := d.hgSource x.ctx
    if gs.all (d.holds c) then (gs.foldl (fun d g => d.signalTo g (leAt x.body 8 8) src) d).doneOrder o src
    else d.failOrder o 0x01C4 src

/-- ADD: VALUE is added to each Gate, as one signal. -/
def execAdd (o : OrderId) (s : State) : Host.Outcome State Fault Refusal :=
  live (.add o) s fun d => d.gateOrder o 4 fun x c gs =>
    let src := d.hgSource x.ctx
    if gs.all (d.holds c) then (gs.foldl (fun d g => d.signal g (leAt x.body 8 8) src) d).doneOrder o src
    else d.failOrder o 0x01C4 src

end Sys2Proof.Machine
end

