-- ==== Sys2Proof/Machine/OrderBody.lean ====
section
/-!
DEFINITION. The checks of an order that need its bytes alone or the state at its turn (14 R325 to R328): the header,
and the format of the bodies that their chapters lay down.
-/
namespace Sys2Proof.Machine

/-- An opcode of Table 14-4. -/
def opcodeOk (op : Nat) : Bool := [1, 2, 3, 4, 0x10, 0x11, 0x12, 0x20, 0x21, 0x22, 0x23].contains op

/-- An order as it arrives (14 Table 14-3). Its context is resolved: 0xFFFF names the tenant of a virtual function. -/
def parseOrder (id : OrderId) (mark : Nat) (b : Bytes) : Order :=
  let c := leAt b 4 2
  { id, mark, opcode := leAt b 0 1, flags := leAt b 1 1, cond := leAt b 2 1,
    ctx := if c = 0xFFFF ∧ id.fn < 1024 then id.fn else c,
    tag := leAt b 8 4, energyUj := leAt b 12 4, waitGate := leAt b 16 2, sigGate := leAt b 18 2,
    sigValue := leAt b 20 4, waitValue := leAt b 24 8, body := (b.drop 32).take 32 ++ zeros (64 - b.length),
    raw := b, phase := .fetched, checked := false, released := false, status := 0, noop := false, records := false, charged := 0, source := 0,
    fieldsLeft := [], orphan := false, abandoned := 0, dispatched := false, since := 0 }

/-- Check 2: reserved bits and bytes of the header. -/
def headerOk (b : Bytes) : Bool :=
  let fl := leAt b 1 1
  decide (fl < 16) && leAt b 3 1 == 0 && leAt b 6 2 == 0 &&
    (bit fl 0 || (leAt b 16 2 == 0 && leAt b 2 1 == 0)) && (bit fl 1 || leAt b 18 2 == 0)

/-- Check 3: the function may place the opcode (Table 14-4). -/
def mayPlace (fn op : Nat) : Bool := if op = opCache then isPf fn else true

/-- Check 4: CONTEXT valid for the function, and of the kind the opcode asks for (R326, Table 14-4). -/
def ctxNamed (fn op c : Nat) : Bool :=
  (if isPf fn then mayName fn c else c == 0xFFFF) &&
    (if op = opCache then decide (1024 ≤ c ∧ c < 1040)
     else if op ≥ 0x20 then !isPf fn || decide (c < 1024)
     else true)

/-- The DMA body (12 R292). -/
def dmaBody (b : Bytes) : Nat :=
  if leAt b 24 1 < 3 ∧ leAt b 16 8 ≤ 2 ^ 40 ∧ allZero (b.drop 25) then 0 else 0x01C0

/-- The GATE body (12 R296). -/
def gateBody (b : Bytes) : Nat :=
  if 1 ≤ leAt b 0 1 ∧ leAt b 0 1 ≤ 4 ∧ leAt b 1 1 = 0 ∧ allZero (b.drop 16) then 0 else 0x01C5

/-- Bytes of the page that PAGE names (11 Table 11-3). -/
def pageBytes (p : Nat) : Nat := if p = 0 then 4096 else if p = 1 then chunkBytes else gib

/-- A range within those that MAP may name (11 R265). -/
def mapRange (va n : Nat) : Bool :=
  decide (0x020000000000 ≤ va ∧ va + n ≤ 0x100000000000) || decide (0x200000000000 ≤ va ∧ va + n ≤ 0xF00000000000)

/-- The parts of the MEMORY body that its bytes decide (11 R266, R281 test 1). -/
def memoryBody (fn : Nat) (b : Bytes) : Nat :=
  let op := leAt b 0 1
  let page := leAt b 1 1
  let fl := leAt b 2 1
  let va := leAt b 8 8
  let n := leAt b 16 8
  let phys := leAt b 24 8
  let fixed := bit fl 1
  let pg := pageBytes page
  if 1 ≤ op ∧ op ≤ 3 ∧ page ≤ 2 ∧ fl < 4 ∧ leAt b 3 1 = 0 ∧ leAt b 6 2 = 0 ∧ va % pg = 0 ∧ n % pg = 0
      ∧ phys % pg = 0 ∧ (fixed = true → isPf fn = true ∧ op = 1 ∧ va = phys) ∧ (fixed = false → phys = 0)
      ∧ (op = 1 → fixed = false → mapRange va n = true) then 0 else 0x0150

/-- The CACHE body (11 R276); the code of a malformed one is a DESIGN CHOICE (log entry 22). -/
def cacheBody (b : Bytes) : Nat :=
  let op := leAt b 0 1
  if 1 ≤ op ∧ op ≤ 5 ∧ leAt b 1 3 = 0 ∧ allZero (b.drop 16) ∧ (op = 1 → leAt b 4 4 = 0) ∧ (op ≠ 1 → leAt b 8 8 = 0)
  then 0 else 0x0154

/-- The RUN body (14 R327); the code of a malformed one, its zero FIELD_MASK apart, is a DESIGN CHOICE (log entry
22). -/
def runBody (b : Bytes) : Nat :=
  if leAt b 8 2 = 0 then 0x0101
  else if leAt b 0 8 % 4096 = 0 ∧ allZero (b.drop 10) then 0 else 0x01B0

/-- The district of a context is a TRAIN district. -/
def Dev.trainCtx (d : Dev) (c : Nat) : Bool := match d.districtOf c with | some k => d.isTrain k | none => false

/-- Bits set in a 16-bit mask. -/
def popcount16 (m : Nat) : Nat := (bitsOf m 16).length

/-- The TRAIN_STEP body (05 R117): the district, the zeros that are not allowed, then the shape. -/
def Dev.trainCode (d : Dev) (c : Nat) (b : Bytes) : Nat :=
  let mask := leAt b 8 2
  let tokens := leAt b 12 4
  if !d.trainCtx c then 0x01A6
  else if mask = 0 ∨ tokens = 0 then 0x0101
  else if tokens % (64 * popcount16 mask) ≠ 0 then 0x01A5
  else 0

/-- A MEMORY body as its fields (11 Table 11-3). -/
structure MemBody where
  page : Nat
  write : Bool
  fixed : Bool
  va : Nat
  bytes : Nat
deriving DecidableEq, Repr

def memFields (b : Bytes) : MemBody :=
  { page := pageBytes (leAt b 1 1), write := bit (leAt b 2 1) 0, fixed := bit (leAt b 2 1) 1, va := leAt b 8 8,
    bytes := leAt b 16 8 }

/-- A range touches a fixed mapping of R265. -/
def Dev.touchesFixed (d : Dev) (c k va n : Nat) : Bool :=
  (d.fixedMaps k).any (fun f => overlap va n f.1.1 f.1.2) ||
    (c == 1024 + k && d.isServe k && overlap va n (d.parcelPool k).1 (d.parcelPool k).2)

/-- A range lies wholly in the general pool. -/
def Dev.inPool (d : Dev) (k a n : Nat) : Bool := (d.dist k).pool.any fun r => decide (r.1 ≤ a ∧ a + n ≤ r.1 + r.2)

/-- The district-bound part of test 1 of R281. -/
def Dev.memTest1 (d : Dev) (op c k : Nat) (m : MemBody) : Bool :=
  if op = 1 then !m.fixed || d.inPool k m.va m.bytes
  else (mapRange m.va m.bytes || decide (m.va + m.bytes ≤ sinkBase)) && !d.touchesFixed c k m.va m.bytes

/-- The target context of a MEMORY order and its district. -/
def Dev.memTarget (d : Dev) (o : Order) : Option (Nat × Nat) :=
  match bodyCtx o (leAt o.body 4 2) with
  | none => none
  | some c => (d.districtOf c).map fun k => (c, k)

/-- Tests 1 and 2 of R281: the format, the pool and the fixed mappings of the target's district, then the named context. A
context without a district has no pool and no fixed mapping to test. -/
def Dev.memCode (d : Dev) (o : Order) : Nat :=
  let m := memFields o.body
  if memoryBody o.id.fn o.body ≠ 0 then 0x0150
  else match bodyCtx o (leAt o.body 4 2) with
    | none => 0x0103
    | some c => match d.districtOf c with
      | none => 0x0161
      | some k => if m.bytes ≠ 0 ∧ d.memTest1 (leAt o.body 0 1) c k m = false then 0x0150 else 0

/-- The CONFLUENCE body (08 R209, Table 08-6). -/
def Dev.cflBody (d : Dev) (o : Order) : Nat :=
  if d.trainCtx o.ctx = false then 0x0195
  else if leAt o.body 0 8 % 64 ≠ 0 then 0x0194
  else if allZero (o.body.drop 8) then 0 else 0x0190

/-- The GATE body: its format, then the named context (12 R296, R326). -/
def Dev.gateCode (d : Dev) (o : Order) : Nat :=
  if gateBody o.body ≠ 0 then gateBody o.body
  else match bodyCtx o (leAt o.body 6 2) with
    | none => 0x0103
    | some c => if (d.districtOf c).isNone then 0x0161 else 0

/-- Check 8 as far as the body and the state at the order's turn decide it. What needs a descriptor, a program or a package
in memory is tested by the order's handler, which receives the order when it is dispatched (04 R105, 09 R221, 10 R249; log
entry 123). -/
def Dev.bodyCode (d : Dev) (o : Order) : Nat :=
  let op := o.opcode
  let b := o.body
  if op = opDma then dmaBody b
  else if op = opGate then d.gateCode o
  else if op = opMemory then d.memCode o
  else if op = opCache then cacheBody b
  else if op = opRun then runBody b
  else if op = opTrain then d.trainCode o.ctx b
  else if op = opConfluence then d.cflBody o
  else 0

/-- The checks of Table 14-5 in their order: the first code that applies, or 0. -/
def Dev.orderCode (d : Dev) (o : Order) (b : Bytes) : Nat :=
  let op := o.opcode
  let c := o.ctx
  let x := d.ctx c
  if !opcodeOk op then 0x0100
  else if !headerOk b then 0x0102
  else if !mayPlace o.id.fn op then 0x0104
  else if !ctxNamed o.id.fn op (leAt b 4 2) then 0x0103
  else if op ≠ opRequest ∧ (x.state = .teardown ∨ x.state = .faulted) then 0x0160
  else if op ≠ opRequest ∧ (d.districtOf c).isNone then 0x0161
  else
    let st := match d.districtOf c with | some k => (d.dist k).state | none => .absent
    if op ≠ opRequest ∧ (st = .draining ∨ st = .applying) then 0x018C
    else if op ≠ opRequest ∧ st = .inert then 0x018D
    else if bit o.flags 0 && !condOk o.cond then 0x01C5
    else if (bit o.flags 0 && !d.holds c o.waitGate) || (bit o.flags 1 && !d.holds c o.sigGate) then 0x01C4
    else if op = opRun ∧ d.trainCtx c = false then 0x0105
    else d.bodyCode o

end Sys2Proof.Machine
end

