-- ==== Sys2Proof/Machine/HostIf.lean ====
section
/-!
DEFINITION. Rings, doorbells, the fetch, dispatch and completion of orders, and error rings (14 R323 to R335, R340).
-/
namespace Sys2Proof.Machine

/-- Entries of a ring pair's Headrace and Tailrace. -/
def Dev.hrEntries (d : Dev) (fn pair : Nat) : Nat := 2 ^ d.reg .hifHrLog2 (ringKey fn pair)
def Dev.trEntries (d : Dev) (fn pair : Nat) : Nat := 2 ^ d.reg .hifTrLog2 (ringKey fn pair)

/-- The context of a function's own records: its tenant, or none. -/
def fnCtx (fn : Nat) : Nat := if fn < 1024 then fn else 0xFFFF

/-- An error record of a violation by the host on a function (Table 14-12). -/
def Dev.violation (d : Dev) (fn code : Nat) : Dev := d.raise (srcRing (portOf fn)) (fnCtx fn) code 0 []

/-- End the orders of a ring that satisfy p, with their waits; a TRAIN_STEP order that was held leaves the ledger. -/
def Dev.endRing (d : Dev) (fn pair status : Nat) (p : Order → Bool) : Dev :=
  let d := ((d.ringOrders fn pair).filter p).foldl (fun d o =>
    (d.endWait (.order o.id)).endOrder o.id status (srcRing (portOf fn)) false) d
  d.setSteps (d.steps.filter fun x => x.started || match d.order? x.o with
    | some y => y.phase == .held
    | none => false)

/-- The ring enters ERROR: fetching stops, and fetched undispatched orders complete with 0x0200 (R332). -/
def Dev.ringError (d : Dev) (fn pair code : Nat) : Dev :=
  (d.modRing fn pair fun r => { r with state := .error, code }).endRing fn pair 0x0200 fun o => o.phase == .fetched

/-- A ring that takes doorbells. -/
def Ring.rung (r : Ring) : Bool := match r.state with
  | .disabled => false | .resetting => false | .active => true | .draining => true | .error => true

/-- R324: HR_TAIL more than the entry count ahead of the fetched count puts the ring in ERROR (R340). -/
def execHrTail (fn pair : Nat) (value : Word) (s : State) : Host.Outcome State Fault Refusal :=
  hosted fn (.hrTail fn pair value) s fun d =>
    let r := d.ring fn pair
    let v := value.toNat
    if !r.rung then d.violation fn 0x0402
    else if r.state = .active ∧ w32 (v + 2 ^ 32 - r.fetched) > d.hrEntries fn pair then d.ringError fn pair 0x0403
    else d.modRing fn pair fun r => { r with hrTail := v }

/-- R324: TR_HEAD ahead of the records written puts the ring in ERROR (R340). -/
def execTrHead (fn pair : Nat) (value : Word) (s : State) : Host.Outcome State Fault Refusal :=
  hosted fn (.trHead fn pair value) s fun d =>
    let r := d.ring fn pair
    let v := value.toNat
    if !r.rung then d.violation fn 0x0402
    else if r.state = .active ∧ w32 (v + 2 ^ 32 - r.trHead) > w32 (r.written + 2 ^ 32 - r.trHead) then
      d.ringError fn pair 0x0403
    else d.modRing fn pair fun r => { r with trHead := v }

/-- Table 14-12, 0x0402: a doorbell write that is malformed, or that the ring does not take, is discarded. -/
def execPcieDoorbell (fn page off len : Nat) (s : State) : Host.Outcome State Fault Refusal :=
  hosted fn (.pcieDoorbell fn page off len) s fun d => d.violation fn 0x0402

/-- Orders fetched and not completed. -/
def Dev.ringLive (d : Dev) (fn pair : Nat) : Nat := (d.ringOrders fn pair).length

/-- Orders of a ring reach their turn: the front one is checked (R328), and then its wait starts; one that fails ends,
and the next has its turn (R329). -/
def Dev.turns (d : Dev) (fn pair : Nat) : Nat → Dev
  | 0 => d
  | n + 1 =>
    match d.front fn pair with
    | none => d
    | some o =>
      if o.checked then d else
      let code := d.orderCode o o.raw
      if code ≠ 0 then (d.failOrder o.id code (srcRing (portOf fn))).turns fn pair n
      else
        let d := (d.modOrder o.id fun x => { x with checked := true }).estimate o.ctx o.energyUj
        let d := if bit o.flags 0 then d.startWait (.order o.id) o.ctx o.waitGate o.cond o.waitValue else d
        d.resettle o.ctx

def Dev.startTurn (d : Dev) (fn pair : Nat) : Dev := d.turns fn pair (d.orders.length + 1)

/-- The device may fetch the next order (R324): none before READY (16 R378), and none while it is frozen (17 R396). -/
def Dev.mayFetch (d : Dev) (fn pair : Nat) : Bool :=
  let r := d.ring fn pair
  let ahead := w32 (r.hrTail + 2 ^ 32 - r.fetched)
  decide (d.ready = true ∧ r.state = .active ∧ 0 < ahead ∧ ahead ≤ d.hrEntries fn pair ∧
    d.ringLive fn pair + w32 (r.written + 2 ^ 32 - r.trHead) < d.trEntries fn pair)

/-- The host address of order k of a ring (R324). -/
def Dev.orderAddr (d : Dev) (fn pair k : Nat) : Nat :=
  64 * d.reg .hifHrBase (ringKey fn pair) + 64 * (k % d.hrEntries fn pair)

/-- R324, R328: the order is fetched with its time mark; one that reaches its turn is checked. -/
def execOrderFetch (fn pair : Nat) (bytes : Bytes) (s : State) : Host.Outcome State Fault Refusal :=
  live (.orderFetch fn pair bytes) s fun d =>
    if !d.mayFetch fn pair then d else
    let (m, d) := d.mark (srcRing (portOf fn))
    let k := (d.ring fn pair).fetched
    let d := d.emit (.hostRead (portOf fn) (d.orderAddr fn pair k) 64)
    let o := parseOrder ⟨fn, pair, (d.ring fn pair).base + k⟩ m bytes
    let d := d.modRing fn pair fun r => { r with fetched := w32 (r.fetched + 1) }
    (d.setOrders (d.orders ++ [o])).startTurn fn pair

/-- Orders of a context may start: it is resident and its translation root is loaded (13 R301). A context without a
district, or one torn down, starts only what Intake refuses. -/
def Dev.mayStart (d : Dev) (c : Nat) : Bool :=
  let x := d.ctx c
  match x.state with
  | .absent => true
  | .teardown => true
  | .faulted => true
  | _ => x.slot != 0xFF && !x.rootLoading

/-- The code with which Intake and the Headgates refuse an order of a district that has begun to drain, or has become
inert, since the order was checked (02 R53, R47); 0 for none. Intake judges a REQUEST itself. -/
def Dev.drainCode (d : Dev) (o : Order) : Nat :=
  match d.districtOf o.ctx with
  | none => 0
  | some k =>
    if o.opcode = opRequest then 0 else
    match (d.dist k).state with
    | .draining => 0x018C | .applying => 0x018C | .inert => 0x018D | .active => 0 | .absent => 0

/-- R329: the front order of the ring goes to its handler once nothing holds it. -/
def execOrderDispatch (fn pair : Nat) (s : State) : Host.Outcome State Fault Refusal :=
  live (.orderDispatch fn pair) s fun d =>
    match d.front fn pair with
    | none => d
    | some o =>
      if d.hgUp o.ctx && o.checked && d.waitOver o && d.fenceOver o && d.mayStart o.ctx then
        let d := (d.endWait (.order o.id)).modOrder o.id fun x => { x with phase := .dispatched, dispatched := true }
        let code := d.drainCode o
        let d := if code ≠ 0 then d.failOrder o.id code (d.hgSource o.ctx) else d
        (d.startTurn fn pair).resettle o.ctx
      else d

/-- A Tailrace vector fires, or its fire is deferred to the end of the holdoff (R335). -/
def Dev.ringFire (d : Dev) (fn pair : Nat) : Dev :=
  let q := ringKey fn pair
  let due := match (d.ring fn pair).lastFire with
    | none => true
    | some t => decide (d.time.osc ≥ t + 1000 * d.reg .hifHoldoff q)
  if due then
    (d.modRing fn pair fun r => { r with lastFire := some d.time.osc, deferred := false }).fire fn (d.reg .hifVector q)
  else d.modRing fn pair fun r => { r with deferred := true }

/-- The 32 bytes of a completion record (Table 14-6). -/
def completion (o : Order) (phase signalled : Bool) (doneMark : Nat) : Bytes :=
  le 4 o.tag ++ le 2 o.status ++ le 1 (b2n phase + 2 * b2n o.noop + 4 * b2n o.records + 8 * b2n signalled) ++
    le 1 o.opcode ++ le 8 o.mark ++ le 8 doneMark ++ le 4 (sat32 o.charged) ++ le 2 o.source ++ le 2 o.id.k

/-- A draining ring whose last completion record is written is disabled (R332). -/
def Dev.ringDrained (d : Dev) (fn pair : Nat) : Dev :=
  if (d.ring fn pair).state = .draining ∧ d.ringLive fn pair = 0 then
    d.modRing fn pair fun r => { r with state := .disabled }
  else d

/-- The completion of an ended order (R330, R331, R335). -/
def Dev.complete (d : Dev) (o : Order) : Dev :=
  let fn := o.id.fn
  let pair := o.id.pair
  let sig := bit o.flags 1 && signals o.status
  let done := d.nextMark o.source
  let d := if sig then d.signal o.sigGate o.sigValue o.source else d.issue o.source done
  let d := d.setOrders (d.orders.filter fun x => x.id != o.id)
  let d := if o.orphan then d else
    let q := ringKey fn pair
    let j := (d.ring fn pair).written
    let n := d.trEntries fn pair
    let d := d.hostWrite (portOf fn) (64 * d.reg .hifTrBase q + 32 * (j % n)) (completion o (phaseOf j n) sig done)
    let d := d.modRing fn pair fun r => { r with written := w32 (r.written + 1) }
    if bit o.flags 3 ∨ d.reg .hifIrqAll q = 1 then d.ringFire fn pair else d
  ((d.ringDrained fn pair).startTurn fn pair).resettle o.ctx

/-- R330: an order that its handler has ended completes. -/
def execOrderComplete (o : OrderId) (s : State) : Host.Outcome State Fault Refusal :=
  live (.orderComplete o) s fun d =>
    match d.order? o with
    | none => d
    | some x => if x.phase = .ended then (d.complete x).drainCheck else d

/-- R335: the deferred fire. -/
def execHoldoffExpiry (fn pair at_ : Nat) (s : State) : Host.Outcome State Fault Refusal :=
  live (.holdoffExpiry fn pair at_) s fun d =>
    let d := d.advance at_
    let r := d.ring fn pair
    let expired := match r.lastFire with
      | none => false
      | some t => decide (d.time.osc ≥ t + 1000 * d.reg .hifHoldoff (ringKey fn pair))
    if r.deferred && expired then d.ringFire fn pair else d

/-- R332: orders fetched and not dispatched, and TRAIN_STEP orders held, complete with 0x0202. -/
def Dev.abortRing (d : Dev) (fn pair : Nat) : Dev :=
  d.endRing fn pair 0x0202 fun o => o.phase == .fetched || o.phase == .held

/-- A Tailrace vector of a function (Table 14-8). -/
def vectorOk (fn v : Nat) : Bool := if isPf fn then decide (32 ≤ v ∧ v < 2048) else decide (3 ≤ v ∧ v < 64)

/-- The base of order names when a ring starts: 0, or past every order that a reset has left behind. -/
def Dev.orphanBase (d : Dev) (fn pair : Nat) : Nat :=
  (d.orders.filter fun x => x.id.fn == fn && x.id.pair == pair).foldl
    (fun b x => max b ((x.id.k / 2 ^ 32 + 1) * 2 ^ 32)) 0

/-- A write of HIF_RING_CTL (R323, R332, R335, Table 14-15). -/
def Dev.writeRingCtl (d : Dev) (fn pair ctl : Nat) : Dev :=
  let q := ringKey fn pair
  let d := (d.putReg .hifIrqAll q (fld ctl 29 1)).putReg .hifHoldoff q (fld ctl 0 16)
  let d := if vectorOk fn (fld ctl 16 11) then d.putReg .hifVector q (fld ctl 16 11) else d
  let d := if bit ctl 30 then d.abortRing fn pair else d
  match (d.ring fn pair).state with
  | .disabled =>
    if bit ctl 31 then
      d.modRing fn pair fun r => 
        { Ring.init with state := .active, code := r.code, base := d.orphanBase fn pair, lastFire := r.lastFire }
    else d
  | .active =>
    if bit ctl 31 then d
    else ((d.abortRing fn pair).modRing fn pair fun r => { r with state := .draining }).ringDrained fn pair
  | .error =>
    if bit ctl 31 then d
    else ((d.abortRing fn pair).modRing fn pair fun r => { r with state := .draining }).ringDrained fn pair
  | .draining => d
  | .resetting => d

/-- R323: the ring pair starts with its counts and doorbells at 0; while it drains or resets, ENABLE is ignored. -/
def execRingEnable (fn pair : Nat) (ctl : Word) (s : State) : Host.Outcome State Fault Refusal :=
  hosted fn (.ringEnable fn pair ctl) s fun d => d.writeRingCtl fn pair ctl.toNat

/-- R332: as ABORT, and fetching stops; DRAINING until the last completion record is written. -/
def execRingDisable (fn pair : Nat) (ctl : Word) (s : State) : Host.Outcome State Fault Refusal :=
  hosted fn (.ringDisable fn pair ctl) s fun d => d.writeRingCtl fn pair ctl.toNat

/-- R332: ABORT. -/
def execAbort (fn pair : Nat) (ctl : Word) (s : State) : Host.Outcome State Fault Refusal :=
  hosted fn (.abort fn pair ctl) s fun d => d.writeRingCtl fn pair ctl.toNat

/-- A write of HIF_ERR_SIZE (R333, R342): LOG2 only while ENABLE is 0 and in its range; setting ENABLE starts the ring. -/
def Dev.writeErrSize (d : Dev) (fn v : Nat) : Dev :=
  if d.reg .hifErrEnable fn = 1 then d.putReg .hifErrEnable fn (fld v 8 1)
  else
    let d := if 4 ≤ fld v 0 5 ∧ fld v 0 5 ≤ 16 then d.putReg .hifErrLog2 fn (fld v 0 5) else d
    if bit v 8 then ((d.putReg .hifErrEnable fn 1).putReg .hifErrTail fn 0).putErr fn ErrRing.init else d

/-- R333: the error ring is configured and enabled by one write of HIF_ERR_SIZE. -/
def execErrorRingEnable (fn : Nat) (value : Word) (s : State) : Host.Outcome State Fault Refusal :=
  hosted fn (.errorRingEnable fn value) s fun d => d.writeErrSize fn value.toNat

end Sys2Proof.Machine
end

