-- ==== Sys2Proof/Machine/FnReset.lean ====
section
/-!
DEFINITION. Resets of functions and ports (14 R322) and the commands of SCH_CMD (13 R315, R316, R319).
-/
namespace Sys2Proof.Machine

/-- Ring pairs of a function. -/
def pairsOf (fn : Nat) : Nat := if isPf fn then 64 else 8

/-- A function's rings and error ring stand in a state, and no record of it is written any more. -/
def Dev.stopRings (d : Dev) (fn : Nat) (st : RingState) : Dev :=
  let d := (List.range (pairsOf fn)).foldl (fun d p => d.putRing fn p { Ring.init with state := st }) d
  let d := d.setOrders (d.orders.map fun o => if o.id.fn = fn then { o with orphan := true } else o)
  d.putReg .hifErrEnable fn 0

/-- The rings of a virtual function whose reset has ended are disabled. -/
def Dev.flrEnd (d : Dev) (fn : Nat) : Dev :=
  (List.range (pairsOf fn)).foldl (fun d p =>
    if (d.ring fn p).state = .resetting then d.putRing fn p Ring.init else d) d

/-- A reset of a sender discards its FULL message without acknowledgement (14 R339). -/
def Dev.dropSent (d : Dev) (who : Nat) : Dev :=
  (d.sluices.filter fun q => q.2.full && q.2.bound who).foldl (fun d q => d.putSluice q.1 { q.2 with full := false }) d

/-- A function's MSI-X table takes its reset values (14 R322). -/
def Dev.resetMsix (d : Dev) (fn : Nat) : Dev := d.setMsix (d.msix.filter fun q => q.1 / 2048 != fn)

/-- Function-level reset of a virtual function: its context is torn down, or leaves FAULTED (R322, 13 R316). -/
def Dev.resetVf (d : Dev) (t : Nat) : Dev :=
  let d := (d.dropSent t).resetMsix t
  match (d.ctx t).state with
  | .absent => d.stopRings t .disabled
  | .faulted => (d.stopRings t .disabled).resetCtx t
  | .teardown => (d.stopRings t .resetting).modCtx t fun x => { x with
      afterTeardown := match x.afterTeardown with | .faulted => .idle | z => z, flrWaiting := true
      unfault := x.unfault || x.afterTeardown == .faulted }
  | _ => ((d.stopRings t .resetting).teardown t 0 none .idle).modCtx t fun x => { x with flrWaiting := true }

/-- Function-level reset of a physical function: orders not dispatched are dropped, and its staged image goes (R322). A STAGE
that is still VERIFYING runs on (DESIGN CHOICE, log entry 125). -/
def Dev.resetPf (d : Dev) (port : Nat) : Dev :=
  let fn := pf port
  let d := (d.dropSent (masterOf fn)).resetMsix fn
  let gone := d.orders.filter fun o => o.id.fn == fn && o.phase == .fetched
  let d := gone.foldl (fun d o => d.endWait (.order o.id)) d
  let d := d.setOrders (d.orders.filter fun o => !(o.id.fn == fn && o.phase == .fetched))
  let d := d.stopRings fn .disabled
  let d := match d.survey.staged with
    | some (owner, _) => if owner = fn then d.setSurvey { d.survey with
        staged := none, state := match d.survey.state with | .staged => .idle | z => z } else d
    | none => d
  gone.foldl (fun d o => d.resettle o.ctx) d

/-- Tenants of a port. -/
def tenantsOf (port : Nat) : List Nat := (List.range 512).map (512 * port + ·)

/-- Every virtual function of a port is reset. -/
def Dev.resetVfs (d : Dev) (port : Nat) : Dev := (tenantsOf port).foldl Dev.resetVf d

/-- Every function of a port is reset. -/
def Dev.resetPort (d : Dev) (port : Nat) : Dev := (d.resetVfs port).resetPf port

/-! ### SCH_CMD (13 R319) -/

/-- A command of SCH_CMD ends with a code. -/
def Dev.schEnd (d : Dev) (port code : Nat) : Dev :=
  (d.setSched { d.sched with cmdCode := d.sched.cmdCode.set port code }).mgmtDone (pf port) .schCmdDone port

/-- The context that a physical function's command may act on. -/
def schMayName (port c : Nat) : Bool := decide (c < 1040) && (decide (1024 ≤ c) || portOf c == port)

/-- RESET_CONTEXT. -/
def Dev.schReset (d : Dev) (port c : Nat) : Dev :=
  if !schMayName port c ∨ (nth none d.sched.cmdRunning port).isSome = true ∨ (d.ctx c).state ≠ .faulted then
    d.schEnd port 0x0162
  else (d.resetCtx c).schEnd port 0

/-- TEARDOWN: of a context without one to tear down it ends at once (R319); else it ends with the teardown. -/
def Dev.schTeardown (d : Dev) (port c : Nat) : Dev :=
  if !schMayName port c ∨ 1024 ≤ c ∨ (nth none d.sched.cmdRunning port).isSome = true then d.schEnd port 0x0162
  else match (d.ctx c).state with
    | .absent => d.schEnd port 0
    | .faulted => d.schEnd port 0
    | _ =>
      let d := (d.teardown c 0 none .idle).modCtx c fun x => { x with cmdWaiting := x.cmdWaiting ++ [port] }
      d.setSched { d.sched with cmdRunning := d.sched.cmdRunning.set port (some c) }

/-- The end of a teardown: the context leaves it, and whoever waited for it goes on. -/
def Dev.endTeardown (d : Dev) (c : Nat) : Dev :=
  let x := d.ctx c
  let d := d.teardownDone c
  let d := if x.flrWaiting then d.flrEnd c else d
  x.cmdWaiting.foldl (fun d port =>
    (d.setSched { d.sched with cmdRunning := d.sched.cmdRunning.set port none }).schEnd port 0) d

end Sys2Proof.Machine
end

