-- ==== Sys2Proof/Machine/Sched.lean ====
section
/-!
DEFINITION. Stops, saves and clears of cores, power and points of fields, quanta, drain windows, the rotation table and
teardowns (04 R93, R108, R110 to R112, 13 R301, R306 to R316).
-/
namespace Sys2Proof.Machine

/-! ### Cores -/

/-- 04 R110: an instance that has run longer than its limit faults. -/
def execCycleLimit (core at_ : Nat) (s : State) : Host.Outcome State Fault Refusal :=
  live (.cycleLimit core at_) s fun d =>
    let d := (d.advance at_).account core
    match (d.core core).inst with
    | none => d
    | some y =>
      let limit := match d.prog y.field y.slot with | some p => p.cycleLimit * 65536 | none => 0
      if y.ran > limit then (d.faultCore core 0x0346).pump else d

/-- Causes that end a program: they stop only the instances of one that is ending. -/
def StopCause.ends : StopCause → Bool
  | .fence => true | .teardown => true | .drainLimit => true | .programEnd => true
  | .selfTest => false | .realTime => false | .lending => false | .eviction => false | .sharePreempt => false

/-- R93, 13 R310: a stop request reaches a core. -/
def execStopRequest (core : Nat) (cause : StopCause) (s : State) : Host.Outcome State Fault Refusal :=
  live (.stopRequest core cause) s fun d =>
    match (d.core core).inst with
    | none => d
    | some y =>
      let ending := match d.prog y.field y.slot with | some p => p.ending.isSome | none => false
      if StopCause.ends cause && !ending then d else d.stopCore core cause

/-- What the instance of a core has in flight at a stop: the instructions that stay inside, and the reports of those that
complete (R93). -/
def Dev.cutFlights (d : Dev) (i : Nat) (y : Inst) : List Flight → Dev × List Flight
  | [] => (d, [])
  | x :: l =>
    let (d, o) := d.cutFlight i x l
    let d := match o, x.report, d.prog y.field y.slot with
      | none, some r, some p => d.sendReport i p.district r
      | _, _, _ => d
    let (d, r) := d.cutFlights i y l
    (d, o.toList ++ r)

/-- A core is at a tile boundary with a stop request: what it has issued completes, or stops inside; the core joins the
pool that lending moves it to; its instance is discarded where its program ends, and is suspended once its transfers are
over (R93, R110, R114, 13 R307, R310). -/
def Dev.boundaryStop (d : Dev) (i : Nat) : Dev :=
  let x := d.core i
  match x.inst, x.stop with
  | some y, some cause =>
    if x.stopped then d else
    let (d, l) := d.cutFlights i y y.flight
    let d := d.modInst i fun y => { y with flight := l }
    if StopCause.ends cause || d.ends y.field y.slot then d.dropInst i .idle
    else ((d.joinPool i).modCore i fun x => { x with stopped := true }).trySuspend i
  | _, _ => d

/-- R93. -/
def execTileBoundaryStop (core : Nat) (s : State) : Host.Outcome State Fault Refusal :=
  live (.tileBoundaryStop core) s fun d =>
    match (d.core core).inst with
    | none => d
    | some y => ((d.boundaryStop core).resettle y.ctx).pump

/-- 13 R309: a save record is written. -/
def execInstanceSaveDone (core : Nat) (s : State) : Host.Outcome State Fault Refusal :=
  live (.instanceSaveDone core) s fun d =>
    if (d.core core).saving then (d.saveDone core).pump else d

/-- 04 R111: a clear ends. -/
def execCoreClearDone (core : Nat) (s : State) : Host.Outcome State Fault Refusal :=
  live (.coreClearDone core) s fun d =>
    if (d.core core).toClear then (((d.account core).clearCore core).prepare core).pump else d

/-- The program of a restore faults with 0x0322 at a location of the record (13 R309, 11 R263). -/
def Dev.recordUe (d : Dev) (y : Inst) (addr : Nat) : Dev := (d.faultProg y.field y.slot 0x0322).ueAt addr

/-- The location in the record of an instance whose error no code corrects. -/
def Dev.recordBad (d : Dev) (y : Inst) : Option Nat :=
  match d.saves.find? fun r => r.inst.waiter == y.waiter with
  | none => none
  | some r => d.badIn [d.recRange r]

/-- 13 R309: a restore ends; an uncorrectable error in the record faults the context with 0x0322. -/
def execInstanceRestoreDone (core : Nat) (ecc : List EccStrike) (s : State) : Host.Outcome State Fault Refusal :=
  live (.instanceRestoreDone core ecc) s fun d =>
    let x := d.core core
    match x.restoring with
    | none => d
    | some y =>
      if x.saving || x.toClear then d else
      let d := d.spoil ecc
      let d := match d.recordBad y, lostAt ecc with
        | some b, _ => d.recordUe y b
        | none, some a => d.recordUe y a
        | none, none => d.restoreDone core
      ((d.resettle y.ctx).strikes ecc).pump

/-! ### Fields -/

/-- 04 R112: a field without programs and without a suspended instance loses its power. -/
def execFldPgDelay (f at_ : Nat) (s : State) : Host.Outcome State Fault Refusal :=
  live (.fldPgDelay f at_) s fun d =>
    let d := d.advance at_
    let x := d.field f
    let held := (coresIn f).any fun i => (d.core i).held.isSome
    if x.state = .gated ∧ x.progs.isEmpty = true ∧ x.queue.isEmpty = true ∧ held = false ∧
        d.time.osc ≥ x.idleSince + 1000 * d.reg .fldPgDelay 0 then d.powerOff f .off
    else d

/-- 04 R112: a field has woken. -/
def execFieldWake (f : Nat) (s : State) : Host.Outcome State Fault Refusal :=
  live (.fieldWake f) s fun d =>
    if (d.field f).state = .waking then
      let d := d.modField f fun x => { x with state := if x.progs.isEmpty then .gated else .active, idleSince := d.time.osc }
      ((coresIn f).foldl (fun d i => d.modCore i fun x =>
        { x with state := match x.state with | .off => .idle | z => z }) d).pump
    else d

/-- 04 R108: the hold for a change of operating point ends. -/
def execOperatingPointChange (f : Nat) (s : State) : Host.Outcome State Fault Refusal :=
  live (.operatingPointChange f) s fun d =>
    match (d.field f).opChange with
    | none => d
    | some q =>
      let d := d.accountField f
      ((d.modField f fun x => { x with opPoint := q, opChange := none }).retune f).pump

/-! ### Quanta (13 R306, R311) -/

/-- The quantum in nanoseconds. -/
def Dev.quantum (d : Dev) : Nat := 1000 * d.reg .schQuantum 0

/-- Cores of a field whose instance the FRUN of a context may pre-empt: the largest V first, then the highest core
position (R306). -/
def Dev.preemptable (d : Dev) (f : Nat) (runnel : Bool) (pool : Pool) (c : Nat) : List Nat :=
  let v (i : Nat) : Nat := match (d.core i).inst with | some y => d.vNow y.ctx | none => 0
  let l := (coresIn f).reverse.filter fun i =>
    let x := d.core i
    isRunnel i == runnel && x.pool == pool && x.stop.isNone && match x.inst with
      | some y => y.ctx != c && decide (y.resumedAt + d.quantum ≤ d.eff) && decide (d.vNow y.ctx > d.vNow c)
      | none => false
  (sortBy v l.reverse).reverse

/-- A core that a stop request frees for a context's FRUN in a pool: one that eviction or a share pre-emption stops, and
that neither leaves the pool nor is kept by the rotation table; or one whose program ends (R306). -/
def Dev.comesTo (d : Dev) (i : Nat) (pool : Pool) (c : Nat) : Bool :=
  let x := d.core i
  x.pool == pool && x.toPool.isNone && x.inst.isSome && d.usable i && !d.rtHolds (i / 16) c && match x.stop with
    | some .eviction => true
    | some .sharePreempt => true
    | some .programEnd => true
    | some .teardown => true
    | _ => false

/-- Pre-empt for the FRUN that waits in a slot (R306). -/
def Dev.quantumSlot (d : Dev) (f s : Nat) : Dev :=
  match d.prog f s with
  | none => d
  | some p => match p.wait with
    | .frun img => match p.imgs[img]? with
      | none => d
      | some m =>
        let live := ((d.instsOf f s).filter fun y => match p.imgs[y.image]? with
          | some z => z.runnel == m.runnel | none => false).length
        let coming := (coresIn f).filter fun i => isRunnel i == m.runnel && d.comesTo i p.pool p.ctx
        let have_ := (d.idleCores f m.runnel p.pool p.ctx).length + coming.length
        if live + m.countMin ≤ (d.usableOf f m.runnel).length ∧ have_ < m.countMin then
          ((d.preemptable f m.runnel p.pool p.ctx).take (m.countMin - have_)).foldl (fun d i => d.stopCore i .sharePreempt) d
        else d
    | _ => d

/-- The field steward of a field looks at its waiting FRUNs, the lowest V first. -/
def Dev.quantumField (d : Dev) (f : Nat) : Dev :=
  (sortBy (fun q => d.vNow q.2.ctx) (d.field f).progs).foldl (fun d q => d.quantumSlot f q.1) d

/-- The eviction that a waiting context causes at a quantum boundary (R311). -/
def Dev.quantumEvict (d : Dev) (x : Nat) : Dev :=
  if d.slotFor.isSome ∨ (d.ctx x).waitingSince + d.quantum > d.eff ∨ d.draining ≥ d.swappedReady.length then d else
  let l := (d.residents.map Prod.snd).filter fun c =>
    (match (d.ctx c).state with | .runnable => true | .blocked => true | _ => false) &&
      decide (d.vNow c > d.vNow x) && decide ((d.ctx c).residentSince + d.quantum ≤ d.eff)
  match (sortBy d.vNow l).reverse with
  | [] => d
  | c :: _ => d.evict c

/-- 13 R306, R311: a quantum boundary. -/
def execSchQuantum (at_ : Nat) (s : State) : Host.Outcome State Fault Refusal :=
  live (.schQuantum at_) s fun d =>
    let d := d.advance at_
    if d.sched.lastQuantum + d.quantum ≤ d.eff then
      let d := d.setSched { d.sched with lastQuantum := d.eff }
      let d := d.cores.foldl (fun d (i, _) => d.account i) d
      let d := (List.range 16).foldl Dev.quantumField d
      (d.swappedReady.foldl Dev.quantumEvict d).pump
    else d

/-! ### Drain windows and late responses (13 R307, R308) -/

/-- A transfer of a stopped core is abandoned and marked for reissue: some of its writes may be visible. The sixteenth time
in a row its program stops as R110 stops one. -/
def Dev.abandonTag (d : Dev) (i tag : Nat) (t : DmaTag) : Dev :=
  match (d.core i).inst with
  | none => d
  | some y =>
    let d := d.setSched { d.sched with abandon := sat32 (d.sched.abandon + 1) }
    if t.abandoned + 1 < 16 then
      (d.landSome i y.ctx t.desc).putTag i tag (some { t with reissue := true, outstanding := 1, abandoned := t.abandoned + 1 })
    else d.stopProg y.field y.slot 0x0221 .programEnd

/-- The drain window of a stopped core has ended. -/
def Dev.drainCore (d : Dev) (i : Nat) : Dev :=
  let x := d.core i
  match x.inst with
  | none => d
  | some y =>
    if x.stopped ∧ x.stopAt + 1000 * d.reg .schDrain 0 ≤ d.time.osc then
      ((y.outstanding.filter fun q => d.outer q.2).foldl (fun d q => d.abandonTag i q.1 q.2) d).trySuspend i
    else d

/-- R307: the drain windows of a context's cores, and of its eviction, end. -/
def execSchDrain (c at_ : Nat) (s : State) : Host.Outcome State Fault Refusal :=
  live (.schDrain c at_) s fun d =>
    let d := d.advance at_
    (((d.coresOf c).foldl Dev.drainCore d).resettle c).pump

/-- An answered request of a suspended instance's abandoned transfer. -/
def Inst.answered (y : Inst) (tag gen : Nat) : Inst :=
  match y.tag? tag with
  | some t => if t.reissue ∧ t.gen = gen then
      { y with tags := Tbl.set none y.tags tag (some { t with outstanding := t.outstanding - 1 }) } else y
  | none => y

/-- R308: a response for an abandoned request is discarded. -/
def execLateResponse (core tag gen : Nat) (s : State) : Host.Outcome State Fault Refusal :=
  live (.lateResponse core tag gen) s fun d =>
    let x := d.core core
    let d := d.putCore core { x with
      late := x.late.erase (tag, gen), inst := x.inst.map fun y => y.answered tag gen
      held := x.held.map fun y => y.answered tag gen, restoring := x.restoring.map fun y => y.answered tag gen }
    let d := d.setSaves (d.saves.map fun r => if r.core = core then { r with inst := r.inst.answered tag gen } else r)
    let cs := (x.inst.toList ++ x.held.toList ++ (d.saves.filter fun r => r.core == core).map fun r => r.inst).map
      fun y => y.ctx
    (cs.foldl Dev.resettle d).pump

/-! ### The rotation table (13 R312, R313) -/

/-- R312, R313: an entry's start less SCH_RT_LEAD. -/
def execRotationLead (lead : EntryAt) (s : State) : Host.Outcome State Fault Refusal :=
  live (.rotationLead lead) s fun d =>
    let d := d.advance lead.at_
    if d.rotLeads.contains lead.entry then d.pump else d

/-- R312, R313: an entry comes into force. -/
def execRotationEntryStart (j at_ : Nat) (s : State) : Host.Outcome State Fault Refusal :=
  live (.rotationEntryStart j at_) s fun d =>
    let d := d.advance at_
    match d.rotNow with
    | some (k, _) => if k = j then d.pump else d
    | none => d

/-- R312, R313: the entry in force ends. -/
def execRotationEntryEnd (j at_ : Nat) (s : State) : Host.Outcome State Fault Refusal :=
  live (.rotationEntryEnd j at_) s fun d =>
    let d := d.advance at_
    match d.sched.rot with
    | none => d
    | some (k, start) => if k = j ∧ d.rotNow ≠ some (k, start) then d.pump else d

/-! ### Contexts -/

/-- 13 R301: a context's translation root is loaded, and it is resident. -/
def execTranslationRootLoad (c : Nat) (s : State) : Host.Outcome State Fault Refusal :=
  live (.translationRootLoad c) s fun d =>
    if (d.ctx c).rootLoading then
      ((d.modCtx c fun x => { x with rootLoading := false, residentSince := d.eff }).resettle c).pump
    else d

/-- 13 R316, R319: SCH_CMD RESET_CONTEXT. -/
def execResetContext (fn c : Nat) (s : State) : Host.Outcome State Fault Refusal :=
  hosted fn (.resetContext fn c) s fun d => if isPf fn then ((d.schReset (portOf fn) c).resettle c).pump else d

/-- 13 R315, R319: SCH_CMD TEARDOWN. -/
def execTeardown (fn c : Nat) (s : State) : Host.Outcome State Fault Refusal :=
  hosted fn (.teardown fn c) s fun d => if isPf fn then (d.schTeardown (portOf fn) c).pump else d

/-- 13 R315: the scrubs of a teardown end. -/
def execTeardownDone (c : Nat) (s : State) : Host.Outcome State Fault Refusal :=
  live (.teardownDone c) s fun d =>
    if (d.ctx c).state = .teardown ∧ d.stoppedAll c = true then ((d.endTeardown c).resettle c).pump else d

end Sys2Proof.Machine
end

