-- ==== Sys2Proof/Machine/Train.lean ====
section
/-!
DEFINITION. The orders that start field programs of a TRAIN district: TRAIN_STEP (05 R117, R118, 06 R151, R158, R159)
and RUN (14 R327).
-/
namespace Sys2Proof.Machine

/-- Bytes 0 to 63 of a steward's data memory as the Headgate writes them (05 R118): body, RANK and F, and for a step
STRETCH and FIRST_TOKEN. -/
def headBytes (body : Bytes) (rank f : Nat) (step : Bool) : Bytes :=
  let stretch := leAt body 12 4 / f
  body.take 32 ++ le 2 rank ++ le 2 f ++ (if step then le 4 stretch ++ le 4 (rank * stretch) else zeros 8) ++ zeros 20

/-- The fields of an order's FIELD_MASK, each with its rank. -/
def ranked (fields : List Nat) : List (Nat × Nat) := (List.range fields.length).zip fields

/-- The programs of an order reach the stewards of its fields (05 R118). -/
def Dev.startFields (d : Dev) (o : Order) (k : Nat) (b : Bytes) (fields : List Nat) (step : Bool) : Dev :=
  let d := d.modOrder o.id fun x => { x with phase := .running, fieldsLeft := fields }
  (ranked fields).foldl (fun d (rank, f) =>
    let p := d.progOf (.order o.id) o.ctx k .train b rank
    d.startProg f (p.setData 0 (headBytes o.body rank fields.length step))) d

/-- The first check of an order's program that fails, on its fields (04 R105, 06 R147); 0 for none. -/
def Dev.startCode (d : Dev) (k : Nat) (b : Bytes) (fields : List Nat) (train : Bool) : Nat :=
  if d.progCode k b fields ≠ 0 then d.progCode k b fields else d.planCode k train b

/-- The plan in a program's bytes, as the Headgate reads it. -/
def bytesPlan (b : Bytes) : Option Plan :=
  let data := (b.drop (leAt b 20 4)).take (leAt b 24 4)
  if hasPlan (zeros 64 ++ data.drop 64) then some (planOf data) else none

/-- The program that a body names: its bytes, or none where the context has none there or PROGRAM is not aligned. -/
def Dev.bodyProg (d : Dev) (o : Order) : Option Bytes :=
  if leAt o.body 0 8 % 4096 = 0 then d.progBytes o.ctx (leAt o.body 0 8) else none

/-- A TRAIN_STEP order starts its programs (06 R158, R159, 07 R173, 08 R196). -/
def Dev.beginStep (d : Dev) (o : Order) (k : Nat) (b : Bytes) (fields : List Nat) : Dev :=
  let g := d.gauge k
  let epoch := d.reg .cisEpoch k
  let d := d.modGauge k fun g => { g with verdict := 0 }
  let hasOpt := match bytesPlan b with | some x => x.opt.isSome | none => false
  let d := d.modStep o.id fun x => { x with
    started := true, epoch, ls := g.ls, attempt := g.attempt, hasOpt }
  let d := d.openRound k o.id (leAt o.body 16 8) g.attempt g.ls epoch (leAt o.body 24 8) fields
  let d := d.setParts (d.parts ++ fields.map fun f =>
    { o := o.id, field := f, district := k, epoch, marked := [], spilled := 0, recomputed := 0, posted := false,
      rcpBusy := false, tokens := 0 })
  d.startFields o k b fields true

/-- A held TRAIN_STEP order starts if no earlier order holds it and its reserves fit (06 R151, R159). -/
def Dev.tryStep (d : Dev) (id : OrderId) : Dev :=
  match d.order? id with
  | none => d
  | some o =>
    match d.districtOf o.ctx with
    | none => d
    | some k =>
      if o.phase ≠ .held ∨ d.stepBlocked id k = true ∨ (d.dist k).state ≠ .active then d else
      let fields := bitsOf (leAt o.body 8 2) 16
      let fail (d : Dev) (code : Nat) : Dev :=
        ((d.setSteps (d.steps.filter fun x => x.o != id)).failOrder id code (d.hgSource o.ctx)).resettle o.ctx
      match d.bodyProg o with
      | none => fail d 0x01B0
      | some b =>
        let code := d.startCode k b fields true
        if code ≠ 0 then fail d code else
        match (match bytesPlan b with
          | none => some d
          | some x => d.reserveAll id k (leAt o.body 10 2) x fields) with
        | none => d
        | some d => ((d.beginStep o k b fields).resettle o.ctx).pump

/-- R117, 06 R151: the order is checked, and starts or is held. MICRO_BATCHES 0 is an empty order (00 R10). -/
def execTrainStep (o : OrderId) (s : State) : Host.Outcome State Fault Refusal :=
  live (.trainStep o) s fun d =>
    match d.taken o opTrain with
    | none => d
    | some x =>
      let src := d.hgSource x.ctx
      let fields := bitsOf (leAt x.body 8 2) 16
      let mbs := leAt x.body 10 2
      match d.districtOf x.ctx with
      | none => (d.failOrder o 0x0161 src).resettle x.ctx
      | some k =>
        if mbs = 0 then (d.endOrder o 0 src true).resettle x.ctx else
        match d.bodyProg x with
        | none => (d.failOrder o 0x01B0 src).resettle x.ctx
        | some b =>
          let code := d.startCode k b fields true
          let never := match bytesPlan b with
            | none => false
            | some p => fields.any fun f => !d.reserveEver o k f mbs p
          if code ≠ 0 then (d.failOrder o code src).resettle x.ctx
          else if never then (d.failOrder o 0x01D1 src).resettle x.ctx
          else
            let st : StepOrd :=
              { o, district := k, started := false, epoch := 0, ls := 0, attempt := 0, seed := leAt x.body 24 8,
                step := leAt x.body 16 8, microBatches := mbs, hasOpt := false, optBegun := false, optEnded := false,
                skip := 0, fields, verdict := false, optLost := false, stopped := false }
            let d := d.setSteps (d.steps ++ [st])
            ((d.modOrder o fun x => { x with phase := .held }).tryStep o).resettle x.ctx

/-- 06 R151, R159: a held order starts. -/
def execTrainStepStart (o : OrderId) (s : State) : Host.Outcome State Fault Refusal :=
  live (.trainStepStart o) s fun d => d.tryStep o

/-- 14 R327: a program that is no step; a stash plan in it is refused (06 R147). -/
def execRun (o : OrderId) (s : State) : Host.Outcome State Fault Refusal :=
  live (.run o) s fun d =>
    match d.taken o opRun with
    | none => d
    | some x =>
      let src := d.hgSource x.ctx
      let fields := bitsOf (leAt x.body 8 2) 16
      match d.districtOf x.ctx, d.bodyProg x with
      | none, _ => (d.failOrder o 0x0161 src).resettle x.ctx
      | some _, none => (d.failOrder o 0x01B0 src).resettle x.ctx
      | some k, some b =>
        let code := d.startCode k b fields false
        if code ≠ 0 then (d.failOrder o code src).resettle x.ctx
        else ((d.startFields x k b fields false).resettle x.ctx).pump

end Sys2Proof.Machine
end

