-- ==== Sys2Proof/Machine/IntakeOps.lean ====
section
/-!
DEFINITION. How Intake admits a request and hands its work to the stewards (09 R218 to R231, R236, R237).
-/
namespace Sys2Proof.Machine

/-! ### Descriptors and profiles -/

/-- A request descriptor (Table 09-1). -/
def parseReq (b : Bytes) : ReqDesc :=
  { id := leAt b 0 8, profile := leAt b 8 1, realtime := leAt b 9 1 == 1, flags := leAt b 10 1, prompt := leAt b 12 4,
    maxNew := leAt b 16 4, ttftUs := leAt b 20 4, itlUs := leAt b 24 4, stop := leAt b 28 4, promptAddr := leAt b 32 8,
    outAddr := leAt b 40 8, outEntries := leAt b 48 4, handle := leAt b 52 4, tailAddr := leAt b 56 8,
    seed := leAt b 64 8, offtake := leAt b 72 2, gateEnd := leAt b 74 2, temperature := leAt b 76 4 }

def ReqDesc.stochastic (x : ReqDesc) : Bool := bit x.flags 0
def ReqDesc.useHandle (x : ReqDesc) : Bool := bit x.flags 1
def ReqDesc.noSpec (x : ReqDesc) : Bool := bit x.flags 3
def ReqDesc.capture (x : ReqDesc) : Bool := bit x.flags 4

/-- A power of two from 2^lo to 2^hi. -/
def powerIn (lo hi n : Nat) : Bool := (List.range (hi + 1)).any fun i => decide (lo ≤ i) && n == 2 ^ i

/-- Test 1: the fields of a descriptor (a zero length fails it too: DEDUCED, log entry 50). -/
def ReqDesc.ok (x : ReqDesc) (b : Bytes) : Bool :=
  decide (x.profile < 64) && decide (leAt b 9 1 < 2) && decide (x.flags < 32) && leAt b 11 1 == 0 && x.prompt != 0 &&
    x.maxNew != 0 && x.promptAddr % 4 == 0 && x.outAddr % 64 == 0 && powerIn 4 16 x.outEntries &&
    (x.useHandle || x.handle == 0) && x.tailAddr % 4 == 0 &&
    (if x.stochastic then pos32 x.temperature else x.temperature == 0) && allZero (b.drop 80)

/-- A serving profile entry (Table 09-2). -/
def parseProfile (b : Bytes) : Profile :=
  { teacher := leAt b 0 4, student := leAt b 4 4, parcelBytes := leAt b 8 4, maxContext := leAt b 12 4,
    tpms := leAt b 16 4, epUj := leAt b 20 4, edUj := leAt b 24 4, prefillProg := leAt b 28 8, decodeProg := leAt b 36 8 }

def Profile.ok (p : Profile) (b : Bytes) (stride : Nat) : Bool :=
  p.parcelBytes % 4096 == 0 && decide (p.parcelBytes ≤ stride) && p.maxContext % 64 == 0 &&
    decide (64 ≤ p.maxContext ∧ p.maxContext ≤ 1048576) && p.tpms != 0 && allZero ((b.drop 44).take 20)

/-- INT_CMD LOAD_PROFILES of district k: the code, and the table taken (R219). -/
def Dev.loadProfiles (d : Dev) (k : Nat) : Nat × Dev :=
  if !(d.reqsOf k).isEmpty then (0x012C, d) else
  let n := d.reg .intProfileCount k
  match d.readCtx (d.hgAcc (1024 + k)) (1024 + k) (64 * d.reg .intProfileAddr k) (64 * n) with
  | .error _ => (0x012B, d)
  | .ok (b, d) =>
    let rows := (List.range n).map fun j => (b.drop (64 * j)).take 64
    if rows.all fun r => (parseProfile r).ok r (d.reg .intParcelStride k) then
      (0, d.modServe k fun x => { x with profiles := rows.map parseProfile })
    else (0x012B, d)

/-- INT_CMD FLUSH_PREFIXES of district k: the retained entries are dropped (R230). -/
def Dev.flushPrefixes (d : Dev) (k : Nat) : Dev := (d.retained k).foldl (fun d q => d.dropPrefix k q.1) d

/-- A refusal with 0x0120 + i is counted. -/
def Dev.countRefused (d : Dev) (k i : Nat) : Dev := d.modServe k fun x => { x with refused := bump x.refused i }
/-- A refusal with 0x0140 + i is counted. -/
def Dev.countOft (d : Dev) (k i : Nat) : Dev := d.modServe k fun x => { x with oftRefused := bump x.oftRefused i }

/-- A refusal code of 09 or 10 is counted at a SERVE district. -/
def Dev.countCode (d : Dev) (k code : Nat) : Dev :=
  if 0x0120 ≤ code ∧ code ≤ 0x012C then d.countRefused k (code - 0x0120)
  else if 0x0140 ≤ code ∧ code ≤ 0x0148 then d.countOft k (code - 0x0140) else d

/-- INT_CMD of a physical function on district k (R219, R230, Table 09-8). -/
def Dev.intCmd (d : Dev) (fn k op : Nat) : Dev :=
  if op = 0 ∨ d.isServe k = false then d else
  let (code, d) := if op = 1 then d.loadProfiles k
    else if op = 2 then (0, d.flushPrefixes k) else (0x0120, d)
  ((d.modServe k fun x => { x with cmdCode := code }).countCode k code).mgmtDone fn .intCmdDone k

/-! ### Prefixes (R228 to R231) -/

/-- The hash input of block b (Table 09-4). -/
def blockInput (p : Profile) (offtake version b : Nat) (parent tokens : Bytes) : Bytes :=
  [0x49, 0x46, 0x56, 0x50, 0x46, 0x58, 0x30, 0x31] ++ le 4 p.teacher ++ le 4 p.student ++ le 2 offtake ++
    le 2 version ++ le 4 b ++ parent ++ tokens

/-- The digests of the n full blocks from block b on. -/
def blockDigests (key : Bytes) (p : Profile) (offtake version : Nat) (tokens : Bytes) :
    Nat → Nat → Bytes → List Bytes
  | 0, _, _ => []
  | n + 1, b, parent =>
    let dg := shake256 (key ++ blockInput p offtake version b parent ((tokens.drop (256 * b)).take 256)) 16
    dg :: blockDigests key p offtake version tokens n (b + 1) dg

/-- Indexes of the entries that the leading digests hit, up to the first miss (R230). -/
def Dev.prefixHits (d : Dev) (k dom : Nat) : List Bytes → List Nat
  | [] => []
  | dg :: l => match (d.prefixesOf k).find? fun q => q.2.digest == dg && q.2.domain == dom with
    | none => []
    | some q => q.1 :: d.prefixHits k dom l

/-- The entry that a handle names, with its ancestors, the first block first (R231). -/
def Dev.handleChain (d : Dev) (k dom : Nat) : Nat → Nat → Option (List Nat)
  | 0, _ => none
  | fuel + 1, h =>
    let i := h % 2 ^ 24
    let p := Tbl.get Prefix.init (d.serve k).prefixes i
    if !p.live || p.gen != h / 2 ^ 24 || p.domain != dom then none
    else if p.block = 0 then some [i]
    else (d.handleChain k dom fuel p.parent).map fun l => l ++ [i]

/-- The entries that a request hits: at most its full blocks. -/
def Dev.hitsOf (d : Dev) (k dom : Nat) (x : ReqDesc) (digests : List Bytes) : List Nat :=
  if x.useHandle then
    match d.handleChain k dom (x.prompt / 64 + 1) x.handle with
    | none => []
    | some l => if l.length ≤ x.prompt / 64 then l else []
  else d.prefixHits k dom digests

/-! ### Pools and the latency estimate (R225, R236) -/

/-- Cores of a type in a pool of a district: a field under self-test has left its pools (13 R313). -/
def Dev.poolCores (d : Dev) (k : Nat) (pool : Pool) (runnel : Bool) : List Nat :=
  (d.fieldsOf k).flatMap fun f =>
    if (d.field f).inTest then [] else (d.usableOf f runnel).filter fun i => (d.core i).pool == pool

/-- Four times B: four per Basin core and one per Runnel core of the PREFILL pool. -/
def Dev.prefillB (d : Dev) (k : Nat) : Nat := 4 * (d.poolCores k .prefill false).length + (d.poolCores k .prefill true).length

/-- A chunk that is queued or unfinished. -/
def Chunk.open (c : Chunk) : Bool := !c.dispatched || !c.left.isEmpty

/-- Queued and unfinished chunks of the BEST_EFFORT requests of a district, each with its request. -/
def Dev.openChunks (d : Dev) (k : Nat) : List (Req × Chunk) :=
  ((d.reqsOf k).filter fun r => !r.desc.realtime).flatMap fun r => (r.chunks.filter Chunk.open).map fun c => (r, c)

/-- Q of R225 for a first chunk of a finish tag. -/
def Dev.queuedTokens (d : Dev) (k tag : Nat) : Nat :=
  sumNat (((d.openChunks k).filter fun q => decide (q.2.tag < tag)).map fun q => q.2.tokens)

/-! ### Chunks and tags (R226) -/

/-- The lengths of the chunks of u uncached tokens; a wholly cached prompt has one of length 0. -/
def chunkSizes (size : Nat) : Nat → Nat → List Nat
  | 0, _ => []
  | fuel + 1, u => if u ≤ size then [u] else size :: chunkSizes size fuel (u - size)

/-- What rows of a weight add to a tag: unsigned 64-bit arithmetic with 16 fraction bits, truncating (R226). -/
def tagAfter (at_ rows weight : Nat) : Nat := w64 (at_ + w64 (rows * 65536) / weight)

/-- The chunks of a request from a start value on; a REALTIME one has no tags. -/
def tagChunks (realtime : Bool) (weight : Nat) : Nat → List Nat → List Chunk
  | _, [] => []
  | at_, n :: l =>
    let tag := if realtime then 0 else tagAfter at_ n weight
    { tokens := n, start := at_, tag, dispatched := false, left := [] } :: tagChunks realtime weight tag l

/-! ### Admission (R221) -/

/-- What the tests need of a request once its prefix has been looked up. -/
structure Admit where
  k : Nat
  prof : Profile
  version : Nat
  domain : Nat
  digests : List Bytes
  hits : List Nat
  need : Nat
  uncached : Nat
  chunks : List Chunk
  est : Nat
deriving DecidableEq, Repr

/-- Unreferenced retained entries that a request does not hit, the least recently used first. -/
def Dev.spare (d : Dev) (k : Nat) (hits : List Nat) : List (Nat × Prefix) :=
  (d.retained k).filter fun q => !hits.contains q.1

/-- How far a tenant's charge would exceed its quota, in bytes (R223). -/
def Dev.overQuota (d : Dev) (t : Nat) (x : Admit) : Nat :=
  d.chargedMem t + x.need * d.reg .intParcelStride x.k - d.reg .intQuota t * gib

/-- A tenant's capacity in µJ (R224). -/
def Dev.energyCap (d : Dev) (t : Nat) : Nat := d.reg .intEnergy t * 10 ^ 6

/-- Test 2. -/
def Dev.reqState (d : Dev) (t : Nat) : Nat :=
  let st := (d.ctx t).state
  if st = .teardown ∨ st = .faulted then 0x0160 else
  match d.districtOf t with
  | none => 0x0125
  | some k =>
    if !d.isServe k then 0x0125 else
    match (d.dist k).state with
    | .draining => 0x018C | .applying => 0x018C | .inert => 0x018D | .active => 0 | .absent => 0x0125

/-- Test 3: the ranges of a descriptor, and a GATE_END that the context holds (DEDUCED, log entry 50). -/
def Dev.reqRanges (d : Dev) (t : Nat) (x : ReqDesc) : Bool :=
  d.rangeOk t x.promptAddr (4 * x.prompt) false && d.rangeOk t x.outAddr (64 * x.outEntries) true &&
    d.rangeOk t x.tailAddr 4 false && (x.gateEnd == 0 || d.holds t x.gateEnd)

/-- A district has rotation slots of KIND 0x1. -/
def Dev.rtSlots (d : Dev) (k : Nat) : Bool := d.rotTable.2.any fun e => e.district == k && e.kind == 1

/-- Model identifier of the teacher that a profile names. -/
def Dev.teacherId (d : Dev) (k : Nat) (p : Profile) : Option Nat :=
  (d.handle? p.teacher k).map fun i => (d.entry i).modelId

/-- Test 7 (10 R251). -/
def Dev.oftCode (d : Dev) (k t : Nat) (p : Profile) (x : ReqDesc) : Nat :=
  if x.offtake = 0xFFFF then 0 else
  match d.oftCurrent t x.offtake with
  | none => 0x0140
  | some v => if d.teacherId k p = some v.base then 0 else 0x0141

/-- Tests 4 to 7. -/
def Dev.reqNames (d : Dev) (k t : Nat) (x : ReqDesc) : Except Nat Profile :=
  if (d.reqsOfTenant t).any fun r => r.desc.id == x.id then .error 0x012A else
  match d.profile k x.profile with
  | none => .error 0x0126
  | some p =>
    if x.prompt + x.maxNew > p.maxContext then .error 0x0126
    else if x.realtime && !d.rtSlots k then .error 0x0127
    else if d.oftCode k t p x ≠ 0 then .error (d.oftCode k t p x)
    else if (d.reqsOfTenant t).length ≥ d.reg .intReqMax t ∨ d.reqs.length ≥ 65536 then .error 0x0129
    else .ok p

/-- The prefix lookup, the parcels, the chunks and the estimate of a request that has passed tests 1 to 7. -/
def Dev.admitOf (d : Dev) (k t : Nat) (p : Profile) (x : ReqDesc) : Admit :=
  let version := match d.oftCurrent t x.offtake with
    | some v => if x.offtake = 0xFFFF then 0 else v.version
    | none => 0
  let domain := d.domainOf k t
  let digests := if x.useHandle then [] else
    blockDigests (Config.domainKey domain) p x.offtake version (d.loadCtx t x.promptAddr (4 * x.prompt)) (x.prompt / 64) 0
      (zeros 16)
  let hits := d.hitsOf k domain x digests
  let uncached := x.prompt - 64 * hits.length
  let start := if x.realtime then 0 else max (d.serve k).v (d.ten t).finish
  { k, prof := p, version, domain, digests, hits, need := x.parcels - hits.length, uncached,
    chunks := tagChunks x.realtime (d.tenant t).weight start
      (chunkSizes (d.reg .intPrefillChunk k) (uncached + 1) uncached),
    est := min (uncached * p.epUj + x.maxNew * p.edUj) (d.energyCap t) }

/-- Tests 8 to 11, or 0. -/
def Dev.admitCode (d : Dev) (t : Nat) (x : ReqDesc) (a : Admit) : Nat :=
  let spare := d.spare a.k a.hits
  let own := (spare.filter fun q => q.2.tenant == t).length
  let first := match a.chunks with | [] => 0 | c :: _ => c.tag
  let b4 := d.prefillB a.k
  if d.overQuota t a > own * d.reg .intParcelStride a.k then 0x0122
  else if d.freeParcels a.k + spare.length < a.need then 0x0121
  else if (d.refilled t).bucket < 1000 * (a.est : Int) then 0x0124
  else if !x.realtime ∧ x.ttftUs ≠ 0 ∧
      (b4 = 0 ∨ 4000 * (d.queuedTokens a.k first + a.uncached) > x.ttftUs * b4 * a.prof.tpms) then 0x0123
  else 0

/-- The tenant's own retained parcels are reclaimed as far as its quota needs, then any as far as free parcels fall
short (R222, R223). -/
def Dev.makeRoom (d : Dev) (t : Nat) (a : Admit) : Dev :=
  let stride := d.reg .intParcelStride a.k
  let d := d.reclaim a.k (ceilDiv (d.overQuota t a) (max 1 stride)) ((d.spare a.k a.hits).filter fun q => q.2.tenant == t)
  d.reclaim a.k (a.need - d.freeParcels a.k) (d.spare a.k a.hits)

/-- An admitted request takes all its reservations at once. -/
def Dev.takeIn (d : Dev) (o : Order) (t : Nat) (x : ReqDesc) (a : Admit) : Dev :=
  let first := !((d.reqsOf a.k).any fun r => r.desc.profile == x.profile)
  let d := d.makeRoom t a
  let parcels := d.takeParcels a.k a.need
  let d := a.hits.foldl (fun d i => d.refPrefix a.k i true) d
  let d := if a.version = 0 then d else d.oftPin t x.offtake a.version true
  let d := if first then d.pinProfile a.k x.profile true else d
  let d := d.addBucket t (-(a.est : Int))
  let d := if x.realtime then d
    else d.putTen t { d.ten t with finish := match a.chunks.getLast? with | none => (d.ten t).finish | some c => c.tag }
  let r : Req :=
    { num := d.nextReq, order := o.id, tenant := t, district := a.k, desc := x, markA := o.mark, state := .queued,
      chunks := a.chunks, decodeTag := 0,
      parcels, hits := a.hits, uncached := a.uncached, digests := a.digests, domain := a.domain, remainder := a.est,
      charged := 0, emitted := 0, records := 0, held := [], finish := none, stallSince := none, stalled := false,
      lastMark := 0, steps := 0,
      limit := if x.noSpec || a.prof.student == 0xFFFFFFFF then 0 else d.reg .oftTreeMax a.k, fr := 0, gr := 0,
      plain := 0, probe := false, version := a.version, plan := [] }
  ((d.setReqs (d.reqs ++ [r])).setNextReq (d.nextReq + 1)).runOrder o.id

/-- A refused REQUEST completes with its code (R221). -/
def Dev.refuseReq (d : Dev) (o : Order) (code : Nat) : Dev :=
  let d := match d.districtOf o.ctx with
    | some k => if d.isServe k then d.countCode k code else d
    | none => d
  d.failOrder o.id code (d.hgSource o.ctx)

/-- Intake decides a REQUEST order (R221). -/
def Dev.decideReq (d : Dev) (o : Order) : Dev :=
  let t := o.ctx
  if leAt o.body 0 8 % 64 ≠ 0 ∨ allZero (o.body.drop 8) = false then d.refuseReq o 0x0120 else
  let w : Accessor := { d.hgAcc t with order := some o.id }
  match d.readCtx w t (leAt o.body 0 8) 128 with
  | .error e =>
    if e = 0x0320 ∨ e = 0x0321 ∨ e = 0x0327 then d.refuseReq o (if d.reqState t ≠ 0 then d.reqState t else 0x0128)
    else d.noteFault w t e (d.badAt t (leAt o.body 0 8) 128)
  | .ok (b, d) =>
    let x := parseReq b
    if !x.ok b then d.refuseReq o 0x0120
    else if d.reqState t ≠ 0 then d.refuseReq o (d.reqState t)
    else match d.districtOf t with
      | none => d.refuseReq o 0x0125
      | some k =>
        if !d.reqRanges t x then d.refuseReq o 0x0128 else
        match d.reqNames k t x with
        | .error e => d.refuseReq o e
        | .ok p =>
          let d := if x.useHandle then d else d.reads w t x.promptAddr (4 * x.prompt)
          d.unlessFault fun d =>
            let a := d.admitOf k t p x
            let code := d.admitCode t x a
            if code ≠ 0 then d.refuseReq o code else d.takeIn o t x a

/-! ### Dispatch (R220, R226, R227, 13 R312) -/

/-- Fields that serving programs of a district run on: those with a usable core (DESIGN CHOICE, log entry 51). -/
def Dev.serveFields (d : Dev) (k : Nat) : List Nat :=
  (d.fieldsOf k).filter fun f => d.fieldUsable k f && !((d.usableOf f false).isEmpty && (d.usableOf f true).isEmpty)

/-- The fields of the rotation slot of KIND 0x1 in force for a district. -/
def Dev.rtFields (d : Dev) (k : Nat) : List Nat :=
  match d.rotNow with
  | none => []
  | some (j, _) => match d.rotEnt j with
    | none => []
    | some e => if e.kind = 1 ∧ e.district = k then (d.rotFields e).filter fun f => (d.serveFields k).contains f else []

/-- The first REALTIME dispatch of an entry is late when it begins more than SCH_RT_LEAD after the entry's start. -/
def Dev.rtDispatch (d : Dev) : Dev :=
  match d.rotNow with
  | none => d
  | some (_, start) =>
    if d.sched.rtDispatched then d else
    d.setSched { d.sched with
      rtDispatched := true
      rtLate := if d.time.cnt > start + 1000 * d.reg .schRtLead 0 then sat32 (d.sched.rtLate + 1) else d.sched.rtLate }

/-- The row of a request in a serving program's table: its own parcels and those of the prefix it hits, its Offtake's
version, and its tree limit (R220, 10 R246). -/
def Dev.servRow (d : Dev) (r : Req) (limit : Nat) : ServRow :=
  { req := r.num, tenant := r.tenant, offtake := r.desc.offtake, version := r.version, limit, masked := false,
    parcels := (r.hits.map fun i => (Tbl.get Prefix.init (d.serve r.district).prefixes i).parcel) ++ r.parcels }

/-- A serving program of district k on a list of fields, with its row table: the code that refuses it, or the programs
started. A serving order has no TRAIN_STEP's plan (06 R147). -/
def Dev.startServing (d : Dev) (kind : ProgKind) (k addr : Nat) (pool : Pool) (table : List ServRow) (fields : List Nat) :
    Nat × Dev :=
  match d.progBytes (1024 + k) addr with
  | none => (0x01B0, d)
  | some b =>
    let code := d.startCode k b fields false
    if code ≠ 0 then (code, d)
    else (0, ((ranked fields).foldl (fun d q =>
      d.startProg q.2 { d.progOf kind (1024 + k) k pool b q.1 with table }) d))

/-- Every chunk that has not been dispatched, with its request and its index. -/
def Dev.waitingChunks (d : Dev) (k : Nat) (realtime : Bool) : List (Req × Nat × Chunk) :=
  ((d.reqsOf k).filter fun r => r.desc.realtime == realtime).flatMap fun r =>
    ((((List.range r.chunks.length).zip r.chunks).filter fun q => !q.2.dispatched).take 1).map fun q => (r, q.1, q.2)

/-- The chunk that is dispatched next: the lowest tag, then the order's mark and source, then its index. -/
def Dev.nextChunk (d : Dev) (k : Nat) (realtime : Bool) : Option (Req × Nat × Chunk) :=
  let l := d.waitingChunks k realtime
  let l := sortBy (fun q => d.hgSource q.1.tenant) l
  let l := sortBy (fun q => q.1.markA) l
  argMin (fun q => q.2.2.tag) l

/-- A chunk is dispatched on a list of fields. -/
def Dev.dispatchChunk (d : Dev) (k : Nat) (q : Req × Nat × Chunk) (fields : List Nat) : Dev :=
  let (r, i, c) := q
  match d.profile k r.desc.profile with
  | none => d
  | some p =>
    let d := if r.desc.realtime then d.rtDispatch
      else if c.tokens = 0 then d else d.modServe k fun x => { x with v := c.start }
    let d := d.modReq r.num fun r => { r with
      state := .prefill, chunks := r.chunks.modify i fun c => { c with dispatched := true, left := fields } }
    let (code, d) := d.startServing (.prefill r.num i) k p.prefillProg .prefill [d.servRow r 0] fields
    if code ≠ 0 then d.failReq r.num code else d

/-- R226: the next chunk of a district; in a slot of KIND 0x1 REALTIME work comes first, on the slot's fields. -/
def Dev.prefillNext (d : Dev) (k : Nat) : Dev :=
  let rt := if (d.rtFields k).isEmpty then none else d.nextChunk k true
  match rt with
  | some q => d.dispatchChunk k q (d.rtFields k)
  | none => match d.nextChunk k false with
    | none => d
    | some q => if (d.serveFields k).isEmpty then d else d.dispatchChunk k q (d.serveFields k)

/-- The request may speculate: it is not under NO_SPEC, and its profile has a student (10 R246). -/
def Dev.mayDraft (d : Dev) (r : Req) : Bool :=
  !r.desc.noSpec && match d.profile r.district r.desc.profile with
    | none => false
    | some p => p.student != 0xFFFFFFFF

/-- The tree limit of a request's next step: one for the probe that its last update has called for (10 R246). -/
def Dev.stepLimit (d : Dev) (r : Req) : Nat :=
  if !d.mayDraft r ∨ d.reg .oftTreeMax r.district = 0 then 0
  else if r.probe then 1 else min r.limit (d.reg .oftTreeMax r.district)

/-- The requests that a decode step takes from a list in turn, with their limits: one that does not fit is passed
over. -/
def Dev.fillStep (d : Dev) : Nat → List Req → List (Req × Nat)
  | _, [] => []
  | room, r :: l =>
    let n := d.stepLimit r
    if 1 + n ≤ room then (r, n) :: d.fillStep (room - (1 + n)) l else d.fillStep room l

/-- Requests in DECODE that a step may take, in ascending decode tag. -/
def Dev.decodable (d : Dev) (k : Nat) (realtime : Bool) : List Req :=
  sortBy (fun r => r.decodeTag) ((d.reqsOf k).filter fun r =>
    r.state == .decode && r.desc.realtime == realtime && r.held.isEmpty && r.stallSince.isNone && r.finish.isNone)

/-- The decode programs of a step: one per profile in it; the requests of a profile whose program is refused end. -/
def Dev.startDecode (d : Dev) (k : Nat) (fields : List Nat) (l : List (Req × Nat)) : List Nat → Dev
  | [] => d
  | pr :: rest =>
    let mine := l.filter fun q => q.1.desc.profile == pr
    let (code, d) : Nat × Dev := match d.profile k pr with
      | none => (0x01B0, d)
      | some p => d.startServing (.decode k) k p.decodeProg .decode (mine.map fun q => d.servRow q.1 q.2) fields
    let d := if code ≠ 0 then mine.foldl (fun d q => d.failReq q.1.num code) d
      else d.modServe k fun x => { x with step := match x.step with
        | none => some { reqs := mine.map fun q => (q.1.num, q.2), left := fields }
        | some st => some { reqs := st.reqs ++ mine.map fun q => (q.1.num, q.2), left := st.left ++ fields } }
    d.startDecode k fields l rest

/-- R227: a decode step, unless one is in flight. -/
def Dev.decodeNext (d : Dev) (k : Nat) : Dev :=
  if (d.serve k).step.isSome ∨ (d.serveFields k).isEmpty = true then d else
  let slot := d.rtFields k
  let rows := d.reg .intDecodeRows k
  let rt := if slot.isEmpty then [] else d.fillStep rows (d.decodable k true)
  let l := rt ++ d.fillStep (rows - sumNat (rt.map fun q => 1 + q.2)) (d.decodable k false)
  if l.isEmpty then d else
  let fields := if rt.isEmpty then d.serveFields k else slot
  let d := if rt.isEmpty then d else d.rtDispatch
  let d := l.foldl (fun (d : Dev) q => d.modReq q.1.num fun r => { r with
    decodeTag := if r.desc.realtime then r.decodeTag else tagAfter r.decodeTag (1 + q.2) (d.tenant r.tenant).weight }) d
  d.startDecode k fields l ((List.range 64).filter fun p => l.any fun q => q.1.desc.profile == p)

/-! ### Lending (R236, R237, 04 R114) -/

/-- Cores of a type that are lent: usable ones, of fields that have not left their pools for a self-test (13 R313). -/
def Dev.lentOf (d : Dev) (k : Nat) (runnel : Bool) : List Nat :=
  (d.serve k).lent.filter fun i => isRunnel i == runnel && d.usable i && !(d.field (i / 16)).inTest

/-- 1,000 × 4 × the queue in prefill milliseconds of one core: qt is it over the cores in quarters. With one profile
this is the qt of R236; each chunk counts at its own profile's rate (log entry 52). -/
def Dev.queueTime (d : Dev) (k : Nat) : Rat :=
  (d.openChunks k).foldl (fun (q : Rat) x => match d.profile k x.1.desc.profile with
    | none => q
    | some p => q + (4000 * x.2.tokens : Nat) / (p.tpms : Rat)) 0

/-- lb and lr before the clamp in automatic mode. -/
def Dev.lendAuto (d : Dev) (k : Nat) (lb lr : Int) : Int × Int :=
  let step : Int := d.reg .intLendStep k
  let itl := (d.serve k).itl
  let target := d.reg .intItlTarget k
  let ref := d.reg .intTtftRef k
  let b : Rat := (d.prefillB k : Nat)
  let behind := decide (d.queueTime k > (ref : Rat) * b)
  let under := decide (2 * d.queueTime k < (ref : Rat) * b)
  if target ≠ 0 ∧ itl > target ∧ lr > 0 then (lb, lr - step)
  else if target ≠ 0 ∧ itl > target then (lb + step, lr)
  else if ref ≠ 0 ∧ behind = true ∧ lb > 0 then (lb - step, lr)
  else if ref ≠ 0 ∧ behind = true then (lb, lr + step)
  else if 2 * itl < target ∧ under = true then (max (lb - step) 0, max (lr - step) 0)
  else (lb, lr)

/-- Usable cores of a type in a district. -/
def Dev.usableCount (d : Dev) (k : Nat) (runnel : Bool) : Nat :=
  sumNat ((d.fieldsOf k).map fun f => if (d.field f).inTest then 0 else (d.usableOf f runnel).length)

/-- The numbers of cores that a decision lends: Basin cores to DECODE, Runnel cores to PREFILL (R236). -/
def Dev.lendTargets (d : Dev) (k : Nat) (e : DistEnt) : Nat × Nat :=
  let lb : Int := (d.lentOf k false).length
  let lr : Int := (d.lentOf k true).length
  let (lb, lr) : Int × Int := if d.reg .intLendManual k = 1 then (d.reg .intSetLb k, d.reg .intSetLr k) else d.lendAuto k lb lr
  let hb : Int := min (d.reg .intMaxBasin k) ((d.usableCount k false : Int) - e.minBasinPrefill)
  let hr : Int := min (d.reg .intMaxRunnel k) ((d.usableCount k true : Int) - e.minRunnelDecode)
  ((max 0 (min hb lb)).toNat, (max 0 (min hr lr)).toNat)

/-- A core moves to a pool: at once when it is idle, else once it has stopped (04 R114). -/
def Dev.moveCore (d : Dev) (i : Nat) (p : Pool) : Dev :=
  let x := d.core i
  if x.pool = p then d.modCore i fun x => { x with toPool := none }
  else if x.inst.isNone ∧ x.starting.isNone ∧ x.restoring.isNone then (d.modCore i fun x => { x with toPool := some p }).joinPool i
  else (d.modCore i fun x => { x with toPool := some p }).stopCore i .lending

/-- The pool of a core once its move is over. -/
def Core.goal (x : Core) : Pool := x.toPool.getD x.pool

/-- The core that is lent next: of the field with the most cores of the type in the home pool, the lowest number on a
tie; the highest position in it. -/
def Dev.lendNext (d : Dev) (k : Nat) (runnel : Bool) : Option Nat :=
  let home : Pool := if runnel then .decode else .prefill
  let of (f : Nat) : List Nat := if (d.field f).inTest then [] else
    (d.usableOf f runnel).filter fun i => (d.core i).goal == home && !(d.serve k).lent.contains i
  match argMin (fun f => 16 - (of f).length) (d.fieldsOf k) with
  | none => none
  | some f => (of f).getLast?

/-- Lend or return cores of a type until n are lent. -/
def Dev.lendTo (d : Dev) (k : Nat) (runnel : Bool) (n : Nat) : Nat → Dev
  | 0 => d
  | fuel + 1 =>
    let l := d.lentOf k runnel
    let home : Pool := if runnel then .decode else .prefill
    let away : Pool := if runnel then .prefill else .decode
    if l.length < n then match d.lendNext k runnel with
      | none => d
      | some i => ((d.modServe k fun x => { x with lent := x.lent ++ [i] }).moveCore i away).lendTo k runnel n fuel
    else if n < l.length then match l.getLast? with
      | none => d
      | some i => ((d.modServe k fun x => { x with lent := x.lent.filter (· != i) }).moveCore i home).lendTo k runnel n fuel
    else d

/-- A lending decision (R236, R237). -/
def Dev.lend (d : Dev) (k : Nat) (e : DistEnt) : Dev :=
  let d := d.modServe k fun x => { x with lastLend := d.eff, lent := x.lent.filter d.usable }
  let (lb, lr) := d.lendTargets k e
  let old := (d.serve k).lent
  let d := (d.lendTo k false lb 192).lendTo k true lr 64
  if (d.serve k).lent = old then d else
  let (m, d) := d.mark (d.hgSource (1024 + k))
  d.modServe k fun x => { x with lendTime := m }

end Sys2Proof.Machine
end

