-- ==== Sys2Proof/Machine/SpecOps.lean ====
section
/-!
DEFINITION. Speculative verification: the draft tree (10 R239 to R242), acceptance (R243 to R245), tree limits (R246),
the Outfall records of a step (09 R232, R233) and rejection capture (10 R247).
-/
namespace Sys2Proof.Machine

/-! ### The tree (R239, R240) -/

/-- A valid node: its token, its parent (0xFF the anchor), its depth and its attention mask (R241). -/
structure Node where
  token : Nat
  parent : Nat
  depth : Nat
  mask : Nat
deriving DecidableEq, Repr

/-- Entry i of a tree record, checked against the entries before it. -/
def nodeAt (b : Bytes) (limit vocab i : Nat) (before : List (Option Node)) : Option Node :=
  let token := leAt b (16 + 8 * i) 4
  let parent := leAt b (20 + 8 * i) 1
  let above : Option (Nat × Nat) := if parent = 0xFF then some (0, 0)
    else (nth none before parent).map fun x => (x.depth, x.mask)
  match above with
  | none => none
  | some (n, m) =>
    if i < limit ∧ n + 1 ≤ 16 ∧ token < vocab then some { token, parent, depth := n + 1, mask := m ||| 2 ^ i } else none

/-- Nodes written. -/
def treeNodes (b : Bytes) : Nat := min 64 (leAt b 0 1)

/-- The entries of a tree record below NODES: none where invalid. -/
def treeOf (b : Bytes) (limit vocab : Nat) : List (Option Node) :=
  (List.range (treeNodes b)).foldl (fun l i => l ++ [nodeAt b limit vocab i l]) []

/-- Position and attention mask of the rows of a step whose anchor stands at a position: the anchor's row first, then node
i's at i + 1; none for a node that is not valid, whose row is masked (R241). -/
def rowPlan (anchor : Nat) (t : List (Option Node)) : List (Option (Nat × Nat)) :=
  some (anchor, 0) :: t.map fun n => n.map fun x => (anchor + x.depth, x.mask)

/-- Valid children of a row, in ascending node index: 0xFF is the anchor. -/
def childrenOf (t : List (Option Node)) (cur : Nat) : List (Nat × Node) :=
  ((List.range t.length).zip t).filterMap fun (i, n) => match n with
    | none => none
    | some x => if x.parent = cur then some (i, x) else none

/-! ### Distributions (05 R131 to R133) -/

/-- L of a row of logits at k = INV_TAU × log₂e. -/
def rowL (k : Nat) (z : List Nat) : Nat :=
  let (m, s) := pass1Model k negInf32 0 z
  fadd m (flog2 s)

/-- log₂ of the probability of a logit of a row with L. -/
def log2P (k l z : Nat) : Nat := fsub (fmul z k) l

/-- The probabilities of a row. -/
def probs (k : Nat) (z : List Nat) : List Nat := let l := rowL k z; z.map fun v => fexp2 (log2P k l v)

/-- ln of the probability of a token of a row (R245). -/
def lnP (k : Nat) (z : List Nat) (t : Nat) : Nat := fmul (log2P k (rowL k z) (nth 0 z t)) ln2w

/-- The token of the largest logit, the lower token first on ties (R243). -/
def argmaxTok (z : List Nat) : Nat :=
  ((List.range z.length).foldl (fun (a : Option Nat) i => match a with
    | none => some i
    | some j => if Val.gt (f32 (nth 0 z i)) (f32 (nth 0 z j)) then some i else some j) none).getD 0

/-- The row gives no usable p (R245); a row of −infinity alone is taken so too (DEDUCED, log entry 54). -/
def badRow (z : List Nat) : Bool := z.any (badVal false) || z.all fun v => v == negInf32

/-- Word e of a step: key the descriptor's SEED, INDEX the first token of the step (R245). -/
def stepWord (x : ReqDesc) (index e : Nat) : Nat :=
  let (w0, w1, w2, w3) := philox
    (2 * 2 ^ 30 + fld e 2 30, w32 index, w32 x.id, fld x.id 32 16) (w32 x.seed, fld x.seed 32 32)
  match e % 4 with | 0 => w0 | 1 => w1 | 2 => w2 | _ => w3

/-- The uniform value u of word e. -/
def stepU (x : ReqDesc) (index e : Nat) : Nat := fscale (fofNat (fld (stepWord x index e) 8 24)) (-24)

/-- a < b, of FP32 words. -/
def lt32 (a b : Nat) : Bool := Val.gt (f32 b) (f32 a)

/-- The first token at which the running sum exceeds t. -/
def sampleGo (t : Nat) : Nat → Nat → List Nat → Option Nat
  | _, _, [] => none
  | v, acc, r :: l => let acc := fadd acc r; if lt32 t acc then some v else sampleGo t (v + 1) acc l

/-- sample(r, s, u) of R244. -/
def sample (r : List Nat) (s u : Nat) : Nat :=
  match sampleGo (fmul u s) 0 0 r with
  | some v => v
  | none => (((List.range r.length).filter fun v => lt32 0 (nth 0 r v)).getLast?).getD 0

/-! ### Acceptance -/

/-- What a step has come to: its tokens (with the draft flag and VALUE), the nodes accepted, whether the last token is
the teacher's own, and the children of the last accepted row that were tested and rejected. -/
structure Accept where
  toks : List (Nat × Bool × Nat)
  path : List Nat
  own : Bool
  rejected : List (Nat × Node)
deriving DecidableEq, Repr

def Accept.init : Accept := { toks := [], path := [], own := false, rejected := [] }

/-- What acceptance reads: the tree, the rows, the request, the step's first INDEX and the tokens left. -/
structure AccIn where
  tree : List (Option Node)
  rows : List RowWork
  desc : ReqDesc
  index : Nat
  /-- Tokens that the request may still emit. -/
  room : Nat

/-- The row of the anchor (0xFF) or of a node. -/
def AccIn.row (x : AccIn) (cur : Nat) : RowWork :=
  nth { teacher := [], student := [] } x.rows (if cur = 0xFF then 0 else cur + 1)

/-- The request ends after n tokens of the step, the last of which is t (R220). -/
def AccIn.ends (x : AccIn) (n t : Nat) : Bool :=
  decide (x.room ≤ n) || (x.desc.stop != 0xFFFFFFFF && t == x.desc.stop)

/-- k of a mode: temperature 1 in greedy mode (R244, R245). -/
def ReqDesc.kt (x : ReqDesc) : Nat := if x.stochastic then fmul (fdiv one32 x.temperature) log2e32 else log2e32

/-- The children of a row under the stochastic rule: the one accepted, or the residual r and s. -/
def AccIn.tryChildren (x : AccIn) (depth : Nat) (q : List Nat) :
    Nat → List Nat → Nat → List (Nat × Node) → (Option (Nat × Node)) × List Nat × Nat
  | _, r, s, [] => (none, r, s)
  | k, r, s, c :: l =>
    let u := stepU x.desc x.index (128 * depth + k)
    if lt32 (fmul (fmul u (nth 0 q c.2.token)) s) (nth 0 r c.2.token) then (some c, r, s)
    else
      let r := (r.zip q).map fun (a, b) => fmax (fsub a b) 0
      x.tryChildren depth q (k + 1) r (r.foldl fadd 0) l

/-- Acceptance from a row on (R243 to R245). -/
def AccIn.run (x : AccIn) : Nat → Nat → Nat → Accept → Accept
  | 0, _, _, a => a
  | fuel + 1, cur, depth, a =>
    let row := x.row cur
    let z := row.teacher
    let kt := x.desc.kt
    let kids := childrenOf x.tree cur
    let own (a : Accept) (t v : Nat) (rej : List (Nat × Node)) : Accept :=
      { a with toks := a.toks ++ [(t, false, v)], own := true, rejected := rej }
    let go (c : Nat × Node) : Accept :=
      let a := { a with toks := a.toks ++ [(c.2.token, true, lnP kt z c.2.token)], path := a.path ++ [c.1] }
      if x.ends a.toks.length c.2.token then a else x.run fuel c.1 (depth + 1) a
    if badRow z then own a (argmaxTok z) nan32 []
    else if x.desc.stochastic then
      let p := probs kt z
      let q := probs kt row.student
      match x.tryChildren depth q 0 p one32 kids with
      | (some c, _, _) => go c
      | (none, r, s) =>
        let (r, s) := if s % 2 ^ 31 = 0 then (p, one32) else (r, s)
        let t := sample r s (stepU x.desc x.index (128 * depth + 64))
        own a t (lnP kt z t) kids
    else
      let t := argmaxTok z
      match kids.find? fun c => c.2.token == t with
      | some c => go c
      | none => own a t (lnP kt z t) kids

/-- Acceptance of a step: at most 16 nodes and the teacher's own token. -/
def AccIn.accept (x : AccIn) : Accept := x.run 17 0xFF 0 Accept.init

/-- The work reports every row that acceptance may visit, each with the same vocabulary. -/
def workOk (w : ReqWork) (nodes : Nat) (student : Bool) : Bool :=
  let v := match w.rows with | [] => 0 | r :: _ => r.teacher.length
  v != 0 && decide (nodes < w.rows.length) &&
    w.rows.all fun r => r.teacher.length == v && (!student || r.student.length == v)

/-! ### Parcels (R242) -/

/-- Device address of the 64th part of a parcel that holds a position's KV (DESIGN CHOICE, log entry 55). -/
def Dev.kvAt (d : Dev) (k parcel slot bytes : Nat) : Nat :=
  4096 * d.reg .intParcelBase k + parcel * d.reg .intParcelStride k + slot * (bytes / 64)

/-- The KV of the accepted nodes is copied to their positions, the first at position pos. -/
def Dev.copyKv (d : Dev) (r : Req) (bytes : Nat) : Nat → List Nat → Dev
  | _, [] => d
  | pos, node :: l =>
    let b := pos / 64
    let h := r.hits.length
    let to_ := if b < h then (Tbl.get Prefix.init (d.serve r.district).prefixes (nth 0 r.hits b)).parcel
      else nth 0 r.parcels (b - h)
    let src := d.kvAt r.district (r.parcels.getLast?.getD 0) node bytes
    let w := d.hgAcc (1024 + r.district)
    let bs := d.readDev src (bytes / 64)
    ((d.readsDev w r.tenant src (bytes / 64)).storeDev w (d.kvAt r.district to_ (pos % 64) bytes) bs).copyKv r bytes (pos + 1) l

/-! ### Tree limits (R246) -/

/-- n, FR and GR of a request at the end of a step that was no probe, or was one. The flag tells that n halved. -/
def Req.relimit (r : Req) (probe : Bool) (treeMax reject grow v a : Nat) : Req × Bool :=
  if probe then (if 0 < a then { r with limit := min 1 treeMax, fr := 0, gr := r.gr + 1 } else r, false)
  else if 0 < v ∧ a = 0 then
    if r.fr + 1 ≥ reject then ({ r with gr := 0, fr := 0, limit := r.limit / 2 }, true)
    else ({ r with gr := 0, fr := r.fr + 1 }, false)
  else if 0 < a then
    if r.gr + 1 ≥ grow ∧ r.limit < treeMax then
      ({ r with fr := 0, gr := 0, limit := min (max (2 * r.limit) 1) treeMax }, false)
    else ({ r with fr := 0, gr := r.gr + 1 }, false)
  else (r, false)

/-- The update of a request at the end of a decode step: v valid nodes, a accepted, under a limit. With n at 0 it calls for
a probe after PROBE_STEPS steps without drafting, where the request may draft. The flag tells that n halved. -/
def Req.retree (r : Req) (drafts : Bool) (treeMax reject grow probes limit v a : Nat) : Req × Bool :=
  let x := ({ r with limit := min r.limit treeMax, plain := if limit = 0 then r.plain + 1 else 0, probe := false }).relimit
    (r.probe && limit != 0) treeMax reject grow v a
  ({ x.1 with probe := drafts && decide (x.1.limit = 0 ∧ 1 ≤ treeMax ∧ probes ≤ x.1.plain) }, x.2)

/-! ### Capture (R247) -/

/-- A capture record (Table 10-2). -/
def captureBytes (r : Req) (node : Nat × Node) (mark index own p q step : Nat) : Bytes :=
  le 1 1 ++ le 1 (b2n r.desc.stochastic) ++ le 2 r.tenant ++ le 1 node.2.depth ++ le 1 node.1 ++ le 1 r.desc.profile ++
    le 1 0 ++ le 8 r.desc.id ++ le 8 mark ++ le 4 index ++ le 4 node.2.token ++ le 4 own ++ le 4 p ++ le 4 q ++
    le 2 r.desc.offtake ++ le 2 r.version ++ le 4 step ++ zeros 12

/-- A record goes to the capture ring of a district, or is dropped and counted. -/
def Dev.capture (d : Dev) (k : Nat) (bs : Bytes) : Dev :=
  let x := d.serve k
  let n := d.reg .oftCapEntries k
  if n = 0 then d
  else if w32 (x.capHead + 2 ^ 32 - d.reg .oftCapTail k) = n then
    d.modServe k fun x => { x with capDropped := sat32 (x.capDropped + 1) }
  else (d.storeCtx (d.hgAcc (1024 + k)) (1024 + k) (64 * d.reg .oftCapAddr k + 64 * (x.capHead % n)) bs).modServe k fun x =>
    { x with capHead := w32 (x.capHead + 1) }

/-! ### The commit of a request's tokens (09 R232, R233) -/

/-- e := e + (x − e)/16 in whole µs. -/
def average (e x : Nat) : Nat := ((e : Int) + ((x : Int) - e).tdiv 16).toNat

def sat64 (n : Nat) : Nat := min n (2 ^ 64 - 1)

/-- The marks of n tokens of one step: one instant, and the following nanoseconds. -/
def Dev.marks (d : Dev) (src : Nat) : Nat → List Nat × Dev
  | 0 => ([], d)
  | n + 1 =>
    let (m, d) := d.mark src
    let (l, d) := d.marks src n
    (m :: l, d)

/-- A latency over ACCEPTED exceeds a target in µs. -/
def late (latency accepted target : Nat) : Bool := target != 0 && decide (latency > 1000 * target * accepted)

/-- Tokens are committed: first tells the first token, which no decode step commits. tree is the valid nodes. -/
def Dev.emitTokens (d : Dev) (r : Req) (p : Profile) (first : Bool) (a : Accept) (tree : Nat) : Dev × Nat :=
  let (ms, d) := d.marks (d.hgSource r.tenant) a.toks.length
  let m0 := nth 0 ms 0
  let n := a.toks.length
  let latency := if first then m0 - r.markA else m0 - r.lastMark
  let step := if first then 0 else r.steps + 1
  let handle := match r.hits.getLast? with
    | none => 0xFFFFFFFF
    | some i => handleOf i (Tbl.get Prefix.init (d.serve r.district).prefixes i).gen
  let recs := ((List.range n).zip (a.toks.zip ms)).map fun (i, (t, dr, v), m) =>
    let l := if i = 0 then latency else 0
    ({ flags := 2 * b2n first + 4 * b2n dr + 64 * b2n (i == 0 && r.stalled) +
         32 * b2n (late l (if first then 1 else n) (if first then r.desc.ttftUs else r.desc.itlUs))
       token := t, mark := m, index := r.emitted + i, latency := l, step, accepted := n, tree, value := v,
       cached := if first then 64 * r.hits.length else 0, handle := if first then handle else 0 } : OutRec)
  let last := match a.toks.getLast? with | none => 0 | some t => t.1
  let total := r.emitted + n
  let stop := r.desc.stop != 0xFFFFFFFF && last == r.desc.stop
  let long := decide (r.desc.maxNew ≤ total ∨ p.maxContext ≤ r.desc.prompt + total)
  let d := d.modServe r.district fun x =>
    if first then { x with ttft := average x.ttft (latency / 1000) }
    else if r.stalled then x else { x with itl := average x.itl (latency / (1000 * n)) }
  let d := d.modReq r.num fun r => { r with
    state := .decode, emitted := total, lastMark := (ms.getLast?).getD 0, steps := step, stalled := false
    decodeTag := if first then (d.serve r.district).v else r.decodeTag
    held := recs, finish := if stop || long then some (8 * b2n stop + 16 * b2n long, 0) else none }
  (d, m0)

/-- Tokens that a request may still emit. -/
def Req.room (r : Req) (p : Profile) : Nat := min (r.desc.maxNew - r.emitted) (p.maxContext - r.desc.prompt - r.emitted)

/-- The records of a request go out, and its end if it has come to it. -/
def Dev.flush (d : Dev) (n : Nat) : Dev :=
  d.flushReq n (match d.req? n with | none => 1 | some r => r.held.length + 1)

/-- A CANCEL order that names a request has been fetched: work at or after its mark is discarded (09 R234). -/
def Dev.cancelled (d : Dev) (r : Req) : Bool :=
  d.orders.any fun o => o.opcode == opCancel && o.ctx == r.tenant && o.phase != .ended && leAt o.body 0 8 == r.desc.id &&
    allZero (o.body.drop 8)

/-- Every chunk of a request has been prefilled. -/
def Req.prefilled (r : Req) : Bool := r.state == .prefill && r.chunks.all fun c => c.dispatched && c.left.isEmpty

/-- A request's first token (09 R220, R226). -/
def Dev.firstToken (d : Dev) (k : Nat) (w : ReqWork) : Dev :=
  match d.req? w.req with
  | none => d
  | some r =>
    if r.district ≠ k ∨ r.prefilled = false ∨ workOk w 0 false = false ∨ d.cancelled r = true then d else
    match d.profile k r.desc.profile with
    | none => d
    | some p =>
      let a := AccIn.accept { tree := [], rows := w.rows, desc := r.desc, index := r.emitted, room := r.room p }
      ((d.emitTokens r p true a 0).1).flush r.num

/-- A request's part of a decode step. -/
def Dev.commitReq (d : Dev) (k : Nat) (w : ReqWork) (limit : Nat) : Dev :=
  match d.req? w.req with
  | none => d
  | some r =>
    if d.cancelled r then d else
    match d.profile k r.desc.profile with
    | none => d
    | some p =>
      let vocab := match w.rows with | [] => 0 | x :: _ => x.teacher.length
      let tree := treeOf w.tree limit vocab
      let valid := (tree.filter Option.isSome).length
      let a := AccIn.accept { tree, rows := w.rows, desc := r.desc, index := r.emitted, room := r.room p }
      let step := r.steps + 1
      let anchor := r.desc.prompt + r.emitted - 1
      let d := d.copyKv r p.parcelBytes (r.desc.prompt + r.emitted) a.path
      let (d, m0) := d.emitTokens r p false a valid
      let last := match a.path.getLast? with | none => 0 | some i => i + 1
      let row := nth { teacher := [], student := [] } w.rows last
      let own := match a.toks.getLast? with | none => 0 | some t => t.1
      let d := if r.desc.capture && a.own then
          let pt := probs r.desc.kt row.teacher
          let qt := probs r.desc.kt row.student
          a.rejected.foldl (fun d c => d.capture k (captureBytes r c m0 (r.emitted + a.toks.length - 1) own
            (nth 0 pt c.2.token) (nth 0 qt c.2.token) step)) d
        else d
      let upd (r : Req) : Req × Bool :=
        r.retree (d.mayDraft r) (d.reg .oftTreeMax k) (d.reg .oftReject k) (d.reg .oftGrow k) (d.reg .oftProbe k) limit valid
          a.path.length
      let halved := (upd r).2
      let d := d.modReq r.num fun r => { (upd r).1 with plan := rowPlan anchor tree }
      let d := d.modServe k fun x => { x with
        specNodes := sat64 (x.specNodes + valid), specAccepted := sat64 (x.specAccepted + a.path.length)
        fullRej := sat32 (x.fullRej + b2n (decide (0 < valid ∧ a.path.isEmpty = true)))
        dropped := sat32 (x.dropped + (tree.length - valid)), halved := sat32 (x.halved + b2n halved) }
      d.flush r.num

/-- The decode step of a district is over once its programs have ended and the work of every live request is given. -/
def Dev.stepReady (d : Dev) (st : DecStep) (work : StepWork) : Bool :=
  st.left.isEmpty && st.reqs.all fun q => match d.req? q.1 with
    | none => true
    | some r => match work.reqs.find? fun w => w.req == q.1 with
      | none => false
      | some w => workOk w (min q.2 (treeNodes w.tree)) (r.desc.stochastic || r.desc.capture)

/-- STEP_COMMIT (10 R243): first tokens of requests whose prefill is over, and the decode step if it is. -/
def Dev.stepCommit (d : Dev) (k : Nat) (work : StepWork) : Dev :=
  let st := (d.serve k).step
  let d := work.reqs.foldl (fun d w => d.firstToken k w) d
  match st with
  | none => d
  | some st =>
    if !d.stepReady st work then d else
    let d := d.modServe k fun x => { x with step := none, specSteps := sat64 (x.specSteps + 1) }
    st.reqs.foldl (fun d q => match work.reqs.find? fun w => w.req == q.1 with
      | none => d
      | some w => d.commitReq k w q.2) d

end Sys2Proof.Machine
end

