-- ==== Sys2Proof/Machine/Intake.lean ====
section
/-!
DEFINITION. The commands of Intake (09) and of the decode step (10 R243).
-/
namespace Sys2Proof.Machine

/-- R221: Intake decides a REQUEST order. -/
def execRequest (o : OrderId) (s : State) : Host.Outcome State Fault Refusal :=
  liveUnit (.request o) s fun d =>
    match d.taken o opRequest with
    | none => d
    | some x => ((d.decideReq x).resettle x.ctx).pump

/-- CANCEL (R218, R234): tokens whose commit instant precedes the order's mark are delivered, as far as the ring has
room; those that wait and do not precede it are discarded. -/
def Dev.cancelReq (d : Dev) (o : Order) : Dev :=
  if !allZero (o.body.drop 8) then d.refuseReq o 0x0120 else
  match (d.reqsOfTenant o.ctx).find? fun r => r.desc.id == leAt o.body 0 8 with
  | none => d.endOrder o.id 0 (d.hgSource o.ctx) true
  | some r =>
    let held := r.held.filter fun x => decide (x.mark < o.mark)
    let d := (d.modReq r.num fun r => { r with held, finish := none }).flushReq r.num (held.length + 1)
    let d := d.endReq r.num 3 0 0x0210
    d.doneOrder o.id (d.hgSource o.ctx)

/-- R234: Intake acts on a CANCEL order. -/
def execCancel (o : OrderId) (s : State) : Host.Outcome State Fault Refusal :=
  liveUnit (.cancel o) s fun d =>
    match d.taken o opCancel with
    | none => d
    | some x => ((d.cancelReq x).resettle x.ctx).pump

/-- R226: the next prefill chunk of a district is dispatched. -/
def execPrefillChunkDispatch (d : Nat) (s : State) : Host.Outcome State Fault Refusal :=
  liveUnit (.prefillChunkDispatch d) s fun x =>
    if x.ready then ((x.prefillNext d).resettle (1024 + d)).pump else x

/-- R227: a decode step of a district is dispatched. -/
def execDecodeStep (d : Nat) (s : State) : Host.Outcome State Fault Refusal :=
  liveUnit (.decodeStep d) s fun x =>
    if x.ready then ((x.decodeNext d).resettle (1024 + d)).pump else x

/-- 10 R243: tokens are committed. -/
def execStepCommit (d : Nat) (work : StepWork) (s : State) : Host.Outcome State Fault Refusal :=
  liveUnit (.stepCommit d work) s fun x => (x.stepCommit d work).pump

/-- R232: a stalled request reads TAIL_ADDR again. -/
def execOutfallRetry (req at_ : Nat) (s : State) : Host.Outcome State Fault Refusal :=
  liveUnit (.outfallRetry req at_) s fun d =>
    let d := d.advance at_
    match d.req? req with
    | none => d
    | some r => if r.stallSince.isSome then (d.flush req).pump else d

/-- R232: a request stalled beyond INT_STALL_LIMIT ms is cancelled. -/
def execIntStallLimit (req at_ : Nat) (s : State) : Host.Outcome State Fault Refusal :=
  liveUnit (.intStallLimit req at_) s fun d =>
    let d := d.advance at_
    match d.req? req with
    | none => d
    | some r => match r.stallSince with
      | none => d
      | some t => if d.eff > t + 10 ^ 6 * d.reg .intStallLimit r.district then (d.endReq req 3 0 0x0212).pump else d

/-- R236: a lending decision of an ACTIVE SERVE district, every 10 ms. -/
def execLendingDecision (d at_ : Nat) (s : State) : Host.Outcome State Fault Refusal :=
  live (.lendingDecision d at_) s fun x =>
    let x := x.advance at_
    match x.ent? d with
    | none => x
    | some e =>
      if e.role = 2 ∧ (x.dist d).state = .active ∧ (x.serve d).lastLend + 10 ^ 7 ≤ x.eff then (x.lend d e).pump else x

/-- R219: INT_CMD LOAD_PROFILES. -/
def execLoadProfiles (fn d : Nat) (s : State) : Host.Outcome State Fault Refusal :=
  hosted fn (.loadProfiles fn d) s fun x => if isPf fn then x.intCmd fn d 1 else x

/-- R230: INT_CMD FLUSH_PREFIXES. -/
def execFlushPrefixes (fn d : Nat) (s : State) : Host.Outcome State Fault Refusal :=
  hosted fn (.flushPrefixes fn d) s fun x => if isPf fn then x.intCmd fn d 2 else x

/-- R229: a tenant writes the share group it consents to. -/
def execIntVfShare (t : Nat) (value : DWord) (s : State) : Host.Outcome State Fault Refusal :=
  hosted t (.intVfShare t value) s fun d => (d.putReg .intVfShare t (fld value.toNat 0 8)).regroup t

end Sys2Proof.Machine
end

