-- ==== Sys2Proof/Machine/MemOrders.lean ====
section
/-!
DEFINITION. MEMORY orders: MAP, UNMAP and PROTECT (11 R265 to R267, R281).
-/
namespace Sys2Proof.Machine

/-- The bytes of a range that a list of mappings of one page size covers. -/
def covered (maps : List Mapping) (page va n : Nat) : Nat :=
  sumNat (maps.map fun m =>
    if m.page = page then min (va + n) (m.va + m.bytes) - max va m.va else 0)

/-- A MEMORY order with its target context and district: tests 1 and 2 of R281, and BYTES 0 (R10). -/
def Dev.memOrder (d : Dev) (o : OrderId) (op : Nat) (f : Order → Nat → Nat → MemBody → Dev) : Dev :=
  match d.taken o opMemory with
  | none => d
  | some x =>
    if leAt x.body 0 1 ≠ op then d else
    let src := d.hgSource x.ctx
    let m := memFields x.body
    if d.memCode x ≠ 0 then d.failOrder o (d.memCode x) src
    else match d.memTarget x with
      | none => d
      | some (c, k) => if m.bytes = 0 then d.endOrder o 0 src true else f x c k m

/-- The quota of a tenant allows n more bytes (R267, 09 R223). -/
def Dev.quotaRoom (d : Dev) (c n : Nat) : Bool :=
  decide (1024 ≤ c) || decide (d.chargedMem c + n ≤ d.reg .intQuota c * gib)

/-- Mappings of frames at consecutive virtual addresses. -/
def mapPieces (va page : Nat) (write fixed : Bool) : List (Nat × Nat) → List Mapping
  | [] => []
  | (p, n) :: r => { va, bytes := n, phys := p, page, write, fixed } :: mapPieces (va + n) page write fixed r

/-- MAP (R266, R267): frames of the general pool that read as zero. -/
def execMap (o : OrderId) (s : State) : Host.Outcome State Fault Refusal :=
  live (.map o) s fun d => d.memOrder o 1 fun x c k m =>
    let src := d.hgSource x.ctx
    let maps := (d.ctx c).maps
    if (maps.any fun q => overlap m.va m.bytes q.va q.bytes) ||
        (m.fixed && (d.used k).any fun u => overlap m.va m.bytes u.1 u.2) then d.failOrder o 0x0153 src
    else if !d.quotaRoom c m.bytes then d.failOrder o 0x0151 src
    else
      let (fr, lack) := if m.fixed then
          (if (List.range (ceilDiv m.bytes chunkBytes)).any fun i => d.hole k (m.va + i * chunkBytes) then ([], m.bytes)
           else ([(m.va, m.bytes)], 0))
        else d.frames k m.page m.bytes
      if lack ≠ 0 then d.failOrder o 0x0152 src
      else
        let e := fr.foldl (fun d r => d.scrub r.1 r.2) d
        match e.remap k c (maps ++ mapPieces m.va m.page m.write m.fixed fr) with
        | none => d.failOrder o 0x0152 src
        | some d => d.doneOrder o src

/-- The parts of a mapping outside a range. -/
def Mapping.outside (m : Mapping) (va n : Nat) : List Mapping :=
  (cut1 (m.va, m.bytes) (va, n)).map fun r => { m with va := r.1, bytes := r.2, phys := m.phys + (r.1 - m.va) }

/-- The part of a mapping inside a range. -/
def Mapping.inside (m : Mapping) (va n : Nat) : List Mapping :=
  let a := max va m.va
  let e := min (va + n) (m.va + m.bytes)
  if a < e then [{ m with va := a, bytes := e - a, phys := m.phys + (a - m.va) }] else []

/-- A context's mappings take a form that needs no more tables than they have, or than the pool can give. -/
def Dev.remapTo (d : Dev) (k c : Nat) (maps : List Mapping) : Dev := (d.remap k c maps).getD d

/-- Remove a range of a context's mappings and scrub its frames (R267). -/
def Dev.unmapRange (d : Dev) (k c va n : Nat) : Dev :=
  let maps := (d.ctx c).maps
  let d := (maps.flatMap fun m => m.inside va n).foldl (fun d m => d.scrub m.phys m.bytes) d
  d.remapTo k c (maps.flatMap fun m => m.outside va n)

/-- UNMAP: the frames are scrubbed and return to the pool. -/
def execUnmap (o : OrderId) (s : State) : Host.Outcome State Fault Refusal :=
  live (.unmap o) s fun d => d.memOrder o 2 fun x c k m =>
    let src := d.hgSource x.ctx
    if covered (d.ctx c).maps m.page m.va m.bytes ≠ m.bytes then d.failOrder o 0x0153 src
    else (d.unmapRange k c m.va m.bytes).doneOrder o src

/-- PROTECT: the range takes the permission of FLAGS.WRITE. -/
def execProtect (o : OrderId) (s : State) : Host.Outcome State Fault Refusal :=
  live (.protect o) s fun d => d.memOrder o 3 fun x c k m =>
    let src := d.hgSource x.ctx
    if covered (d.ctx c).maps m.page m.va m.bytes ≠ m.bytes then d.failOrder o 0x0153 src
    else
      let set (y : Mapping) : List Mapping :=
        y.outside m.va m.bytes ++ (y.inside m.va m.bytes).map fun z => { z with write := m.write }
      (d.remapTo k c ((d.ctx c).maps.flatMap set)).doneOrder o src

end Sys2Proof.Machine
end

