-- ==== Sys2Proof/Machine/SecOps.lean ====
section
/-!
DEFINITION. The Security block: keys and their indexes, signed objects and evidence records (15 R344 to R359).
-/
namespace Sys2Proof.Machine

def Dev.modSec (d : Dev) (f : Sec → Sec) : Dev := d.setSec (f d.sec)
def Dev.modFlash (d : Dev) (f : Flash → Flash) : Dev := d.modSec fun x => { x with flash := f x.flash }

/-! ### Commands (R359) -/

/-- SEC_CMD_STATUS takes the code of a command that ends. It raises no interrupt. -/
def Dev.secCode (d : Dev) (fn code : Nat) : Dev :=
  let (m, d) := d.mark srcSec
  (d.modSec fun x => { x with
    code := Tbl.set 0 x.code fn code, doneTime := Tbl.set 0 x.doneTime fn m }).putReg .secDone fn 1

/-- The command of a function that runs ends with a code. -/
def Dev.secEnd (d : Dev) (fn code : Nat) : Dev :=
  (d.modSec fun x => { x with
    running := Tbl.set 0 x.running fn 0, waiting := x.waiting.filter (· != fn) }).secCode fn code

/-- The OP that a function's command in progress carries; 0 none. -/
def Dev.secRunning (d : Dev) (fn : Nat) : Nat := Tbl.get 0 d.sec.running fn

/-- A survey image is staged or an SRV_ command runs (R354). -/
def Dev.surveyHeld (d : Dev) : Bool := d.survey.staged.isSome || d.survey.cmd.isSome

/-- A verification failed (R349). -/
def Dev.verifyFailed (d : Dev) : Dev := d.modSec fun x => { x with verifyFail := sat32 (x.verifyFail + 1) }

/-! ### Public keys and the policy (R348, R352) -/

/-- A public key is 68 bytes and begins with the OID. -/
def keyOk (k : Bytes) : Bool := k.length == 68 && k.take 4 == xmssOid

def polKeyAt (bs : Bytes) (o : Nat) : PolKey :=
  { id := leAt bs o 4, use := leAt bs (o + 4) 1, tenant := leAt bs (o + 6) 2, pub := cutAt bs (o + 12) 68 }

/-- A signed device policy as its fields (Table 15-5). -/
def parsePolicy (bs : Bytes) : Policy :=
  let nk := leAt bs 6 1
  let no := leAt bs 7 1
  { id := leAt bs 8 4, roles := leAt bs 12 1, flags := leAt bs 13 1, floorTotalW := leAt bs 14 2, serial := leAt bs 16 8
    bind := cutAt bs 24 16, maxQuotaGib := leAt bs 40 2
    opps := (List.range no).map fun j => (leAt bs (136 + 8 * j) 2, leAt bs (138 + 8 * j) 2, leAt bs (140 + 8 * j) 2)
    keys := (List.range nk).map fun k => polKeyAt bs (136 + 8 * no + 80 * k), ownerKey := cutAt bs 64 68 }

/-- The structure of a policy (R352). -/
def policyForm (bs : Bytes) : Bool :=
  let p := parsePolicy bs
  let nk := p.keys.length
  let no := p.opps.length
  leAt bs 0 4 == 0x59434C50 && leAt bs 4 2 == 1 && between nk 1 16 && between no 1 8 &&
    bs.length == 136 + 8 * no + 80 * nk + sigBytes && p.id != 0 && between p.roles 1 3 && decide (p.flags < 4) &&
    decide (p.floorTotalW ≤ 1200) && (bit p.flags 0 || allZero p.bind) && between p.maxQuotaGib 1 1984 &&
    allZero (cutAt bs 42 22) && keyOk p.ownerKey && allZero (cutAt bs 132 4) &&
    strictly true (p.opps.map fun o => o.1) && p.opps.all (fun o => between o.1 200 1600) &&
    (List.range no).all (fun j => leAt bs (142 + 8 * j) 2 == 0) &&
    p.keys.all (fun k => between k.use 1 2 && (decide (k.tenant < 1024) || k.tenant == 0xFFFF) && keyOk k.pub) &&
    (List.range nk).all (fun k => leAt bs (136 + 8 * no + 80 * k + 5) 1 == 0 && leAt bs (136 + 8 * no + 80 * k + 8) 4 == 0) &&
    allDistinct (p.keys.map fun k => k.id)

/-- A signature at the end of an object verifies. -/
def signedBy (key bs : Bytes) : Bool :=
  xmssVerify key (bs.take (bs.length - sigBytes)) (bs.drop (bs.length - sigBytes))

/-- The checks of a policy under an owner digest, in order (R349), with the rollback rule against a serial. -/
def policyCode (bs digest : Bytes) (rollback : Nat → Bool) : Nat :=
  let p := parsePolicy bs
  if !policyForm bs then 0x0500
  else if bit p.flags 0 && p.bind != Config.identityDigest then 0x0508
  else if shake256 p.ownerKey 32 != digest then 0x0507
  else if !signedBy p.ownerKey bs then 0x0504
  else if !rollback p.serial then 0x0506 else 0

/-- The checks of an ownership record (R354). -/
def Dev.ownerCode (d : Dev) (r : Bytes) : Nat :=
  let f := d.sec.flash
  if !(leAt r 0 4 == 0x574F4649 && leAt r 4 2 == 1 && leAt r 6 2 == 0 && r.length == 160 + sigBytes &&
      keyOk (cutAt r 64 68) && allZero (cutAt r 132 28)) then 0x0500
  else if cutAt r 16 16 != Config.identityDigest then 0x0508
  else if shake256 (cutAt r 64 68) 32 != f.ownerDigest then 0x0507
  else if !signedBy (cutAt r 64 68) r then 0x0504
  else if leAt r 8 8 ≤ f.ownerSerial then 0x0506 else 0

/-- A policy is in force from the flash write on (R354). -/
def Dev.takePolicy (d : Dev) (bs : Bytes) : Dev :=
  (d.modFlash fun f => { f with policy := bs, policySerial := leAt bs 16 8 }).modSec fun x =>
    { x with policy := some (parsePolicy bs) }

/-- The stored policy is verified at start-up (R353): its serial is the stored one. -/
def Dev.loadPolicy (d : Dev) : Dev :=
  let f := d.sec.flash
  let c := policyCode f.policy f.ownerDigest fun _ => true
  if c = 0 then d.modSec fun x => { x with policy := some (parsePolicy f.policy) }
  else (d.modSec fun x => { x with policy := none }).verifyFailed

/-- INSTALL_POLICY (R354) with the bytes read: the code, and the device. -/
def Dev.installPolicy (d : Dev) (bs : Bytes) (flash : Bool) : Nat × Dev :=
  let f := d.sec.flash
  let c := policyCode bs f.ownerDigest fun n => decide (f.policySerial < n)
  if c ≠ 0 then (c, d.verifyFailed)
  else if !flash then (0x050A, d) else (0, d.takePolicy bs)

/-- TRANSFER_OWNER (R354) with the bytes read. -/
def Dev.transferOwner (d : Dev) (bs : Bytes) (flash : Bool) : Nat × Dev :=
  let r := bs.take (160 + sigBytes)
  let p := bs.drop (160 + sigBytes)
  let c := d.ownerCode r
  if c ≠ 0 then (c, d.verifyFailed) else
  let c := policyCode p (cutAt r 32 32) fun n => decide (d.sec.flash.policySerial < n)
  if c ≠ 0 then (c, d.verifyFailed)
  else if !flash then (0x050A, d)
  else (0, (d.modFlash fun f => { f with ownerDigest := cutAt r 32 32, ownerSerial := leAt r 8 8 }).takePolicy p)

/-! ### The key hierarchy (R345, R346, Table 15-1)

No function, firmware or register reads a key; what stands encrypted outside the package is plain text to the device (11
R270), and the model holds it so (log entry 128). -/

/-- ASCII. -/
def ascii (l : List Nat) : Bytes := l.map (BitVec.ofNat 8)

/-- A derived key: KMAC256 under the root secret, with the string "IFV-DX1". -/
def derivedKey (label : Bytes) (n : Nat) : Bytes :=
  kmac256 Config.rootSecret label (ascii [0x49, 0x46, 0x56, 0x2D, 0x44, 0x58, 0x31]) n

/-- FK, the seeds of the identity key and those of attestation key g. -/
def flashKey : Bytes := derivedKey (ascii [0x46, 0x4B]) 32
def ikSeeds : Bytes := derivedKey (ascii [0x49, 0x4B]) 96
def akSeeds (g : Nat) : Bytes := derivedKey (ascii [0x41, 0x4B] ++ le 4 g) 96

/-- The system memory key of a district at an epoch. -/
def systemKey (k epoch : Nat) : Bytes := derivedKey (ascii [0x53, 0x4B] ++ le 1 k ++ le 4 epoch) 64

/-- The entry of a context in the AES key table: none while it has no key. -/
def Dev.memoryKey (d : Dev) (c : Nat) : Option Bytes :=
  if (d.ctx c).keyGen = 0 then none
  else if c < 1024 then some (Config.tenantKey (d.ctx c).keyGen)
  else some (systemKey (c - 1024) (nth 0 d.sec.flash.sysEpoch (c - 1024)))

/-! ### Firmware images (R349, R350) -/

/-- The SVN of an image, the root slots it revokes, and its digest without the signature. -/
def fwSvn (bs : Bytes) : Nat := leAt bs 8 4
def fwRevoke (bs : Bytes) : Nat := leAt bs 16 1
def fwDigest (bs : Bytes) : Bytes := shake256 (bs.take (bs.length - sigBytes)) 32

/-- The structure of an image of a kind (Table 15-4). -/
def firmwareForm (kind : Nat) (bs : Bytes) : Bool :=
  let root := leAt bs 7 1
  let n := leAt bs 12 4
  leAt bs 0 4 == 0x57464649 && leAt bs 4 2 == 1 && leAt bs 6 1 == kind && decide (root < 4) &&
    decide (1 ≤ n ∧ n ≤ 0x800000) && decide (fwRevoke bs < 16) && !bit (fwRevoke bs) root &&
    (kind == 1 || fwRevoke bs == 0) && allZero (cutAt bs 17 15) && keyOk (cutAt bs 32 68) && allZero (cutAt bs 100 28) &&
    bs.length == 128 + n + sigBytes

/-- The checks of R349 on a firmware image: the code of the first that fails, or 0. -/
def Dev.firmwareCode (d : Dev) (kind : Nat) (bs : Bytes) : Nat :=
  let f := d.sec.flash
  let root := leAt bs 7 1
  let pub := cutAt bs 32 68
  if !firmwareForm kind bs then 0x0500
  else if bit f.revoke root then 0x0505
  else if shake256 pub 32 != Config.rootDigest root then 0x0507
  else if !signedBy pub bs then 0x0504
  else if fwSvn bs < (if kind = 1 then f.lkkFloor else f.hgFloor) then 0x0506 else 0

/-! ### Signing indexes (R356) -/

def akRootAt : Nat := 786432
def keyEnd : Nat := 1048576

/-- The 128 bytes of an AK certificate before its signature (Table 15-6). -/
def akCertBody (g : Nat) : Bytes :=
  le 4 0x4B414649 ++ le 2 1 ++ le 2 0 ++ le 4 g ++ le 4 0 ++ Config.identityDigest.take 16 ++ (Config.akPublic g).take 68 ++
    zeros 28

/-- The attestation key in use goes on to its successor, whose certificate the identity key signs. None: a flash write
that falls due fails. -/
def Dev.nextAk (d : Dev) (flash : Bool) : Option Dev :=
  let x := d.sec
  let g := x.flash.akGen + 1
  if !flash then none else
  some (d.modSec fun x => { x with
    flash := { x.flash with
      ikReserved := if x.ikNext = x.flash.ikReserved then x.flash.ikReserved + 256 else x.flash.ikReserved
      akGen := g, akReserved := 0 }
    ikNext := x.ikNext + 1, akNext := 0, akRoot := 0, akCert := akCertBody g ++ Config.ikSign x.ikNext (akCertBody g) })

/-- The root of the next key is computed in the background from index 786,432 on. -/
def Dev.akBegin (d : Dev) : Dev :=
  d.modSec fun x => { x with akRoot := if x.akRoot = 0 ∧ akRootAt ≤ x.akNext then 1 else x.akRoot }

/-- The next index of the attestation key is reserved, and used: the key's generation, the index and the device, or none
if the write that falls due fails. -/
def Dev.takeIndex (d : Dev) (flash : Bool) : Option (Nat × Nat × Dev) :=
  let x := d.sec
  let due := x.akNext == x.flash.akReserved
  if due && !flash then none else
  some (x.flash.akGen, x.akNext, (d.modSec fun x => { x with
    flash := { x.flash with akReserved := if due then x.flash.akReserved + 256 else x.flash.akReserved }
    akNext := x.akNext + 1 }).akBegin)

/-! ### Evidence records (R357) -/

/-- GEN_ID (00 Table 00-2). -/
def Dev.genId (d : Dev) : Nat := d.startup.variant + 0x42 * 256 + 1 * 65536

/-- The nonce in SEC_NONCE_0 to SEC_NONCE_7 of a function. -/
def Dev.nonce (d : Dev) (fn : Nat) : Bytes := (List.range 8).flatMap fun k => le 4 (d.reg .secNonce (8 * fn + k))

/-- n bytes of a digest; zeros where there is none. -/
def digestOr (n : Nat) (b : Bytes) : Bytes := (b ++ zeros n).take n

/-- The first 256 bytes of an evidence record (Table 15-7). -/
def Dev.evidence (d : Dev) (fn mark gen index : Nat) : Bytes :=
  let x := d.sec
  let k := if fn < 1024 then (d.tenant fn).district else 0xFF
  le 4 0x56454649 ++ le 2 1 ++ le 2 (masterOf fn) ++ d.nonce fn ++ le 8 mark ++ le 4 d.genId ++ le 1 k ++
    le 1 d.startup.gen.code ++ le 2 0 ++ le 4 d.lkk.svn ++ le 4 d.lkk.hgSvn ++ digestOr 32 x.lkkDigest ++
    digestOr 32 x.hgDigest ++ (if x.flash.policy.isEmpty then zeros 32 else digestOr 32 (shake256 x.flash.policy 32)) ++
    le 4 (match x.policy with | none => 0 | some p => p.id) ++ le 4 x.flash.revoke ++ le 8 d.survey.committedSerial ++
    digestOr 32 x.surveyDigest ++ digestOr 16 Config.identityDigest ++ le 4 gen ++ le 4 index ++ zeros 24

/-- SEC_OUT_ADDR of a function. -/
def Dev.secOut (d : Dev) (fn : Nat) : Nat := 64 * d.reg .secOutAddr fn

/-- An ATTEST is signed and its record written (R357). -/
def Dev.signRecord (d : Dev) (fn : Nat) (flash : Bool) : Dev :=
  match d.takeIndex flash with
  | none => d.secEnd fn 0x050A
  | some (g, i, d) =>
    let (m, d) := d.mark srcSec
    let e := d.evidence fn m g i
    let d := d.hostWrite (portOf fn) (d.secOut fn) (e ++ digestOr sigBytes (Config.akSign g i e))
    (d.modSec fun x => { x with signed := min (x.signed + 1) (2 ^ 64 - 1) }).secEnd fn 0

/-- The certificates are written (R357). -/
def Dev.writeCerts (d : Dev) (fn : Nat) : Dev :=
  (d.hostWrite (portOf fn) (d.secOut fn)
    (digestOr (128 + sigBytes) Config.identityCert ++ digestOr (128 + sigBytes) d.sec.akCert)).secEnd fn 0

/-- The command at its turn: none, it waits for the next attestation key. -/
def Dev.secTurn (d : Dev) (fn : Nat) (flash : Bool) : Option Dev :=
  if d.secRunning fn = 2 then some (d.writeCerts fn)
  else if keyEnd ≤ d.sec.ikNext then some (d.secEnd fn 0x0509)
  else if d.sec.akNext < keyEnd then some (d.signRecord fn flash)
  else if d.sec.akRoot = 2 then
    match d.nextAk flash with
    | none => some (d.secEnd fn 0x050A)
    | some d => some (d.signRecord fn flash)
  else none

/-- Commands are served in the order they were written, up to one that waits. -/
def Dev.secServe (d : Dev) (flash : Bool) : Nat → Dev
  | 0 => d
  | n + 1 => match d.sec.waiting with
    | [] => d
    | fn :: _ => match d.secTurn fn flash with
      | none => d
      | some d => d.secServe flash n

/-- ATTEST or READ_CERTS is written (R357). -/
def Dev.secQueue (d : Dev) (fn op : Nat) (flash : Bool) : Dev :=
  if d.secRunning fn ≠ 0 then d.secCode fn 0x050B
  else if !d.sec.identityOk then d.secEnd fn 0x0501
  else
    let d := d.modSec fun x => { x with running := Tbl.set 0 x.running fn op, waiting := x.waiting ++ [fn] }
    d.secServe flash d.sec.waiting.length

/-- INSTALL_POLICY or TRANSFER_OWNER begins: the code that refuses it, or 0 (R354, R358, R359). -/
def Dev.secStart (d : Dev) (fn : Nat) : Nat :=
  if !isPf fn then 0x0104
  else if d.surveyHeld then 0x050B
  else if d.reg .secInLen fn = 0 then 0x0500 else 0

/-- The read of a function's command failed (R357). -/
def Dev.secFail (d : Dev) (fn code : Nat) : Dev :=
  if d.secRunning fn = 3 ∨ d.secRunning fn = 4 then d.secEnd fn code else d

/-- A write of INSTALL_POLICY or TRANSFER_OWNER into SEC_CMD: the read of the object begins. -/
def Dev.secRead (d : Dev) (fn op : Nat) : Dev :=
  if d.secRunning fn ≠ 0 then d.secCode fn 0x050B
  else
    let c := d.secStart fn
    if c ≠ 0 then d.secEnd fn c else d.modSec fun x => { x with
      running := Tbl.set 0 x.running fn op, inLen := Tbl.set 0 x.inLen fn (d.reg .secInLen fn) }

/-- The object of INSTALL_POLICY or TRANSFER_OWNER has been read: by the command that runs, or by one written now. -/
def Dev.secObject (d : Dev) (fn op : Nat) (bytes : Bytes) (flash : Bool) : Dev :=
  let d := if d.secRunning fn = 0 then d.secRead fn op else d
  if d.secRunning fn = op then
    let bs := bytes.take (Tbl.get 0 d.sec.inLen fn)
    let (c, d) := if op = 3 then d.installPolicy bs flash else d.transferOwner bs flash
    d.secEnd fn c
  else if d.secRunning fn ≠ 0 then d.secCode fn 0x050B
  else d

/-- RAISE_FW_FLOOR (R351). -/
def Dev.secFloor (d : Dev) (fn : Nat) (flash : Bool) : Dev :=
  if d.secRunning fn ≠ 0 then d.secCode fn 0x050B
  else if !isPf fn then d.secEnd fn 0x0104
  else if !flash then d.secEnd fn 0x050A
  else (d.modFlash fun f => { f with
    lkkFloor := max f.lkkFloor d.lkk.svn, hgFloor := max f.hgFloor d.lkk.hgSvn }).secEnd fn 0

/-- ROTATE_SYSTEM (R346, R359). -/
def Dev.secRotate (d : Dev) (fn k : Nat) (flash : Bool) : Dev :=
  if d.secRunning fn ≠ 0 then d.secCode fn 0x050B
  else if !isPf fn then d.secEnd fn 0x0104
  else if (d.dist k).state ≠ .absent then d.secEnd fn 0x050B
  else if !flash then d.secEnd fn 0x050A
  else (d.modFlash fun f => { f with sysEpoch := f.sysEpoch.set k (w32 (nth 0 f.sysEpoch k + 1)) }).secEnd fn 0

end Sys2Proof.Machine
end

