-- ==== Sys2Proof/Machine/Mgmt.lean ====
section
/-!
DEFINITION. Management over MCTP and PLDM (17 R399 to R403). Of a response the model holds the completion code and the
data that the spec states. Codes and numbers of the DMTF standards that the spec names without giving them are
PRESUMED (log entry 64).
-/
namespace Sys2Proof.Machine

/-! ### Violations (R403) -/

/-- One record of a code per second to each physical function, whose COUNT is the occurrences since the last. -/
def Dev.mgmtRecord (d : Dev) (code : Nat) : Dev :=
  let now := d.time.osc
  let put (d : Dev) (v : Option (Nat × Nat)) : Dev := d.setLkk { d.lkk with throttle := Tbl.set none d.lkk.throttle code v }
  let emit (n : Nat) : Dev :=
    let (m, d) := d.mark srcLkk
    put (d.record { status := code, ctx := 0xFFFF, source := srcLkk, mark := m, count := n, tag := 0, detail := [] })
      (some (now, 0))
  match Tbl.get none d.lkk.throttle code with
  | none => emit 1
  | some (t, n) => if t + 10 ^ 9 ≤ now then emit (n + 1) else put d (some (t, n + 1))

/-! ### Bindings (R399) -/

/-- A message on a binding reaches the Lockkeeper: SMBus where it is enabled, PCIe VDM over a port's link; the
Lockkeeper runs, and the device is not frozen (R396). -/
def Dev.mctpUp (d : Dev) (b : Nat) : Bool :=
  d.lkk.state == 1 &&
    (if b = 0 then d.reg .lkkSmbEn 0 == 1 else (nth Port.init d.ports (b - 1)).linkUp)

/-- A message on a binding is acted on; a frozen device drops and counts it (R396). -/
def Dev.onMsg (d : Dev) (b : Nat) (f : Dev → Dev) : Dev :=
  if d.frozen then d.setLkk { d.lkk with dropped := sat32 (d.lkk.dropped + 1) }
  else if d.mctpUp b then f d else d

/-- A response: the command, its completion code and data. -/
def Dev.respond (d : Dev) (b cmd completion : Nat) (data : List Nat) : Dev := d.emit (.mgmt b cmd completion data)

/-- Command codes: MCTP control commands at 0, PLDM commands at 0x100 × (1 + type). -/
def cmdCtl (n : Nat) : Nat := n
def cmdPldm (type n : Nat) : Nat := 0x100 * (1 + type) + n

/-- Table 17-5. -/
def execMctpMalformed (b : Nat) (s : State) : Host.Outcome State Fault Refusal :=
  live (.mctpMalformed b) s fun d => d.onMsg b fun d => d.mgmtRecord 0x0440
def execMctpType (b : Nat) (s : State) : Host.Outcome State Fault Refusal :=
  live (.mctpType b) s fun d => d.onMsg b fun d => d.mgmtRecord 0x0441

/-- The SMBus interface is reset. -/
def execSmbusStuck (s : State) : Host.Outcome State Fault Refusal :=
  live .smbusStuck s fun d => d.onMsg 0 fun d => d.mgmtRecord 0x0446

/-! ### MCTP control (R399) -/

/-- Set Endpoint ID: 0x00 and 0xFF are no endpoint identifiers. -/
def execSetEndpointId (b eid : Nat) (s : State) : Host.Outcome State Fault Refusal :=
  live (.setEndpointId b eid) s fun d => d.onMsg b fun d =>
    if eid % 256 = 0 ∨ eid % 256 = 0xFF then d.respond b (cmdCtl 1) 2 []
    else (d.setLkk { d.lkk with eids := d.lkk.eids.set b (eid % 256) }).respond b (cmdCtl 1) 0 [eid % 256]

def execGetEndpointId (b : Nat) (s : State) : Host.Outcome State Fault Refusal :=
  live (.getEndpointId b) s fun d => d.onMsg b fun d => d.respond b (cmdCtl 2) 0 [nth 0 d.lkk.eids b]
def execGetEndpointUuid (b : Nat) (s : State) : Host.Outcome State Fault Refusal :=
  live (.getEndpointUuid b) s fun d => d.onMsg b fun d => d.respond b (cmdCtl 3) 0 Config.uuid

/-- DSP0236 1.3. -/
def execGetMctpVersionSupport (b : Nat) (s : State) : Host.Outcome State Fault Refusal :=
  live (.getMctpVersionSupport b) s fun d => d.onMsg b fun d => d.respond b (cmdCtl 4) 0 [1, 3]

/-- Types 0x00 and 0x01. -/
def execGetMessageTypeSupport (b : Nat) (s : State) : Host.Outcome State Fault Refusal :=
  live (.getMessageTypeSupport b) s fun d => d.onMsg b fun d => d.respond b (cmdCtl 5) 0 [0, 1]

/-! ### PLDM type 0 (R400) -/

def execSetTid (b tid : Nat) (s : State) : Host.Outcome State Fault Refusal :=
  live (.setTid b tid) s fun d => d.onMsg b fun d =>
    if tid % 256 = 0 ∨ tid % 256 = 0xFF then d.respond b (cmdPldm 0 1) 2 []
    else (d.setLkk { d.lkk with tid := tid % 256 }).respond b (cmdPldm 0 1) 0 []
def execGetTid (b : Nat) (s : State) : Host.Outcome State Fault Refusal :=
  live (.getTid b) s fun d => d.onMsg b fun d => d.respond b (cmdPldm 0 2) 0 [d.lkk.tid]

/-- The versions that R400 gives; that of type 0, which it does not give, is a free value. -/
def execGetPldmVersion (q : PldmQuery) (s : State) : Host.Outcome State Fault Refusal :=
  live (.getPldmVersion q) s fun d => d.onMsg q.binding fun d =>
    if q.type = 2 then d.respond q.binding (cmdPldm 0 3) 0 [1, 2]
    else if q.type = 5 then d.respond q.binding (cmdPldm 0 3) 0 [1, 1]
    else if q.type = 0 then
      let (n, d) := d.draw
      d.respond q.binding (cmdPldm 0 3) 0 [Config.freeNat n % 256, Config.freeNat n / 256 % 256]
    else d.respond q.binding (cmdPldm 0 3) 0x83 []

/-- Types 0, 2 and 5. -/
def execGetPldmTypes (b : Nat) (s : State) : Host.Outcome State Fault Refusal :=
  live (.getPldmTypes b) s fun d => d.onMsg b fun d => d.respond b (cmdPldm 0 4) 0 [0, 2, 5]

/-- Commands of a type that the device answers (R400). -/
def pldmCommands (type : Nat) : List Nat :=
  if type = 0 then [1, 2, 3, 4, 5]
  else if type = 2 then [0x04, 0x0A, 0x11, 0x21, 0x50, 0x51]
  else if type = 5 then [0x10, 0x13, 0x14, 0x1A, 0x1B, 0x1C, 0x1D] else []

def execGetPldmCommands (q : PldmQuery) (s : State) : Host.Outcome State Fault Refusal :=
  live (.getPldmCommands q) s fun d => d.onMsg q.binding fun d =>
    let l := pldmCommands q.type
    d.respond q.binding (cmdPldm 0 5) (if l.isEmpty then 0x83 else 0) l

/-- An unsupported command is answered with ERROR_UNSUPPORTED_PLDM_CMD. -/
def execErrorUnsupportedPldmCmd (b : Nat) (s : State) : Host.Outcome State Fault Refusal :=
  live (.errorUnsupportedPldmCmd b) s fun d => d.onMsg b fun d => d.respond b (cmdPldm 0 0) 5 []

/-! ### PLDM type 2 (R401). Records and sensors 1 to 10 are the numeric ones in the order of R401, 11 is GEN_STATE. -/

def sensorCount : Nat := 11

/-- The reading of a numeric sensor. -/
def Dev.sensor (d : Dev) (n : Nat) : Option Nat :=
  let p := d.power
  if n = 1 then some (nth 0 p.mv 0) else if n = 2 then some (nth 0 p.watts 0)
  else if n = 3 then some (nth 0 p.mv 1) else if n = 4 then some (nth 0 p.watts 1)
  else if n = 5 then some p.input
  else if 6 ≤ n ∧ n ≤ 10 then some (nth 0 d.lkk.temps (n - 6))
  else none

def execGetPdrRepositoryInfo (b : Nat) (s : State) : Host.Outcome State Fault Refusal :=
  live (.getPdrRepositoryInfo b) s fun d => d.onMsg b fun d => d.respond b (cmdPldm 2 0x50) 0 [sensorCount]
def execGetPdr (b rec : Nat) (s : State) : Host.Outcome State Fault Refusal :=
  live (.getPdr b rec) s fun d => d.onMsg b fun d =>
    if 1 ≤ rec ∧ rec ≤ sensorCount then d.respond b (cmdPldm 2 0x51) 0 [rec] else d.respond b (cmdPldm 2 0x51) 0x82 []
def execGetSensorReading (b sensor : Nat) (s : State) : Host.Outcome State Fault Refusal :=
  live (.getSensorReading b sensor) s fun d => d.onMsg b fun d =>
    match d.sensor sensor with
    | some v => d.respond b (cmdPldm 2 0x11) 0 [v]
    | none => d.respond b (cmdPldm 2 0x11) 0x80 []
def execGetStateSensorReadings (b sensor : Nat) (s : State) : Host.Outcome State Fault Refusal :=
  live (.getStateSensorReadings b sensor) s fun d => d.onMsg b fun d =>
    if sensor = sensorCount then d.respond b (cmdPldm 2 0x21) 0 [d.startup.gen.code]
    else d.respond b (cmdPldm 2 0x21) 0x80 []
def execSetEventReceiver (b eid : Nat) (s : State) : Host.Outcome State Fault Refusal :=
  live (.setEventReceiver b eid) s fun d => d.onMsg b fun d =>
    (d.setLkk { d.lkk with receiver := some (b, eid % 256) }).respond b (cmdPldm 2 0x04) 0 []
def execPlatformEventMessage (b : Nat) (s : State) : Host.Outcome State Fault Refusal :=
  live (.platformEventMessage b) s fun d => d.onMsg b fun d => d.respond b (cmdPldm 2 0x0A) 0 []

/-! ### PLDM type 5 (R402) -/

def Dev.modUpdate (d : Dev) (f : Update → Update) : Dev := d.setLkk { d.lkk with update := f d.lkk.update }

/-- A malformed command is answered with ERROR_INVALID_LENGTH or ERROR_INVALID_DATA, whichever the device finds. -/
def Dev.malformed (d : Dev) (b cmd : Nat) : Dev :=
  let (n, d) := d.draw
  (d.respond b cmd (if Config.freeBool n then 2 else 3) []).mgmtRecord 0x0442

/-- An update command outside its state. -/
def Dev.notExpected (d : Dev) (b cmd : Nat) : Dev := (d.respond b cmd 0x88 []).mgmtRecord 0x0443

/-- An update command on the update's own binding in one of its states. -/
def Dev.inUpdate (d : Dev) (b cmd : Nat) (states : List Nat) (f : Dev → Dev) : Dev :=
  if d.lkk.update.binding = b ∧ states.contains d.lkk.update.state then
    f (d.modUpdate fun u => { u with lastReq := d.time.osc })
  else d.notExpected b cmd

/-- One update runs at a time. -/
def execRequestUpdate (b : Nat) (wellFormed : Bool) (s : State) : Host.Outcome State Fault Refusal :=
  live (.requestUpdate b wellFormed) s fun d => d.onMsg b fun d =>
    let cmd := cmdPldm 5 0x10
    if !wellFormed then d.malformed b cmd
    else if d.lkk.update.state ≠ 0 then d.respond b cmd 0x81 []
    else (d.modUpdate fun _ => { Update.init with state := 1, binding := b, lastReq := d.time.osc }).respond b cmd 0 []

/-- The component table: READY XFER. -/
def execPassComponentTable (b : Nat) (wellFormed : Bool) (s : State) : Host.Outcome State Fault Refusal :=
  live (.passComponentTable b wellFormed) s fun d => d.onMsg b fun d =>
    let cmd := cmdPldm 5 0x13
    if !wellFormed then d.malformed b cmd
    else d.inUpdate b cmd [1] fun d => (d.modUpdate fun u => { u with state := 2 }).respond b cmd 0 []

/-- A component is offered: 0x0001 and 0x0002 are taken, and their images downloaded. -/
def execUpdateComponent (b comp : Nat) (wellFormed : Bool) (s : State) : Host.Outcome State Fault Refusal :=
  live (.updateComponent b comp wellFormed) s fun d => d.onMsg b fun d =>
    let cmd := cmdPldm 5 0x14
    if !wellFormed then d.malformed b cmd
    else d.inUpdate b cmd [2] fun d =>
      if comp = 1 ∨ comp = 2 then
        (d.modUpdate fun u => { u with state := 3, component := comp, image := [] }).respond b cmd 0 [0]
      else d.respond b cmd 0 [1]

/-- Bytes written into an image at an offset. -/
def imagePut (image : Bytes) (off : Nat) (bs : Bytes) : Bytes :=
  image.take off ++ zeros (off - image.length) ++ bs ++ image.drop (off + bs.length)

/-- A block of the image arrives. -/
def execRequestFirmwareData (b off : Nat) (bytes : Bytes) (s : State) : Host.Outcome State Fault Refusal :=
  live (.requestFirmwareData b off bytes) s fun d => d.onMsg b fun d =>
    d.inUpdate b (cmdPldm 5 0x15) [3] fun d => d.modUpdate fun u => { u with image := imagePut u.image off bytes }

/-- The image of the component is verified, and stands in the inactive slot of its kind. -/
def execVerifyComplete (b : Nat) (s : State) : Host.Outcome State Fault Refusal :=
  live (.verifyComplete b) s fun d => d.onMsg b fun d =>
    let cmd := cmdPldm 5 0x17
    d.inUpdate b cmd [3] fun d =>
      let u := d.lkk.update
      let ok := d.firmwareCode u.component u.image == 0
      let put (l : List (Option Bytes)) (active : Nat) := l.set (1 - active) (some u.image)
      let d := d.modFlash fun f => if u.component = 1 then { f with lkkSlots := put f.lkkSlots f.activeLkk }
        else { f with hgSlots := put f.hgSlots f.activeHg }
      let d := d.modUpdate fun u => { u with
        state := 2, component := 0, image := []
        verified := if ok then u.verified.filter (· != u.component) ++ [u.component]
                    else u.verified.filter (· != u.component) }
      if ok then d.respond b cmd 0 [0] else ((d.respond b cmd 0 [1]).verifyFailed).mgmtRecord 0x0445

/-- The verified images become active, and run from the next warm or full reset. -/
def execActivateFirmware (b : Nat) (wellFormed selfContained : Bool) (s : State) : Host.Outcome State Fault Refusal :=
  live (.activateFirmware b wellFormed selfContained) s fun d => d.onMsg b fun d =>
    let cmd := cmdPldm 5 0x1A
    if !wellFormed then d.malformed b cmd
    else d.inUpdate b cmd [2] fun d =>
      if selfContained then d.respond b cmd 0x8C []
      else
        let v := d.lkk.update.verified
        let d := d.modFlash fun f => { f with
          activeLkk := if v.contains 1 then 1 - f.activeLkk else f.activeLkk
          activeHg := if v.contains 2 then 1 - f.activeHg else f.activeHg }
        (d.modUpdate fun _ => Update.init).respond b cmd 0 []

def execGetStatus (b : Nat) (s : State) : Host.Outcome State Fault Refusal :=
  live (.getStatus b) s fun d => d.onMsg b fun d =>
    (if d.lkk.update.binding = b then d.modUpdate fun u => { u with lastReq := d.time.osc } else d).respond b
      (cmdPldm 5 0x1B) 0 [d.lkk.update.state]

/-- The component's download ends: READY XFER again. -/
def execCancelUpdateComponent (b : Nat) (s : State) : Host.Outcome State Fault Refusal :=
  live (.cancelUpdateComponent b) s fun d => d.onMsg b fun d =>
    let cmd := cmdPldm 5 0x1C
    d.inUpdate b cmd [3] fun d => (d.modUpdate fun u => { u with state := 2, component := 0, image := [] }).respond b cmd 0 []

def execCancelUpdate (b : Nat) (s : State) : Host.Outcome State Fault Refusal :=
  live (.cancelUpdate b) s fun d => d.onMsg b fun d =>
    let cmd := cmdPldm 5 0x1D
    d.inUpdate b cmd [1, 2, 3] fun d => (d.modUpdate fun _ => Update.init).respond b cmd 0 []

/-- The update agent has been silent for 120 s. -/
def execPldmUpdateTimeout (at_ : Nat) (s : State) : Host.Outcome State Fault Refusal :=
  live (.pldmUpdateTimeout at_) s fun d =>
    let d := d.advance at_
    if d.lkk.update.state ≠ 0 ∧ d.lkk.update.lastReq + 120 * 10 ^ 9 ≤ d.time.osc then
      (d.modUpdate fun _ => Update.init).mgmtRecord 0x0444
    else d

end Sys2Proof.Machine
end

