-- ==== Sys2Proof/Machine/OfftakeOps.lean ====
section
/-!
DEFINITION. Offtake packages, their install, switch and removal, and the capture ring's registers (10 R248 to R254).
-/
namespace Sys2Proof.Machine

/-! ### Packages (R248) -/

/-- The index is in strictly ascending (TILE_ROW, TILE_COL), and within the tensor. -/
def indexOk (b : Bytes) (t : OftTensor) : Bool :=
  (List.range t.tiles).all fun i =>
    let x := tileAt b t.offset i
    decide (x.1 < t.rows / 32 ∧ x.2 < t.cols / 32) &&
      (i == 0 || (let y := tileAt b t.offset (i - 1); decide (y.1 < x.1 ∨ (y.1 = x.1 ∧ y.2 < x.2))))

/-- A tensor's directory entry and its tile data, which ends before the signature. -/
def tensorOk (b : Bytes) (k : Nat) : Bool :=
  let t := tensorAt b k
  let o := 64 + 32 * k
  t.rows % 32 == 0 && t.cols % 32 == 0 && tileBytes t.fmt != 0 && allZero ((b.drop (o + 13)).take 3) &&
    decide (1 ≤ t.tiles ∧ t.tiles ≤ t.rows / 32 * (t.cols / 32)) && allZero ((b.drop (o + 20)).take 4) &&
    t.offset % 8 == 0 &&
    decide (64 + 32 * leAt b 12 4 ≤ t.offset ∧
      roundUp (t.offset + 4 * t.tiles) 8 + t.tiles * tileBytes t.fmt ≤ b.length - sigBytes) && indexOk b t

/-- Check 1 of Table 10-6, for a package of tenant t whose order gives its length. -/
def packageOk (b : Bytes) (t : Nat) : Bool :=
  let n := leAt b 12 4
  leAt b 0 4 == 0x4B54464F && leAt b 4 2 == 1 && decide (leAt b 6 2 ≤ 0xFFFE) && decide (1 ≤ leAt b 8 2) &&
    leAt b 10 2 == t && decide (1 ≤ n ∧ n ≤ 65536) && leAt b 32 8 == b.length && allZero ((b.drop 44).take 20) &&
    decide (64 + 32 * n + sigBytes ≤ b.length) && strictly true ((tensorsOf b).map fun x => x.tensor) &&
    (List.range n).all (tensorOk b)

/-- Check 2: the policy's Offtake key and the signature (15 R349, Table 15-3). -/
def Dev.packageSigned (d : Dev) (b : Bytes) (t : Nat) : Nat :=
  let key : Option PolKey := match d.sec.policy with
    | none => none
    | some p => p.keys.find? fun x => x.id == leAt b 40 4 && x.use == 2 && (x.tenant == t || x.tenant == 0xFFFF)
  match key with
  | none => 0x0503
  | some k => if signedBy k.pub b then 0 else 0x0504

/-- Check 3: a resident teacher of the district, with each tensor at equal ROWS and COLS. -/
def Dev.baseOk (d : Dev) (k : Nat) (b : Bytes) : Bool :=
  let id := leAt b 16 16
  (d.cache.any fun (_, e) => e.live && e.district == k && e.kind == 1 && e.modelId == id && e.state == .resident) &&
    (tensorsOf b).all fun t => Config.teacherShape id t.tensor == some (t.rows, t.cols)

/-- Bytes that a version is charged (R250). -/
def oftBytes (b : Bytes) : Nat := roundUp (b.length - sigBytes) 65536

/-- Versions of a variant that are current or retiring. -/
def Dev.versions (d : Dev) (t variant : Nat) : List OftVer := d.ofts.filter fun v => v.tenant == t && v.variant == variant

/-- The checks of Table 10-6 in their order: the first code, or 0. -/
def Dev.installCode (d : Dev) (k t : Nat) (b : Bytes) : Nat :=
  let variant := leAt b 6 2
  if !packageOk b t then 0x0143
  else if d.packageSigned b t ≠ 0 then d.packageSigned b t
  else if !d.baseOk k b then 0x0141
  else if (d.versions t variant).any fun v => decide (leAt b 8 2 ≤ v.version) then 0x0146
  else if d.ofts.length + d.oftInsts.length ≥ 4096 then 0x0145
  else if d.chargedMem t + oftBytes b > d.reg .intQuota t * gib then 0x0144
  else if d.oftInsts.any fun x => x.ver.tenant == t && x.ver.variant == variant then 0x0147
  else 0

/-- An Offtake order is refused. -/
def Dev.refuseOft (d : Dev) (o : Order) (code : Nat) : Dev :=
  let d := match d.districtOf o.ctx with
    | some k => if d.isServe k then d.countCode k code else d
    | none => d
  let d := if code / 256 = 5 then d.verifyFailed else d
  d.failOrder o.id code (d.hgSource o.ctx)

/-- OFFTAKE_INSTALL (R249, R250): the copy takes frames of the district's general pool (DESIGN CHOICE, log entry 56). -/
def Dev.install (d : Dev) (o : Order) : Dev :=
  let t := o.ctx
  let addr := leAt o.body 0 8
  if addr % 64 ≠ 0 ∨ allZero (o.body.drop 12) = false then d.refuseOft o 0x0143
  else if leAt o.body 8 4 = 0 then d.endOrder o.id 0 (d.hgSource t) true else
  let w : Accessor := { d.hgAcc t with order := some o.id }
  match d.readCtx w t addr (leAt o.body 8 4), d.districtOf t with
  | .error e, _ =>
    if e = 0x0320 ∨ e = 0x0321 ∨ e = 0x0327 then d.refuseOft o 0x0143 else d.noteFault w t e (d.badAt t addr (leAt o.body 8 4))
  | .ok (b, d), some k =>
    let code := d.installCode k t b
    if code ≠ 0 then d.refuseOft o code else
    let (place, missing) := d.frames k 65536 (oftBytes b)
    if missing ≠ 0 then d.refuseOft o 0x0144 else
    let v : OftVer := { tenant := t, variant := leAt b 6 2, version := leAt b 8 2, base := leAt b 16 16, district := k,
                        charge := oftBytes b, place, current := false, pins := 0 }
    let d := (d.trafficAll w place true).writePieces place (b.take (b.length - sigBytes))
    (d.setOftInsts (d.oftInsts ++ [{ order := o.id, ver := v }])).runOrder o.id
  | .ok _, none => d.refuseOft o 0x0143

/-- The switch instant of a variant is recorded. -/
def Dev.oftMark (d : Dev) (t variant : Nat) : Dev :=
  let (m, d) := d.mark (d.hgSource t)
  d.setOftTimes (Tbl.set 0 d.oftTimes (t * 65536 + variant) m)

/-- No version of a variant is current any more; those without a pin are freed. -/
def Dev.oftEnd (d : Dev) (t variant : Nat) : Dev :=
  (d.setOfts (d.ofts.map fun v => if v.tenant = t ∧ v.variant = variant then { v with current := false } else v)).retireOfts

/-- The copy of an install is complete: its version becomes current (R250). -/
def Dev.oftSwitch (d : Dev) (o : OrderId) : Dev :=
  match d.oftInsts.find? fun x => x.order == o with
  | none => d
  | some x =>
    let v := x.ver
    let d := (d.setOftInsts (d.oftInsts.filter fun x => x.order != o)).oftEnd v.tenant v.variant
    let d := (d.setOfts (d.ofts ++ [{ v with current := true }])).oftMark v.tenant v.variant
    d.doneOrder o (d.hgSource v.tenant)

/-- OFFTAKE_REMOVE (R250). -/
def Dev.oftRemove (d : Dev) (o : Order) : Dev :=
  let t := o.ctx
  let variant := leAt o.body 0 2
  if !allZero (o.body.drop 2) then d.refuseOft o 0x0143
  else if d.oftInsts.any fun x => x.ver.tenant == t && x.ver.variant == variant then d.refuseOft o 0x0147
  else match d.oftCurrent t variant with
    | none => d.endOrder o.id 0 (d.hgSource t) true
    | some _ => let d := (d.oftEnd t variant).oftMark t variant; d.doneOrder o.id (d.hgSource t)

/-- A write of OFT_CAP_ADDR or OFT_CAP_ENTRIES (R254): v is the register's field. -/
def Dev.capWrite (d : Dev) (k : Nat) (entries : Bool) (v : Nat) : Dev :=
  if !d.isServe k then d
  else if (d.reqsOf k).any fun r => r.desc.capture then
    (d.modServe k fun x => { x with capRefused := sat32 (x.capRefused + 1) }).countOft k 8
  else
    let d := if entries then d.putReg .oftCapEntries k (min 65536 v) else d.putReg .oftCapAddr k v
    (d.putReg .oftCapTail k 0).modServe k fun x => { x with capHead := 0 }

end Sys2Proof.Machine
end

