-- ==== Sys2Proof/Machine/Offtake.lean ====
section
/-!
DEFINITION. The commands of Offtakes and of the capture ring (10 R249, R250, R254).
-/
namespace Sys2Proof.Machine

/-- R249: OFFTAKE_INSTALL. -/
def execOfftakeInstall (o : OrderId) (s : State) : Host.Outcome State Fault Refusal :=
  liveUnit (.offtakeInstall o) s fun d =>
    match d.taken o opInstall with
    | none => d
    | some x => (d.install x).resettle x.ctx

/-- R250: the copy of an install completes. -/
def execOfftakeSwitch (o : OrderId) (s : State) : Host.Outcome State Fault Refusal :=
  live (.offtakeSwitch o) s fun d =>
    match d.runningOrder o opInstall with
    | none => d
    | some x => (d.oftSwitch o).resettle x.ctx

/-- R250: OFFTAKE_REMOVE. -/
def execOfftakeRemove (o : OrderId) (s : State) : Host.Outcome State Fault Refusal :=
  live (.offtakeRemove o) s fun d =>
    match d.taken o opRemove with
    | none => d
    | some x => (d.oftRemove x).resettle x.ctx

/-- R254: a write to the capture ring's registers of a district. -/
def execCaptureRingWrite (d : Nat) (entries : Bool) (value : DWord) (s : State) : Host.Outcome State Fault Refusal :=
  live (.captureRingWrite d entries value) s fun x =>
    x.capWrite d entries (if entries then fld value.toNat 0 17 else fld value.toNat 6 58)

end Sys2Proof.Machine
end

