-- ==== Sys2Proof/Machine/SurveyOps.lean ====
section
/-!
DEFINITION. The commit of districts and the commands of SRV_CMD (02 R48 to R56, 11 R260, R261, R279, 13 R303, R309).
-/
namespace Sys2Proof.Machine

/-! ### Regions of a district's memory (11 R260, 13 R309) -/

/-- The run of home ranges that holds the staging area and the spill region: the highest, or if it is too short the
largest, the highest of equals. -/
def regionRun (runs : List (Nat × Nat)) (need : Nat) : Nat × Nat :=
  match runs.getLast? with
  | none => (0, 0)
  | some top =>
    if need ≤ top.2 then top
    else runs.foldl (fun best r => if best.2 ≤ r.2 then r else best) (0, 0)

/-- The regions of a set of devices: staging area, spill region and save area, for n fields. -/
def Dist.placeRegions (x : Dist) (set : List Nat) (staging spill n : Nat) : Dist :=
  let run := regionRun (homeRuns set) ((staging + spill) * gib)
  let room := run.2 / gib
  let st := min staging room
  let sp := min spill (room - st)
  let stBase := run.1 + run.2 - st * gib
  let spBase := stBase - sp * gib
  let pool := sortBy Prod.fst (cutAll (homeRuns set) [(stBase, st * gib), (spBase, sp * gib)])
  let low := pool.headD (0, 0)
  { x with devices := set, stagingGib := st, spillGib := sp, stagingBase := stBase, spillBase := spBase
           saveBase := low.1, saveBytes := min (saveBytesOf n) low.2 }

/-! ### Fields and cores -/

/-- The pool that a core of a field of district k belongs to (04 R84, 09 R236). -/
def Dev.homePool (d : Dev) (k i : Nat) : Pool :=
  if d.isTrain k then .train else if isRunnel i then .decode else .prefill

/-- The cores of a field that stand in no pool of district k, and are not fenced, join their home pools (R49); none of them
is lent. -/
def Dev.takeCores (d : Dev) (k f : Nat) : Dev :=
  let new := (coresIn f).filter fun i => !d.fenced kCore i && (d.core i).pool == .none
  let d := d.modServe k fun x => { x with lent := x.lent.filter fun i => !new.contains i }
  new.foldl (fun d i => d.modCore i fun x => { x with pool := d.homePool k i, toPool := none }) d

/-- A field joins a district: it is brought up on demand. -/
def Dev.joinField (d : Dev) (k f : Nat) (opMin : Nat) : Dev :=
  (d.modField f fun x => { x with district := some k, state := .off, opPoint := opMin, opChange := none }).takeCores k f

/-- A field leaves its district: its ponds are cleared and it is power-gated (R53); its cores are lent no more. -/
def Dev.leaveField (d : Dev) (f : Nat) : Dev :=
  let d := match (d.field f).district with
    | none => d
    | some k => d.modServe k fun x => { x with lent := x.lent.filter fun i => i / 16 != f }
  let d := (coresIn f).foldl (fun d i => d.modCore i fun x => { x with
    pool := .none, toPool := none, held := none, starting := none, restoring := none, saving := false
    stop := none, stopped := false }) d
  let d := d.setSaves (d.saves.filter fun r => r.core / 16 != f)
  (d.powerOff f (if d.fenced kField f then .fenced else .off)).modField f fun x => { x with
    district := none, held := false, opChange := none, inTest := false }

/-! ### Memory that leaves or moves -/

/-- Lines of the ways that a district gives up are written back and invalidated (R53). -/
def Dev.leaveWays (d : Dev) (old new : Nat) : Dev :=
  d.setLines ((d.lines.map fun (k, ls) =>
    let t := k / 0x100000
    (k, ls.filter fun l => !(bit (fld old (16 * t) 16) l.1 && !bit (fld new (16 * t) 16) l.1))).filter fun x => !x.2.isEmpty)

/-- CXL ranges that leave are scrubbed, and entries backed on them deleted (R53, 11 R279). -/
def Dev.leaveCxl (d : Dev) (k : Nat) (old new : List (Nat × Nat)) : Dev :=
  let bytes (l : List (Nat × Nat)) : List (Nat × Nat) := l.map fun r => (cxlBase + r.1 * gib, r.2 * gib)
  let d := (cutAll (bytes old) (bytes new)).foldl (fun d r => d.scrub r.1 r.2) d
  (d.cache.filter fun (_, e) => e.live && e.district == k && e.backing == 1 &&
      !(cutAll [(e.backAddr, e.bytes)] (bytes new)).isEmpty).foldl (fun d (i, _) => d.deleteEntry i srcLkk) d

/-- What a chunk held that a rebuilt set cannot read back is unknown: the device it stood on is lost (11 R262). -/
def Dev.forget (d : Dev) (a n : Nat) : Dev :=
  let (m, d) := d.draw
  d.write a ((List.range n).map fun i => BitVec.ofNat 8 (Config.freeNat (2 ^ 64 * m + i)))

/-- The holes of district k in the home ranges that a new set keeps. -/
def Dev.lostChunks (d : Dev) (k : Nat) (set : List Nat) : List (Nat × Nat) :=
  if set = (d.dist k).devices then [] else
  ((d.dist k).devices.filter set.contains).flatMap fun v => d.holesIn k (v * homeBytes, homeBytes)

/-- GDDR7 devices that leave a set or join it: their home ranges are scrubbed, or start zeroed (11 R261). -/
def Dev.moveDevices (d : Dev) (old new : List Nat) : Dev :=
  let d := (old.filter fun x => !new.contains x).foldl (fun d x =>
    (d.scrub (x * homeBytes) homeBytes).putMemDev x { d.memDev x with
      state := if d.fenced kDevice x then .fenced else .unowned }) d
  (new.filter fun x => !old.contains x).foldl (fun d x =>
    (d.scrub (x * homeBytes) homeBytes).putMemDev x { d.memDev x with
      state := if d.fenced kDevice x then .fenced else .active }) d

/-- The moves of a re-survey end: no device of a set or of the one that comes shows MIGRATING any more (11 R261). -/
def Dev.endMoves (d : Dev) (k : Nat) : Dev :=
  let x := d.dist k
  let d := (x.devices ++ x.newSet.getD []).foldl (fun d v => match (d.memDev v).state with
    | .migrating => d.putMemDev v { d.memDev v with state := if x.devices.contains v then .active else .unowned }
    | _ => d) d
  d.modDist k fun x => { x with migrate := 0, newSet := none }

/-- A mapped range that the save area takes moves to free frames (13 R309). -/
def Dev.moveMapping (d : Dev) (c : Nat) (m : Mapping) : Dev :=
  let k := (d.districtOf c).getD 16
  let (l, miss) := d.frames k m.page m.bytes
  if miss ≠ 0 then d else
  let bs := d.read m.phys m.bytes
  let d := (d.scrub m.phys m.bytes).writePieces l bs
  let parts := (l.foldl (fun (acc : Nat × List Mapping) r =>
    (acc.1 + r.2, acc.2 ++ [{ m with va := m.va + acc.1, bytes := r.2, phys := r.1 }])) (0, [])).2
  d.modCtx c fun x => { x with maps := x.maps.flatMap fun y => if y.va = m.va then parts else [y] }

/-- An Offtake copy that the save area takes moves to free frames. -/
def Dev.moveOft (d : Dev) (k : Nat) (area : Nat × Nat) (v : OftVer) : Dev :=
  if !v.place.any fun r => overlap r.1 r.2 area.1 area.2 then d else
  let n := sumNat (v.place.map Prod.snd)
  let (l, miss) := d.frames k 65536 n
  if miss ≠ 0 then d else
  let bs := d.readPieces v.place
  let d := (d.scrubPlace v.place).writePieces l bs
  d.setOfts (d.ofts.map fun w => if w.tenant = v.tenant ∧ w.variant = v.variant ∧ w.version = v.version then { w with place := l } else w)

/-- Entries of a district after its regions have moved: a staged one outside the staging area and a resident one outside
the kept home ranges return to BACKED, as does a load whose place has gone; a resident one that a region covers moves to
the lowest fit, for which unpinned ones make room, or returns to BACKED (11 R279, 13 R309). -/
def Dev.moveEntry (d : Dev) (k i : Nat) : Dev :=
  let e := d.entry i
  let x := d.dist k
  let inside (l : List (Nat × Nat)) : Bool := (cutAll [(e.home, e.bytes)] l).isEmpty
  let staging := [(x.stagingBase, x.stagingGib * gib)]
  match e.state with
  | .staged => if inside staging then d else d.unplace i
  | .resident =>
    if inside x.pool then d
    else if !inside (homeRuns x.devices) then d.unplace i
    else match d.place k false e.bytes i with
      | none => d.unplace i
      | some (a, d) =>
        let bs := d.read e.home e.bytes
        (((d.scrub e.home e.bytes).write a bs).modEntry i fun e => { e with home := a }).writeHome i
  | .loading => if inside (if e.toStaging then staging else x.pool) then d else d.loadFail i 0x0220
  | .backed => d

/-- Everything of a district moves out of the way of its regions, the pinned entries before the others. -/
def Dev.clearRegions (d : Dev) (k : Nat) : Dev :=
  let x := d.dist k
  let area := (x.saveBase, x.saveBytes)
  let d := (d.ctxsOf k).foldl (fun d c =>
    let d := ((d.ctx c).maps.filter fun m => overlap m.phys m.bytes area.1 area.2).foldl (fun d m => d.moveMapping c m) d
    if (d.ctx c).tables.any fun r => overlap r.1 r.2 area.1 area.2 then d.retable k c else d) d
  let d := (d.ofts.filter fun v => v.district == k).foldl (fun d v => d.moveOft k area v) d
  let l := d.cache.filter fun (_, e) => e.live && e.district == k
  ((l.filter fun q => q.2.pinned) ++ l.filter fun q => !q.2.pinned).foldl (fun d q => d.moveEntry k q.1) d

/-! ### Contexts -/

/-- The system context of a district is torn down: the district is removed, or changes its role (13 R315). -/
def Dev.dropSystem (d : Dev) (c : Nat) : Dev :=
  let d := d.stopCtxProgs c 0x0301 .teardown
  let d := d.dropWaits fun w => w.ctx == c
  let d := (d.gatesOf c).foldl Dev.freeGate d
  let d := d.endCtxOrders c 0x0301 0x0301 none
  let d := (d.ctx c).maps.foldl (fun d m => d.scrub m.phys m.bytes) d
  let d := d.accountCtx c
  let d := if (d.ctx c).slot = 0xFF then d else d.putSlot (d.ctx c).slot 0x7FF
  d.modCtx c fun x => { Ctx.init with cycles := x.cycles, vtime := x.vtime }

/-- The system context of a committed district: it is resident from then on, and RUNNABLE without work (13 R300, R301). -/
def Dev.bringSystem (d : Dev) (k : Nat) : Dev :=
  let c := 1024 + k
  let d := (d.accountCtx c).putReg .schShares c 255
  match (d.ctx c).state with
  | .absent => (d.putSlot k c).modCtx c fun x => { x with
      state := .runnable, slot := k, keyGen := 1, idleSince := d.eff + 1, residentSince := d.eff }
  | _ => d

/-- A tenant that leaves its district is torn down as a faulted context is (R53, 13 R315). -/
def Dev.dropTenant (d : Dev) (t : Nat) : Dev :=
  let d := d.leaveGroup ((d.districtOf t).getD 16) t
  match (d.ctx t).state with
  | .absent => d
  | .faulted => d.putCtx t { Ctx.init with cycles := (d.ctx t).cycles }
  | .teardown => d.modCtx t fun x => { x with afterTeardown := .absent }
  | _ => (d.teardown t 0 none .absent).endTeardown t

/-- A tenant's registers and context as the image has them (R56, 13 R303, 15 R346). -/
def Dev.bringTenant (d : Dev) (t : Nat) (x : TenantEnt) : Dev :=
  let d := (d.accountCtx t).settleBucket t
  let d := ((d.putReg .intQuota t x.quotaGib).putReg .intEnergy t x.energyW).putReg .schShares t x.weight
  (match (d.ctx t).state with
    | .absent => (d.modCtx t fun y => { y with state := .idle }).freshKey t
    | .teardown => d.modCtx t fun y => { y with
        afterTeardown := if y.afterTeardown = CtxState.absent then CtxState.idle else y.afterTeardown }
    | _ => d).regroup t

/-! ### Commits -/

/-- Tunable values of a district take those of its image (R56, 07 R177). -/
def Dev.loadTunables (d : Dev) (k : Nat) (e : DistEnt) (wasTrain reload : Bool) : Dev :=
  let d := ((((d.putReg .altCeil k e.contW).putReg .altOpMin k e.opMin).putReg .gauMode k e.mode).putReg .gauConvNan k
    e.convNan)
  let d := (d.putReg .intMaxBasin k e.maxBasinLent).putReg .intMaxRunnel k e.maxRunnelLent
  if e.role = 1 then
    ((d.putReg .cflDeadline k e.deadlineUs).putReg .cflNonfinite k e.nonfinite).gaugeCommit k e (!wasTrain) reload
  else d

/-- What Intake keeps of a district that is no longer a SERVE district goes. -/
def Dev.endServe (d : Dev) (k : Nat) : Dev :=
  d.modServe k fun x => { x with profiles := [], prefixes := [], groups := [], step := none, lent := [], v := 0 }

/-- District k takes an entry (R49, R53 step 4). Its tenants are those of the committed image. -/
def Dev.placeDist (d : Dev) (k : Nat) (e : DistEnt) (reload : Bool) : Dev :=
  let x := d.dist k
  let old := x.ent
  let role0 := match old with | none => 0 | some o => o.role
  let fields := (bitsOf e.fieldMask 16).filter fun f => !d.fenced kField f
  let set := x.newSet.getD ((bitsOf e.deviceMask 32).filter fun v => !d.fenced kDevice v)
  let d := if role0 = 1 ∧ e.role ≠ 1 then d.dropPending k else d
  let d := if old.isSome ∧ role0 ≠ e.role then (d.dropSystem (1024 + k)).endServe k else d
  let d := (bitsOf x.fields 16).foldl (fun d f => if fields.contains f ∧ role0 = e.role then d else d.leaveField f) d
  let d := d.leaveWays (match old with | none => 0 | some o => o.wayMask) e.wayMask
  let d := d.leaveCxl k (match old with | none => [] | some o => o.cxl) e.cxl
  let lostNow := d.lostChunks k set
  let d := d.moveDevices x.devices set
  let d := set.foldl (fun d v => if d.fenced kDevice v then d else d.putMemDev v { d.memDev v with state := .active }) d
  let d := lostNow.foldl (fun d r => d.forget r.1 r.2) d
  let d := d.putDist k ({ x with
    state := if fields.isEmpty || set.all d.lost then .inert else .active
    ent := some e, fields := maskOf fields, migrate := 0, newSet := none }.placeRegions set e.stagingGib e.cisternSpillGib fields.length)
  let d := fields.foldl (fun d f =>
    if (d.field f).district = some k then (d.takeCores k f).retune f else d.joinField k f e.opMin) d
  let d := d.loadTunables k e (role0 == 1 && x.state != .absent) reload
  let d := d.bringSystem k
  let tens : Tbl TenantEnt := match d.survey.committed with | none => [] | some i => i.tenants
  let d := tens.foldl (fun (d : Dev) q => if q.2.district = k then d.bringTenant q.1 q.2 else d) d
  d.clearRegions k

/-- All that a district has goes: its entries, its system context, its fields, ways, ranges and devices (R53, 11
R279). -/
def Dev.dropDist (d : Dev) (k : Nat) : Dev :=
  let x := d.dist k
  match x.ent with
  | none => d.putDist k Dist.init
  | some o =>
    let d := d.endMoves k
    let d := if o.role = 1 then d.dropPending k else d
    let d := (d.cache.filter fun (_, e) => e.live && e.district == k).foldl (fun d (i, _) => d.deleteEntry i srcLkk) d
    let d := (d.dropSystem (1024 + k)).endServe k
    let d := (bitsOf x.fields 16).foldl (fun d f => d.leaveField f) d
    let d := ((d.leaveWays o.wayMask 0).leaveCxl k o.cxl []).moveDevices x.devices []
    d.putDist k Dist.init

/-- The CXL backing of a district's entries is under its system key (11 R270). -/
def Dev.cxlBackings (d : Dev) (k : Nat) : List (Nat × Nat) :=
  (d.cache.filter fun (_, e) => e.live && e.district == k && e.backing == 1).map fun (_, e) => (e.backAddr, e.bytes)

/-- District k is removed by a commit: its system key epoch advances, and what it left under the old key in CXL devices
cannot be read again (15 R346). -/
def Dev.removeDist (d : Dev) (k : Nat) : Dev :=
  if (d.dist k).ent.isNone then d.dropDist k else
  let d := (d.cxlBackings k).foldl (fun d r => d.forget r.1 r.2) d
  (d.dropDist k).modFlash fun f => { f with sysEpoch := f.sysEpoch.set k (w32 (nth 0 f.sysEpoch k + 1)) }

/-- Tenants of district k that a new image takes out of it. -/
def Dev.leavers (d : Dev) (k : Nat) (i : Image) : List Nat :=
  (List.range 1024).filter fun t =>
    (d.tenant t).district == k && (Tbl.get TenantEnt.none i.tenants t).district != k

/-- The image becomes the committed one: SERIAL, the lock of the RWL fields, the Silt entry and the digest (R48, R53). The
rotation entry in force goes on where the image has it. -/
def Dev.takeImage (d : Dev) (i : Image) (bs : Bytes) : Dev :=
  let now := d.sched.rot.bind fun q => (d.rotEnt q.1).map fun e => (e, q.2)
  let d := d.setSurvey { d.survey with committed := some i, committedSerial := i.serial, locked := true }
  let d := d.setSec { d.sec with surveyDigest := shake256 bs 32 }
  let rot := now.bind fun q => (d.rotTable.2.findIdx? fun e => e == q.1).map fun j => (j, q.2)
  let d := d.setSched { d.sched with rot, rtDispatched := d.sched.rtDispatched && rot.isSome }
  d.siltEv srcLkk 0x0007 0 0 0 i.serial

/-- Every district of an image is committed (R48, R55). -/
def Dev.commitAll (d : Dev) (bs : Bytes) : Dev :=
  let i := parseImage bs
  i.districts.foldl (fun d x => d.placeDist x.1 x.2 true) (d.takeImage i bs)

/-- District k of an image is committed (R53 steps 3 and 4). -/
def Dev.commitOne (d : Dev) (k : Nat) (bs : Bytes) : Dev :=
  let i := parseImage bs
  let d := (d.leavers k i).foldl Dev.dropTenant d
  let d := d.modPower fun p => { p with waiting := p.waiting.filter fun w => (d.field w.field).district != some k }
  match i.districts.find? fun x => x.1 == k with
  | some x => (d.takeImage i bs).placeDist k x.2 false
  | none => (d.removeDist k).takeImage i bs

/-! ### SRV_CMD (R51) -/

/-- A command of SRV_CMD ends with a code (R57). LAST_OP and CODE take their values at the end (DESIGN CHOICE, log entry
125). -/
def Dev.srvEnd (d : Dev) (port op code : Nat) : Dev :=
  let (m, d) := d.mark srcLkk
  let x := d.survey
  (d.setSurvey { x with code := x.code.set port code, lastOp := x.lastOp.set port op, doneTime := x.doneTime.set port m }).mgmtDone
    (pf port) .srvDone port

/-- STATE once no command runs. -/
def Survey.rest (x : Survey) : Survey :=
  { x with cmd := none, state := if x.staged.isSome then .staged else .idle }

/-- The staged image is consumed or discarded. -/
def Dev.dropStaged (d : Dev) : Dev := d.setSurvey (Survey.rest { d.survey with staged := none })

/-- The image that a function has staged. -/
def Dev.ownImage (d : Dev) (port : Nat) : Option (Image × Bytes) :=
  match d.survey.staged with
  | some (fn, i, bs) => if fn = pf port then some (i, bs) else none
  | none => none

/-- A re-survey with an image is accepted: the district drains (R53). -/
def Dev.startResurvey (d : Dev) (port k : Nat) (bs : Bytes) : Dev :=
  ((d.modDist k fun x => { x with state := .draining }).setSurvey { d.survey with
    state := .draining, cmd := some (port, 3, k), drainStart := d.eff, target := bs }).drainCheck

/-- What an SRV_CMD does once the survey unit is free (R51 to R55). flash: a write of the replay-protected region
succeeds (15 R347). -/
def Dev.srvRun (d : Dev) (port op k : Nat) (flash : Bool) : Dev :=
  let own := d.ownImage port
  if op = 1 then
    if d.survey.staged.isSome ∧ own.isNone then d.srvEnd port 1 0x0188
    else d.setSurvey { d.survey with staged := none, state := .verifying, cmd := some (port, 1, d.reg .srvImageLen port) }
  else if op = 6 then
    let f := d.sec.flash
    if d.survey.committedSerial ≤ f.surveyFloor then d.srvEnd port 6 0
    else if !flash then d.srvEnd port 6 0x050A
    else (d.setSec { d.sec with flash := { f with surveyFloor := d.survey.committedSerial } }).srvEnd port 6 0
  else if op = 0 ∨ op > 6 then d.srvEnd port op 0x0180
  else match own with
    | none => d.srvEnd port op 0x0187
    | some (_, bs) =>
      if op = 5 then d.dropStaged.srvEnd port 5 0
      else if op = 4 then
        let c := d.judgeCode bs false none
        if c ≠ 0 then d.srvEnd port 4 c
        else (d.setSec { d.sec with flash := { d.sec.flash with image := bs } }).dropStaged.srvEnd port 4 0
      else if op = 2 then
        if (List.range 16).any fun j => (d.dist j).state != .absent then d.srvEnd port 2 0x0189
        else
          let c := d.judgeCode bs true none
          if c ≠ 0 then d.srvEnd port 2 c else ((d.commitAll bs).dropStaged.srvEnd port 2 0)
      else
        let c := d.judgeCode bs true (some k)
        if c ≠ 0 then d.srvEnd port 3 c else d.startResurvey port k bs

/-- A write of SRV_CMD by a physical function: OP 0 has no effect, and one command runs at a time (R51). An undefined OP is
refused with 0x0188 where any other would be (DESIGN CHOICE, log entry 125). -/
def Dev.srvCmd (d : Dev) (port op k : Nat) (flash : Bool) : Dev :=
  if op = 0 then d
  else if d.survey.cmd.isSome ∨ !d.ready then d.srvEnd port op 0x0188
  else (d.srvRun port op k flash).pump

/-- The Lockkeeper has read the image, LEN bytes as the register stood when the command was accepted: it is verified and
staged (R38, R51, R425). -/
def Dev.stageDone (d : Dev) (bytes : Bytes) : Dev :=
  match d.survey.cmd with
  | some (port, 1, len) =>
    let bs := bytes.take len
    let c := d.verifyImage bs (some len) false
    let d := if c = 0x0503 ∨ c = 0x0504 then
        d.setSec { d.sec with verifyFail := sat32 (d.sec.verifyFail + 1) } else d
    (d.setSurvey (Survey.rest { d.survey with
      staged := if c = 0 then some (pf port, parseImage bs, bs) else none })).srvEnd port 1 c
  | _ => d

/-- The read of the image failed (R425). -/
def Dev.stageFail (d : Dev) (code : Nat) : Dev :=
  match d.survey.cmd with
  | some (port, 1, _) => (d.setSurvey d.survey.rest).srvEnd port 1 code
  | _ => d

/-- The optimiser phase of an order's step has begun and not ended (R54). -/
def Dev.inOptPhase (d : Dev) (o : OrderId) : Bool :=
  match d.step? o with | none => false | some x => x.optBegun && !x.optEnded

def Dev.progInOpt (d : Dev) (p : Prog) : Bool := match p.kind.order? with | none => false | some o => d.inOptPhase o

/-- The drain limit: work of a district that still runs stops, but for a step in its optimiser phase (R53, R54). -/
def Dev.drainStop (d : Dev) (k : Nat) : Dev :=
  let d := (d.orders.filter fun o => o.opcode == opTrain && d.districtOf o.ctx == some k && !d.inOptPhase o.id).foldl
    (fun d o => d.stopStep o.id) d
  let d := d.fields.foldl (fun d (f, x) => x.progs.foldl (fun d q =>
    if q.2.district = k ∧ d.progInOpt q.2 = false then d.stopProg f q.1 0x0220 .drainLimit else d) d) d
  let d := d.endQueued (fun _ p => p.district == k && !d.progInOpt p) 0x0220
  let d := (d.reqsOf k).foldl (fun d r => d.endReq r.num 3 0 0x0211) d
  let d := d.setOftInsts (d.oftInsts.filter fun x => x.ver.district != k)
  (d.orders.filter fun o => d.districtOf o.ctx == some k && (o.phase == .running || o.phase == .held ||
      o.phase == .dispatched) && o.fieldsLeft.isEmpty).foldl (fun d o =>
    let d := d.setSteps (d.steps.filter fun x => x.o != o.id)
    let d := d.setCache (d.cache.map fun (i, e) => (i, { e with waiting := e.waiting.filter fun w => w.1 != o.id }))
    d.failOrder o.id 0x0220 (d.hgSource o.ctx)) d

/-- APPLYING ends, and the new entry is in force (R53). -/
def Dev.applied (d : Dev) : Dev :=
  if d.ready = false then d else
  match d.survey.state, d.survey.cmd with
  | .applying, some (port, _, k) =>
    let d := d.commitOne k d.survey.target
    (d.setSurvey { d.survey with target := [] }).dropStaged.srvEnd port 3 0
  | _, _ => d

end Sys2Proof.Machine
end

