-- ==== Sys2Proof/Machine/Pcie.lean ====
section
/-!
DEFINITION. Violations by a PCIe partner, function-level resets, and the ports' links (14 R320, R322, R340; 16 R378;
18 R412, R419).
-/
namespace Sys2Proof.Machine

/-- Table 14-12: Unsupported Request. -/
def execPcieBarMiss (fn : Nat) (s : State) : Host.Outcome State Fault Refusal :=
  live (.pcieBarMiss fn) s fun d => (d.emit (.pcieAnswer fn 0)).violation fn 0x0400

/-- Table 14-12: handled with AER; a record. -/
def execPcieMalformed (fn : Nat) (s : State) : Host.Outcome State Fault Refusal :=
  live (.pcieMalformed fn) s fun d => d.violation fn 0x0407

/-- An order reads host memory through a load of a model cache entry. -/
def Dev.loadsFor (d : Dev) (o : OrderId) : Option Nat :=
  (d.cache.find? fun (_, e) => e.live && e.state == .loading && e.backing == 2 && e.waiting.any fun w => w.1 == o).map
    Prod.fst

/-- A device read of host memory fails (Table 14-12; 11 R276; 02 R425; 15 R357). -/
def Dev.readFails (d : Dev) (r : HostRead) (code : Nat) : Dev :=
  match r with
  | .ringFetch fn pair => if d.mayFetch fn pair then (d.ringError fn pair code).pump else d
  | .order o =>
    match d.order? o with
    | none => d
    | some x =>
      let d := if x.opcode = opDma ∧ x.phase = .running ∧ (dmaFields x.body).srcHost = true then
          d.failOrder o code (srcDma (engineOf (portOf o.fn)))
        else match d.loadsFor o with
          | some i => d.loadFail i 0x015A
          | none => d
      (d.resettle x.ctx).pump
  | .image => d.stageFail code
  | .security fn => d.secFail fn code

/-- Table 14-12, 0x0404. -/
def execPcieCplTimeout (r : HostRead) (s : State) : Host.Outcome State Fault Refusal :=
  live (.pcieCplTimeout r) s fun d => d.readFails r 0x0404

/-- Table 14-12, 0x0405. -/
def execPcieCplError (r : HostRead) (s : State) : Host.Outcome State Fault Refusal :=
  live (.pcieCplError r) s fun d => d.readFails r 0x0405

/-- Table 14-12, 0x0406: the order ends. -/
def execPcieAts (o : OrderId) (s : State) : Host.Outcome State Fault Refusal :=
  live (.pcieAts o) s fun d =>
    match d.order? o with
    | none => d
    | some x =>
      let b := dmaFields x.body
      let d := if x.opcode = opDma ∧ x.phase = .running ∧ (b.srcHost || b.dstHost) = true then
          d.failOrder o 0x0406 (srcDma (engineOf (portOf o.fn)))
        else match d.loadsFor o with
          | some i => d.loadFail i 0x0406
          | none => d
      (d.resettle x.ctx).pump

/-! ### Resets (R322) -/

def execVfFunctionLevelReset (t : Nat) (s : State) : Host.Outcome State Fault Refusal :=
  live (.vfFunctionLevelReset t) s fun d => ((d.resetVf t).resettle t).pump

def execPfFunctionLevelReset (port : Nat) (s : State) : Host.Outcome State Fault Refusal :=
  live (.pfFunctionLevelReset port) s fun d => (d.resetPf port).pump

def execVfEnableClear (port : Nat) (s : State) : Host.Outcome State Fault Refusal :=
  live (.vfEnableClear port) s fun d => (d.resetVfs port).pump

/-- Start-up is over. -/
def Dev.startedUp (d : Dev) : Bool :=
  match d.startup.gen with | .ready => true | .recovery => true | .dry => true | _ => false

def Dev.modPort (d : Dev) (port : Nat) (f : Port → Port) : Dev := d.setPorts (d.ports.modify port f)

/-- The link of a port goes down. -/
def Dev.portDown (d : Dev) (port : Nat) (perst : Bool) : Dev :=
  let d := if d.startedUp then (d.resetPort port).pump else d
  d.modPort port fun p => { p with linkUp := false, retry := false, perstReleased := p.perstReleased && !perst }

/-- R322: PERST is asserted. -/
def execPerstAssert (port : Nat) (s : State) : Host.Outcome State Fault Refusal :=
  live (.perstAssert port) s fun d => d.portDown port true

/-- R322: the link goes down. -/
def execLinkDown (port : Nat) (s : State) : Host.Outcome State Fault Refusal :=
  live (.linkDown port) s fun d => d.portDown port false

/-- 18 R412, R419: PERST is released, and the reference clock at that instant chooses the clock mode. -/
def execPerstRelease (port : Nat) (refclk : Bool) (s : State) : Host.Outcome State Fault Refusal :=
  live (.perstRelease port refclk) s fun d =>
    d.modPort port fun p =>
      if p.perstReleased then p
      else { p with perstReleased := true, clockMode := if refclk then 1 else 2 }

/-- 16 R378: a port completes link training, which it starts at the later of its PERST release and stage 2. -/
def execPcieLinkUp (port : Nat) (s : State) : Host.Outcome State Fault Refusal :=
  live (.pcieLinkUp port) s fun d =>
    let p := nth Port.init d.ports port
    if p.perstReleased ∧ p.linkUp = false ∧ 2 ≤ d.startup.stage then
      (d.modPort port fun p => { p with linkUp := true, retry := !d.retryOver }).wake (54 + port)
    else d

end Sys2Proof.Machine
end

