-- ==== Sys2Proof/Machine/RegOps.lean ====
section
/-!
DEFINITION. How one stored field takes a write (00 R6, R7, R13, 02 R56): its type, its bounds, and the rule of a
forbidden zero.
-/
namespace Sys2Proof.Machine

/-- The range of copy i of a field: that of its register table, or of Table 02-7. -/
def Dev.regRange (d : Dev) (r : Reg) (i : Nat) : Nat × Nat :=
  let e := d.ent? i
  match r with
  | .altCeil => match e with | none => (0, 0) | some e => (e.floorW, e.contW)
  | .altOpMin => match e, d.survey.committed with
    | some e, some c => (e.opMin, c.clock.length - 1)
    | _, _ => (0, 0)
  | .intMaxBasin => (0, match e with | none => 0 | some e => e.maxBasinLent)
  | .intMaxRunnel => (0, match e with | none => 0 | some e => e.maxRunnelLent)
  | .intQuota => (min 1 (d.tenant i).quotaGib, (d.tenant i).quotaGib)
  | .intEnergy => (min 1 (d.tenant i).energyW, (d.tenant i).energyW)
  | .cflDeadline => (1, match e with | none => 1 | some e => e.deadlineMaxUs)
  | _ => (r.info.min, r.info.max)

/-- Fields whose values are multiples: a value between two multiples takes the lower (DEDUCED, log entry 61). -/
def Reg.multiple : Reg → Nat
  | .intPrefillChunk => 64
  | .intParcelStride => 4096
  | _ => 1

/-- What a field holds once software has written v to it; old is what it held. -/
def Dev.taken? (d : Dev) (r : Reg) (i old v : Nat) : Nat :=
  match r.info.type with
  | .rw1c => old - old.land v
  | _ =>
    let (lo, hi) := d.regRange r i
    if r.info.nz ∧ v = 0 then old else
    match r.info.bound with
    | .none => v / r.multiple * r.multiple
    | .near => clamp v lo hi / r.multiple * r.multiple
    | .keep => if lo ≤ v ∧ v ≤ hi then v else old

/-- Software writes copy i of a field; one that keeps its value is left alone. -/
def Dev.writeField (d : Dev) (r : Reg) (i v : Nat) : Dev :=
  let n := d.taken? r i (d.reg r i) v
  if n = d.reg r i then d else d.putReg r i n

end Sys2Proof.Machine
end

