-- ==== Sys2Proof/Machine/SupplyOps.lean ====
section
/-!
DEFINITION. The two supplies, the windows of the Allotment, and the charges of energy (16 R360 to R369).
-/
namespace Sys2Proof.Machine

/-! ### Supplies (R360, R361) -/

/-- A voltage in 10 mV lies between 40 V and 60 V. -/
def inVolts (mv : Nat) : Bool := decide (4000 ≤ mv ∧ mv ≤ 6000)

/-- The input that the stage feeds from at two voltages: P_IN_A while it is in range, else P_IN_B, else none. -/
def sourceOf (mvA mvB : Nat) : Nat := if inVolts mvA then 1 else if inVolts mvB then 2 else 0

/-- The module limit has changed: a fall of it makes the Allotment test its fit (R367). -/
def Dev.limitNow (d : Dev) : Dev := if d.dry then d else d.limitFell.pump

/-- The stage switches to an input (R360). -/
def Dev.switchTo (d : Dev) (source : Nat) : Dev :=
  let d := d.modPower fun x => { x with source, switches := sat32 (x.switches + 1), backSince := none }
  let (m, d) := d.mark srcPower
  ((d.putReg .pwrSwitchTime 0 m).siltEv srcPower 0x0003 0 0 0 source).limitNow

/-- What outlives the loss of both supplies and every cold or full reset: the flash, the signals that come from outside
the module, and what CXL devices hold (15 R346). -/
def Dev.lostPower (d : Dev) : Dev :=
  { Dev.reset with
    time := { Time.init with osc := d.time.osc, refPresent := d.time.refPresent }
    mem := d.mem.filter fun q => inCxl q.1
    out := d.out, draws := d.draws
    ports := d.ports.map fun p => { Port.init with perstReleased := p.perstReleased, clockMode := p.clockMode }
    silt := { Silt.init with flash := d.silt.flash, nextSlot := d.silt.nextSlot }
    sec := { Sec.init with flash := d.sec.flash }
    power := { Power.init with mv := d.power.mv } }

/-- The copy in progress is complete: it stands in the next slot (17 R405). -/
def Dev.copyDone (d : Dev) : Dev :=
  match d.silt.copying with
  | [] => d
  | c :: r =>
    let j := d.silt.nextSlot
    let d := d.setSilt { d.silt with flash := d.silt.flash.set j (some c), nextSlot := 1 - j, copying := r }
    d.siltEv srcWeir 0x0031 0 0 0 (j + 2 ^ 32 * c.seq)

/-- A copy that no entry causes (17 R398, R405): the spec gives its header no cause (log entry 62). -/
def Dev.siltCopyFree (d : Dev) : Dev :=
  let (n, d) := d.draw
  d.siltCopy (Config.freeNat n % 65536)

/-- Every copy asked for is made. -/
def Dev.copyAll (d : Dev) : Dev := d.silt.copying.foldl (fun d _ => d.copyDone) d

/-! ### Windows (R362, R367) -/

/-- A window starts (R362): the one that ends is measured, and what a fall of the limit did is undone as far as the
fit allows. P_base is held in whole watts, rounded up (DESIGN CHOICE, log entry 57). -/
def Dev.startWindow (d : Dev) (wA wB : Nat) : Dev :=
  let x := d.power
  let input := wA + wB
  let d := d.modPower fun x => { x with
    window := d.time.cnt / 10 ^ 7, watts := [wA, wB], input, base := input - x.windowField / 10000, windowField := 0
    overs := if input > x.windowLimit then sat32 (x.overs + 1) else x.overs, windowLimit := d.limitW }
  let d := d.modPower fun x => { x with floorShort := d.floorShort }
  if x.acts.isEmpty then d else d.undoActs x.acts

/-! ### Charges (R366, R368) -/

/-- Energy of the field domains in the window. -/
def Dev.meterField (d : Dev) (uj : Nat) : Dev := d.modPower fun x => { x with windowField := x.windowField + uj }

def Dev.chargeCtx (d : Dev) (c uj : Nat) : Dev :=
  d.modPower fun x => { x with ctx := Tbl.set 0 x.ctx c (Tbl.get 0 x.ctx c + uj) }

def addAt (l : List Nat) (i n : Nat) : List Nat := l.set i (nth 0 l i + n)

def Dev.chargeIdle (d : Dev) (k uj : Nat) : Dev := d.modPower fun x => { x with idle := addAt x.idle k uj }

/-- A slot's charge against its grant (R366): the excess is an overrun. -/
def Dev.chargeGrant (d : Dev) (k f s uj : Nat) : Dev :=
  match d.grant? f s with
  | none => d
  | some g =>
    let d := d.putGrant f s (some { g with left := g.left - uj })
    if uj ≤ g.left then d else d.modPower fun x => { x with overrun := addAt x.overrun k (uj - g.left) }

/-- Energy split in proportion to weights: each share is the difference of two truncated sums, so that the shares add
up to it. -/
def splitUj (uj total : Nat) : Nat → List (Nat × Nat) → List (Nat × Nat)
  | _, [] => []
  | before, (n, w) :: l => (n, uj * (before + w) / total - uj * before / total) :: splitUj uj total (before + w) l

/-- A request's share: one charge a of 09 R224, to its order and its tenant. -/
def Dev.chargeShare (d : Dev) (n uj : Nat) : Dev :=
  match d.req? n with
  | none => d
  | some r => (d.chargeReq r uj).chargeCtx r.tenant uj

/-- A program's energy goes to its order and that order's context; a serving program's to the requests of its step by
their rows; what has no order or live request, to the program's context. -/
def Dev.chargeProg (d : Dev) (p : Prog) (uj : Nat) : Dev :=
  match p.kind with
  | .order o => match d.order? o with
    | none => d.chargeCtx p.ctx uj
    | some x => (d.modOrder o fun x => { x with charged := x.charged + uj }).chargeCtx x.ctx uj
  | .prefill n _ => if (d.req? n).isSome then d.chargeShare n uj else d.chargeCtx p.ctx uj
  | .decode k =>
    let rows : List (Nat × Nat) := match (d.serve k).step with
      | none => []
      | some st => (st.reqs.filter fun q => (d.req? q.1).isSome).map fun q => (q.1, 1 + q.2)
    if rows.isEmpty then d.chargeCtx p.ctx uj
    else (splitUj uj (sumNat (rows.map Prod.snd)) 0 rows).foldl (fun d q => d.chargeShare q.1 q.2) d

/-- Metered energy is posted (R368). A held field's phases are not charged (R367). -/
def Dev.postCharge (d : Dev) : Charge → Dev
  | .slot f s uj =>
    let d := d.meterField uj
    match d.prog f s with
    | none => match (d.field f).district with
      | none => d.modPower fun x => { x with device := x.device + uj }
      | some k => d.chargeIdle k uj
    | some p =>
      if (d.field f).held then d.chargeIdle p.district uj
      else ((d.modPower fun x => { x with fieldUj := addAt x.fieldUj p.district uj }).chargeGrant p.district f s
        uj).chargeProg p uj
  | .memory k uj => d.modPower fun x => { x with mem := addAt x.mem k uj }
  | .idle k uj => (d.meterField uj).chargeIdle k uj
  | .device uj => d.modPower fun x => { x with device := x.device + uj }

end Sys2Proof.Machine
end

