-- ==== Sys2Proof/Machine/Power.lean ====
section
/-!
DEFINITION. The commands of the power stage, of the Allotment and of the droop guard (16 R360 to R369).
-/
namespace Sys2Proof.Machine

/-- R360: the feeding input has left its range, and the other is in range. -/
def execSupplySwitch (mvA mvB : Nat) (s : State) : Host.Outcome State Fault Refusal :=
  always (.supplySwitch mvA mvB) s fun d =>
    let fed := if d.power.source = 1 then mvA else mvB
    if d.power.source ≠ 0 ∧ inVolts fed = false ∧ sourceOf mvA mvB ≠ 0 then
      (d.modPower fun x => { x with mv := [mvA, mvB] }).switchTo (sourceOf mvA mvB)
    else d

/-- R360: P_IN_A has stayed in range for 100 ms, and the stage returns to it. -/
def execSupplyReturn (at_ : Nat) (s : State) : Host.Outcome State Fault Refusal :=
  always (.supplyReturn at_) s fun d =>
    let d := d.advance at_
    match d.power.backSince with
    | none => d
    | some t => if d.power.source = 2 ∧ t + 10 ^ 8 ≤ d.time.osc then d.switchTo 1 else d

/-- R361: neither input is in range. The Silt record is copied to flash, and the module powers off. -/
def execSupplyLoss (mvA mvB : Nat) (s : State) : Host.Outcome State Fault Refusal :=
  always (.supplyLoss mvA mvB) s fun d =>
    if d.power.source ≠ 0 ∧ sourceOf mvA mvB = 0 then
      let d := d.modPower fun x => { x with mv := [mvA, mvB] }
      ((d.siltAt srcWeir 0x0004 0 0 0 0xFFFF (pack16 [mvA, mvB]) true).copyAll).lostPower
    else d

/-- A write of PWR_RATING (R360): the limits follow at once. -/
def Dev.pwrRating (d : Dev) (v : Nat) : Dev :=
  ((d.writeField .pwrRatingB 0 (fld v 16 16)).writeField .pwrRatingA 0 (fld v 0 16)).limitNow

/-- R360: a write of PWR_RATING by a physical function. -/
def execPwrRating (fn : Nat) (value : Word) (s : State) : Host.Outcome State Fault Refusal :=
  hosted fn (.pwrRating fn value) s fun d => if isPf fn then d.pwrRating value.toNat else d

/-- R360: an input that does not feed enters or leaves its range. -/
def execInputInRange (b mv : Nat) (s : State) : Host.Outcome State Fault Refusal :=
  always (.inputInRange b mv) s fun d =>
    if d.power.source = b + 1 then d else
    d.modPower fun x => { x with
      mv := x.mv.set b mv
      backSince := if b = 0 ∧ x.source = 2 then (if inVolts mv then some (x.backSince.getD d.time.osc) else none)
        else x.backSince }

/-- R362, R367: a 10 ms window of the time base starts. -/
def execAllotmentWindow (wA wB at_ : Nat) (s : State) : Host.Outcome State Fault Refusal :=
  live (.allotmentWindow wA wB at_) s fun d =>
    let d := d.advance at_
    if d.time.cnt / 10 ^ 7 ≠ d.power.window then (d.startWindow wA wB).pump else d

/-- R363: a request for a grant has waited ALT_GRANT_LIMIT ms. -/
def execAltGrantLimit (f sl at_ : Nat) (s : State) : Host.Outcome State Fault Refusal :=
  live (.altGrantLimit f sl at_) s fun d =>
    let d := d.advance at_
    match d.power.waiting.find? fun w => w.field == f && w.slot == sl with
    | none => d
    | some w =>
      if w.since + 10 ^ 6 * d.reg .altGrantLimit 0 ≤ d.eff then
        ((d.modPower fun x => { x with
          waiting := x.waiting.filter fun v => !(v.field == f && v.slot == sl) }).stopProg f sl 0x0171 .programEnd).pump
      else d

/-- R368: metered energy is posted. -/
def execChargePost (charge : Charge) (s : State) : Host.Outcome State Fault Refusal :=
  live (.chargePost charge) s fun d => d.postCharge charge

/-- R369: the droop guard halves the issue rate of a field's arrays. -/
def execDroopEngage (f : Nat) (s : State) : Host.Outcome State Fault Refusal :=
  live (.droopEngage f) s fun d =>
    if (d.field f).droopHalf then d
    else (d.accountField f).modField f fun x => { x with droopHalf := true, droops := sat32 (x.droops + 1) }

/-- R369: the full rate returns. -/
def execDroopRestore (f : Nat) (s : State) : Host.Outcome State Fault Refusal :=
  live (.droopRestore f) s fun d =>
    (d.accountField f).modField f fun x => { x with droopHalf := false }

end Sys2Proof.Machine
end

