-- ==== Sys2Proof/Machine/StartOps.lean ====
section
/-!
DEFINITION. The stages of start-up (16 R377, R379; 01 R35, R36) and the choice of a firmware slot (15 R350, R351).
-/
namespace Sys2Proof.Machine

/-! ### Stages (Table 16-9) -/

/-- Milliseconds from the start of start-up at which a stage ends at the latest. A warm reset starts at stage 3 and
leaves stage 4 out, and its stages keep their lengths (DESIGN CHOICE, log entry 63). -/
def stageMs (warm : Bool) (stg : Nat) : Nat :=
  let l := nth 0 [0, 10, 10, 90, 110, 510, 630, 730, 800] stg
  if !warm then l else if stg < 4 then l - 10 else l - 30

/-- A stage starts. -/
def Dev.inStage (d : Dev) (stg : Nat) : Dev := d.setStartup { d.startup with stage := stg }

/-- Stage 8: GEN_STATE reads HEADGATE_LOAD. -/
def Dev.toHeadgates (d : Dev) : Dev := (d.inStage 8).setGen .headgateLoad srcLkk

/-- Stage 7: the CXL ports that are not up stay DOWN, and GEN_STATE reads SURVEY_LOAD. -/
def Dev.toSurvey (d : Dev) : Dev :=
  let d := (List.range 4).foldl (fun d n => match (d.cxlPort n).state with
    | .training => d.putCxlPort n { d.cxlPort n with state := .down }
    | _ => d) d
  (d.inStage 7).setGen .surveyLoad srcLkk

/-- Stage 6 is over once every CXL port that is not fenced is up. -/
def Dev.linkCheck (d : Dev) : Dev :=
  if d.startup.stage = 6 ∧ (List.range 4).all (fun n => (d.cxlPort n).state != .training) = true then d.toSurvey else d

/-- Stage 6: the CXL ports link. -/
def Dev.toLinks (d : Dev) : Dev :=
  let d := (List.range 4).foldl (fun d n =>
    if d.fenced kCxl n then d else d.putCxlPort n { d.cxlPort n with state := .training }) d
  (d.inStage 6).linkCheck

/-- Stage 5 is over once every device has trained or is fenced. -/
def Dev.trainCheck (d : Dev) : Dev :=
  if d.startup.stage = 5 ∧ (List.range 32).all (fun x => (d.memDev x).state != .training) = true then d.toLinks else d

/-- Stage 5: every device that is not fenced trains, and GEN_STATE reads MEM_TRAIN. -/
def Dev.toTraining (d : Dev) : Dev :=
  let d := (List.range 32).foldl (fun d x =>
    if d.fenced kDevice x then d else d.putMemDev x { d.memDev x with state := .training }) d
  ((d.inStage 5).setGen .memTrain srcLkk).trainCheck

/-- A device's training ends: it is available, or fenced (01 R34, R35). -/
def Dev.trained (d : Dev) (x : Nat) (ok : Bool) : Dev :=
  if ok then (d.putMemDev x { d.memDev x with state := .unowned, refresh := false }).available kDevice x true
  else d.fenceFree kDevice x srcLkk

/-- READY. -/
def Dev.toReady (d : Dev) : Dev :=
  ((d.inStage 9).setLkk { d.lkk with lastKick := d.time.osc, pendingFence := [] }).setGen .ready srcLkk

/-! ### Firmware (15 R350, R351) -/

/-- What a slot holds: what the model has seen stand there, else what the command finds. -/
def slotImage (l : List (Option Bytes)) (i : Nat) (found : Bytes) : Bytes := (nth none l i).getD found

/-- The active slot if its image passes, else the other one if its does; each image that fails is counted (R349, R350). -/
def Dev.bootSlot (d : Dev) (kind active : Nat) (image : Nat → Bytes) : Option (Nat × Bytes) × Dev :=
  if d.firmwareCode kind (image active) = 0 then (some (active, image active), d)
  else if d.firmwareCode kind (image (1 - active)) = 0 then (some (1 - active, image (1 - active)), d.verifyFailed)
  else (none, d.verifyFailed.verifyFailed)

/-- No firmware slot of a kind passes: a boot failure (17 R385). -/
def Dev.bootFail (d : Dev) : Dev := d.fatal srcLkk 0x0025 0x0502 0 0 0

/-- An identity failure (15 R344, R347). -/
def Dev.identityFail (d : Dev) (code : Nat) : Dev := d.fatal srcSec 0x0024 code 0 0 0

/-- The Lockkeeper's firmware runs from a slot. -/
def Dev.lkkRuns (d : Dev) (slot : Nat) (b : Bytes) : Dev :=
  let d := d.setLkk { d.lkk with state := 1, slot, svn := fwSvn b, lastKick := d.time.osc }
  d.setSec { d.sec with
    lkkDigest := fwDigest b
    flash := { d.sec.flash with activeLkk := slot, revoke := d.sec.flash.revoke.lor (fwRevoke b) } }

/-- The Lockkeeper fills the GEN_ registers: the bits of fields, cores and PCIe ports are known (01 R33, R35). -/
def Dev.fillGen (d : Dev) (variant : Nat) : Dev :=
  let fields := (List.range 16).filter fun f => !d.fenced kField f
  d.setStartup { d.startup with
    filled := true, variant, availFields := maskOf fields, availPorts := 0x30
    availCores := maskOf ((List.range 256).filter fun i => fields.contains (i / 16) && !d.fenced kCore i) }

end Sys2Proof.Machine
end

