-- ==== Sys2Proof/Machine/RasCmds.lean ====
section
/-!
DEFINITION. The Sluice commands of the Lockkeeper, return tests, Headgate restarts, recovery by the Weir, temperatures
and the in-field self-test (17 R385 to R398, R405).
-/
namespace Sys2Proof.Machine

/-! ### Sluice commands (R393) -/

def isPfId (m : Nat) : Bool := m == 0x400 || m == 0x401

/-- The Lockkeeper acts on a message and takes it: a duplicate, a sender that is not permitted and a malformed payload
are acknowledged without an action. act answers the acknowledgement, 0x0101 for a payload that it does not accept. -/
def Dev.lkkMsg (d : Dev) (sl cmd len : Nat) (hgToo : Bool) (act : Bytes → Option (Nat × Dev)) : Dev :=
  let x := d.sluice sl
  if !(x.full && x.receiver == idLkk && x.command == cmd && d.lkk.state == 1 && !d.frozen) then d
  else if x.duplicate then d.take sl 0x0003
  else if !(isPfId x.sender || (hgToo && isHgId x.sender)) then d.take sl 0x0104
  else if x.length ≠ len ∨ leAt x.bytes 3 1 ≠ 0 then d.take sl 0x0101
  else match act (x.bytes.drop 4) with
    | none => d.take sl 0x0101
    | some (code, d) => d.take sl code

/-- Units of a kind that FENCE and RETURN accept (Table 17-8). -/
def unitCount (kind : Nat) : Nat := nth 0 [0, 16, 256, 32, 4, 8] kind

/-- The unit in a FENCE or RETURN payload. -/
def payloadUnit (b : Bytes) : Option (Nat × Nat) :=
  let kind := leAt b 0 1
  let u := leAt b 2 2
  if kind ≤ 5 ∧ leAt b 1 1 = 0 ∧ u < unitCount kind then some (kind, u) else none

/-- R386, R393: FENCE. -/
def execLkkFence (sl : Nat) (s : State) : Host.Outcome State Fault Refusal :=
  live (.lkkFence sl) s fun d => d.lkkMsg sl 0x0101 4 true fun b =>
    match payloadUnit b with
    | none => none
    | some (kind, u) =>
      if kind = kHeadgate ∧ d.fenced kHeadgate (partner u) = true then none
      else some (1, d.fenceFree kind u srcLkk)

/-- R388, R393: RETURN; the test of a fenced unit is queued. -/
def execReturnUnit (sl : Nat) (s : State) : Host.Outcome State Fault Refusal :=
  live (.returnUnit sl) s fun d => d.lkkMsg sl 0x0102 4 false fun b =>
    match payloadUnit b with
    | none => none
    | some (kind, u) => match (d.unit kind u).state with
      | .fenced => some (2, (d.modUnit kind u fun x => { x with state := .testing }).setLkk
          { d.lkk with tests := d.lkk.tests ++ [(kind, u)] })
      | _ => some (2, d)

/-- R393: NOTE. -/
def execNote (sl : Nat) (s : State) : Host.Outcome State Fault Refusal :=
  live (.note sl) s fun d => d.lkkMsg sl 0x0103 8 true fun b =>
    some (1, d.siltAt srcLkk 0x0030 0 0 (d.sluice sl).sender 0xFFFF (leAt b 0 8) false)

/-- R393: SELFTEST. -/
def execSelftest (sl : Nat) (s : State) : Host.Outcome State Fault Refusal :=
  live (.selftest sl) s fun d => d.lkkMsg sl 0x0104 1 false fun b =>
    if leAt b 0 1 < 16 then some (1, d.modField (leAt b 0 1) fun x => { x with testDue := true }) else none

/-- R393, R405: COPY_SILT. -/
def execCopySilt (sl : Nat) (s : State) : Host.Outcome State Fault Refusal :=
  live (.copySilt sl) s fun d => d.lkkMsg sl 0x0105 0 false fun _ => some (1, d.siltCopyFree.copyAll)

/-- R405: the copy in progress is in flash. -/
def execFlashCopy (s : State) : Host.Outcome State Fault Refusal := always .flashCopy s fun d => d.copyDone

/-! ### Return tests (R388) -/

/-- A unit that has passed its test: it is available, and a core, a CXL port or a Headgate rejoins at once. -/
def Dev.returned (d : Dev) (kind u : Nat) : Dev :=
  let (m, d) := d.mark srcLkk
  let d := (d.modUnit kind u fun x => { x with state := .available }).putReg .rasUnitTime (unitKey kind u) m
  let d := d.available kind u true
  let d :=
    if kind = kField then (d.modField u fun x => { x with state := .off }) |> fun d =>
      (coresIn u).foldl (fun d i => if d.fenced kCore i then d else d.modCore i fun x => { x with state := .off }) d
    else if kind = kCore then
      let f := d.field (u / 16)
      d.modCore u fun x => { x with
        state := match f.state with | .active => .idle | .gated => .idle | _ => .off
        pool := match f.district with | some k => d.homePool k u | none => .none }
    else if kind = kDevice then d.putMemDev u { d.memDev u with state := .unowned }
    else if kind = kCxl then (d.putCxlPort u { d.cxlPort u with state := .up }).wake (56 + u)
    else d.setLkk { d.lkk with hgs := d.lkk.hgs.modify u fun x => { x with state := 0 } }
  ((d.siltEv srcLkk 0x0014 0 kind u 0).unitRecord srcLkk 0x0232 [kind, u]).pump

/-- R388: the outcome of a return test. -/
def execReturnTestDone (kind unit : Nat) (ok : Bool) (s : State) : Host.Outcome State Fault Refusal :=
  live (.returnTestDone kind unit ok) s fun d =>
    if d.lkk.tests.contains (kind, unit) ∧ d.lkk.state = 1 then
      let d := d.setLkk { d.lkk with tests := d.lkk.tests.erase (kind, unit) }
      if ok then d.returned kind unit
      else (d.modUnit kind unit fun x => { x with state := .fenced }).unitRecord srcLkk 0x0233 [kind, unit]
    else d

/-! ### Headgates (R394) -/

/-- Nanoseconds of 60 s. -/
def minute : Nat := 60 * 10 ^ 9

/-- A Headgate is restarted: it is held in reset, and its third restart within 60 s fences it. -/
def Dev.hgRestart (d : Dev) (h : Nat) : Dev :=
  let now := d.time.osc
  let x := nth Headgate.init d.lkk.hgs h
  let times := (x.times.filter fun t => decide (now < t + minute)) ++ [now]
  let d := d.setLkk { d.lkk with
    hgs := d.lkk.hgs.set h { state := 1, restarts := sat16 (x.restarts + 1), times, since := d.eff } }
  let d := (d.clearSluices (srcHeadgate h) fun y => d.receiverOf y == 0x500 + h).dropSent (0x500 + h)
  let d := (d.siltEv srcLkk 0x0023 0 kHeadgate h times.length).unitRecord srcLkk 0x0237 [kHeadgate, h]
  if 3 ≤ times.length then d.fenceFree kHeadgate h srcLkk else d

/-- R394: a Headgate misses its watchdog, or its memory reports an uncorrectable error. -/
def execHgWatchdog (h : Nat) (s : State) : Host.Outcome State Fault Refusal :=
  live (.hgWatchdog h) s fun d =>
    if (nth Headgate.init d.lkk.hgs h).state = 0 ∧ d.ready = true then d.hgRestart h else d

/-- The deadlines of the work that waits on a Headgate have stood still for n nanoseconds (R394, R396): those of the rounds,
the drain, the lending and the stalled requests of the districts and tenants it serves. None moves past the time it had
left when it began. -/
def Dev.standStill (d : Dev) (h n : Nat) : Dev :=
  let served (k : Nat) : Bool := d.headgateOf (1024 + k) == h
  let later (t : Nat) : Nat := min d.eff (t + n)
  let d := ((List.range 16).filter served).foldl (fun d k =>
    let d := d.modRound k fun r => { r with
      deadline := r.deadline.map fun t => min (t + n) (d.eff + 1000 * d.reg .cflDeadline k)
      finalEnd := if r.state = .awaitFinal then min (r.finalEnd + n) (d.eff + 1000000 * d.reg .cflFinalLimit k) else r.finalEnd }
    d.modServe k fun x => { x with lastLend := later x.lastLend }) d
  let d := d.setReqs (d.reqs.map fun r =>
    if d.headgateOf r.tenant = h then { r with stallSince := r.stallSince.map later } else r)
  match d.survey.cmd with
  | some (_, 3, k) => if served k then d.setSurvey { d.survey with drainStart := later d.survey.drainStart } else d
  | _ => d

/-- R394: a Headgate resumes from its state. -/
def execHgRestart (h : Nat) (s : State) : Host.Outcome State Fault Refusal :=
  live (.hgRestart h) s fun d =>
    if (nth Headgate.init d.lkk.hgs h).state = 1 then
      let n := d.eff - (nth Headgate.init d.lkk.hgs h).since
      ((d.standStill h n).setLkk { d.lkk with hgs := d.lkk.hgs.modify h fun x => { x with state := 0 } }).pump
    else d

/-! ### Recovery (R395, R396) -/

/-- R392: a kick of the Weir's watchdog. -/
def execWatchdogKick (s : State) : Host.Outcome State Fault Refusal :=
  live .watchdogKick s fun d =>
    if d.lkk.state = 1 then d.setLkk { d.lkk with lastKick := d.time.osc } else d

/-- Steps 1 to 5 of a takeover, for the n-th failure of the last 60 s. -/
def Dev.takeOver (d : Dev) (cause n : Nat) : Dev :=
  let d := (d.setLkk { d.lkk with state := 2, update := Update.init }).setGen .recovery srcWeir
  let d := d.setTime { d.time with frozenAt := some (d.time.frozenAt.getD d.time.osc) }
  let d := d.clearSluices srcLkk fun x => x.receiver == idLkk
  let due := d.lkk.pendingFence
  let d := due.foldl (fun d q => d.fence q.1 q.2.1 q.2.2 srcWeir) (d.setLkk { d.lkk with pendingFence := [] })
  if d.dry then d else
  let d := d.unitRecord srcWeir 0x0234 [cause, n]
  d.setLkk { d.lkk with state := 0 }

/-- The Lockkeeper runs or is being restarted: from GEN_STATE 0x1 to 0x6. -/
def GenState.lkkRuns : GenState → Bool
  | .none => false | .dry => false | _ => true

/-- A start-up value of GEN_STATE, from which every fatal event leads to DRY (01 R36). -/
def GenState.starting : GenState → Bool
  | .lkkBoot => true | .memTrain => true | .surveyLoad => true | .headgateLoad => true | _ => false

/-- R395: the Weir takes over; in start-up, and at the third failure within 60 s, the device enters Dry (01 R36). WATCHDOG
comes no earlier than 100 ms after the last kick. -/
def execLkkFail (cause : Nat) (s : State) : Host.Outcome State Fault Refusal :=
  live (.lkkFail cause) s fun d =>
    if d.startup.gen.lkkRuns then
      let d := if cause = 1 then d.advance (d.lkk.lastKick + 10 ^ 8) else d
      let now := d.time.osc
      let fails := (d.lkk.fails.filter fun t => decide (now < t + minute)) ++ [now]
      let n := fails.length
      let d := d.setLkk { d.lkk with fails, takeovers := sat32 (d.lkk.takeovers + 1) }
      let (m, d) := d.mark srcWeir
      let d := (d.putReg .lkkFailTime 0 m).putReg .lkkFailCause 0 cause
      let d := d.siltAt srcWeir 0x0020 0 0 0 0xFFFF (pack16 [cause, n]) true
      if 3 ≤ n ∨ d.startup.gen.starting = true then d.enterDry 0x0020 else d.takeOver cause n
    else d

/-- A staged image is discarded and a re-survey abandoned: its district is ACTIVE again, or INERT (02 R51, R55). -/
def Dev.abandonSurvey (d : Dev) : Dev :=
  let d := match d.survey.cmd with
    | some (_, 3, k) => ((d.endMoves k).modDist k fun x => { x with
        state := match x.state with | .draining => .active | .applying => .inert | z => z }).inertCheck k
    | _ => d
  d.setSurvey { d.survey with staged := none, cmd := none, state := .idle, target := [] }

/-- R395 step 6. -/
def execRecoveryDone (s : State) : Host.Outcome State Fault Refusal :=
  live .recoveryDone s fun d =>
    if d.startup.gen = .recovery then
      let began := d.time.frozenAt.getD d.time.osc
      let d := d.setTime { d.time with
        frozenTotal := d.time.frozenTotal + (d.time.osc - began), frozenAt := none }
      let d := d.abandonSurvey
      let d := (d.setLkk { d.lkk with state := 1, lastKick := d.time.osc, pendingFence := [] }).setGen .ready srcLkk
      ((d.siltEv srcLkk 0x0021 0 0 0 (d.time.osc - began)).unitRecord srcLkk 0x0235 []).pump
    else d

/-! ### Temperatures (R385, R401) -/

def Dev.setTemp (d : Dev) (t temp : Nat) : Dev := d.setLkk { d.lkk with temps := d.lkk.temps.set t temp }

/-- The unit a sensor stands for in the Silt record: a terrace's uncore; the devices have no one unit. -/
def sensorKind (t : Nat) : Nat := if t < 4 then kUncore else kDevice
def sensorUnit (t : Nat) : Nat := if t < 4 then t else 0

/-- R385: a temperature at or above WARN_C. -/
def execThermalWarn (t temp : Nat) (s : State) : Host.Outcome State Fault Refusal :=
  live (.thermalWarn t temp) s fun d =>
    let d := d.setTemp t temp
    if d.reg .rasWarn 0 ≤ temp ∧ nth false d.lkk.warned t = false then
      let d := d.setLkk { d.lkk with warned := d.lkk.warned.set t true }
      (d.siltEv srcLkk 0x0016 0 (sensorKind t) (sensorUnit t) temp).pldmEvent 0x0016 temp
    else d

/-- R385: a temperature has fallen 5 °C below WARN_C. -/
def execTemperatureFall (t temp : Nat) (s : State) : Host.Outcome State Fault Refusal :=
  live (.temperatureFall t temp) s fun d =>
    let d := d.setTemp t temp
    if temp + 5 ≤ d.reg .rasWarn 0 then d.setLkk { d.lkk with warned := d.lkk.warned.set t false } else d

/-- RAS_THERMAL.CRIT_C. -/
def critC : Nat := 110

/-- R385: a die at or above CRIT_C for 1 ms. -/
def execThermalCrit (t temp : Nat) (s : State) : Host.Outcome State Fault Refusal :=
  live (.thermalCrit t temp) s fun d =>
    let d := d.setTemp t temp
    if critC ≤ temp ∧ d.startup.stage ≠ 0 then d.fatal srcLkk 0x0017 0 kUncore t temp else d

/-! ### The in-field self-test (R390, R391) -/

/-- A piece of 100 µs that ends now lies within the rotation slot in force for a field. -/
def Dev.pieceFits (d : Dev) (f : Nat) : Bool :=
  match d.rotNow with
  | none => false
  | some (j, start) =>
    let (frame, es) := d.rotTable
    match es[j]? with
    | none => false
    | some e =>
      let stop := match es[j + 1]? with | some n => start - e.startNs + n.startNs | none => start - e.startNs + frame
      e.kind == 2 && (d.rotFields e).contains f &&
        decide (start + 1000 * d.reg .schRtLead 0 + 100000 ≤ d.time.cnt ∧ d.time.cnt ≤ stop)

/-- The steward has emptied the field: every suspended instance is saved. -/
def Dev.fieldEmpty (d : Dev) (f : Nat) : Bool :=
  (coresIn f).all fun i => (d.core i).insts.isEmpty && !(d.core i).saving

/-- The test of a field ends with a result: 1 pass, 2 fail. -/
def Dev.testOver (d : Dev) (f result pieces : Nat) : Dev :=
  let (m, d) := d.mark srcLkk
  let d := d.modField f fun x => { x with testPieces := 0, testResult := result, testLast := m, testDue := false }
  d.siltEv srcLkk 0x0015 (if result = 1 then 0 else 0x0233) kField f (pieces + (if result = 1 then 0 else 2 ^ 63))

/-- A piece that finds a fault: the failing cores are fenced, or the field (R391). -/
def Dev.testFail (d : Dev) (f : Nat) (failing : List Nat) (steward : Bool) : Dev :=
  let n := (d.field f).testPieces + 1
  let d := if steward || decide (4 < failing.length) then d.fenceFree kField f srcLkk
    else failing.foldl (fun d p => d.fenceFree kCore (16 * f + p) srcLkk) d
  (d.testOver f 2 n).unitRecord srcLkk 0x0233 [kField, f]

/-- R390: a piece of a field's test. -/
def execSelftestPiece (f : Nat) (failing : List Nat) (steward : Bool) (at_ : Nat) (s : State) :
    Host.Outcome State Fault Refusal :=
  live (.selftestPiece f failing steward at_) s fun d =>
    let d := d.advance at_
    if (d.field f).inTest && d.testWanted f && d.pieceFits f && d.fieldEmpty f then
      let d := (coresIn f).foldl (fun d i => d.clearCore i) d
      if steward || !failing.isEmpty then (d.testFail f failing steward).pump
      else if (d.field f).testPieces + 1 = 24 then d.testOver f 1 24
      else d.modField f fun x => { x with testPieces := x.testPieces + 1 }
    else d

end Sys2Proof.Machine
end

