-- ==== Sys2Proof/Machine/Security.lean ====
section
/-!
DEFINITION. The commands of the Security block (15 R346, R351, R354, R356, R357).
-/
namespace Sys2Proof.Machine

/-- R357: ATTEST. -/
def execAttest (fn : Nat) (flash : Bool) (s : State) : Host.Outcome State Fault Refusal :=
  hosted fn (.attest fn flash) s fun d => d.secQueue fn 1 flash

/-- R357: READ_CERTS. -/
def execReadCerts (fn : Nat) (s : State) : Host.Outcome State Fault Refusal :=
  hosted fn (.readCerts fn) s fun d => d.secQueue fn 2 true

/-- R354: INSTALL_POLICY. -/
def execInstallPolicy (fn : Nat) (bytes : Bytes) (flash : Bool) (s : State) : Host.Outcome State Fault Refusal :=
  hosted fn (.installPolicy fn bytes flash) s fun d => d.secObject fn 3 bytes flash

/-- R354: TRANSFER_OWNER. -/
def execTransferOwner (fn : Nat) (bytes : Bytes) (flash : Bool) (s : State) : Host.Outcome State Fault Refusal :=
  hosted fn (.transferOwner fn bytes flash) s fun d => d.secObject fn 4 bytes flash

/-- R351: RAISE_FW_FLOOR. -/
def execRaiseFwFloor (fn : Nat) (flash : Bool) (s : State) : Host.Outcome State Fault Refusal :=
  hosted fn (.raiseFwFloor fn flash) s fun d => d.secFloor fn flash

/-- R346, R359: ROTATE_SYSTEM. -/
def execRotateSystem (fn d : Nat) (flash : Bool) (s : State) : Host.Outcome State Fault Refusal :=
  hosted fn (.rotateSystem fn d flash) s fun x => x.secRotate fn d flash

/-- R356: the root of the next attestation key is computed; ATTESTs that wait go on. -/
def execAkRootReady (s : State) : Host.Outcome State Fault Refusal :=
  live .akRootReady s fun d =>
    if d.sec.akRoot = 1 then
      let d := d.modSec fun x => { x with akRoot := 2 }
      d.secServe true d.sec.waiting.length
    else d

end Sys2Proof.Machine
end

