-- ==== Sys2Proof/Machine/SiltCmds.lean ====
section
/-!
DEFINITION. The commands of SLT_CMD (17 R406).
-/
namespace Sys2Proof.Machine

/-- The 32 bytes of a Silt entry (Table 17-6). -/
def SiltEnt.bytes (e : SiltEnt) : Bytes :=
  le 8 e.mark ++ le 4 e.seq ++ le 2 e.source ++ le 2 e.event ++ le 2 e.status ++ le 1 e.kind ++ le 1 e.flags ++
    le 2 e.unit ++ le 2 e.ctx ++ le 8 e.detail

/-- 8,192 slots of entries, those never written as zeros. -/
def siltSlots (l : List SiltEnt) : Bytes := l.flatMap SiltEnt.bytes ++ zeros (32 * (8192 - l.length))

/-- A flash slot: the header, the entries, and the digest of both (its layout: DESIGN CHOICE, log entry 65). -/
def flashBytes (c : Option FlashCopy) : Bytes :=
  match c with
  | none => zeros (64 + 32 * 8192 + 32)
  | some c =>
    let b := le 8 c.mark ++ le 4 c.seq ++ le 2 c.cause ++ zeros 50 ++ siltSlots c.ents
    b ++ digestOr 32 (shake256 b 32)

/-- A command of SLT_CMD ends with a code. It fires no vector (14 Table 14-8). -/
def Dev.siltEnd (d : Dev) (code : Nat) : Dev :=
  (d.setSilt { d.silt with cmdCode := code }).putReg .sltCmdDone 0 1

/-- A write of SLT_CMD by a physical function: OP 0 has no effect, and outside READY none has. -/
def Dev.siltCmd (d : Dev) (fn op : Nat) : Dev :=
  if op = 0 ∨ d.ready = false then d
  else if 3 < op then d.siltEnd 0x0101
  else
    let bs := if op = 1 then siltSlots d.silt.entries else flashBytes (nth none d.silt.flash (op - 2))
    (d.hostWrite (portOf fn) (4096 * d.reg .sltOutAddr 0) bs).siltEnd 0

/-- R406: the ring is dumped, the oldest entry first. -/
def execDumpRam (fn : Nat) (s : State) : Host.Outcome State Fault Refusal :=
  hosted fn (.dumpRam fn) s fun d => if isPf fn then d.siltCmd fn 1 else d

/-- R406: a flash slot is dumped. -/
def execDumpFlash0 (fn : Nat) (s : State) : Host.Outcome State Fault Refusal :=
  hosted fn (.dumpFlash0 fn) s fun d => if isPf fn then d.siltCmd fn 2 else d
def execDumpFlash1 (fn : Nat) (s : State) : Host.Outcome State Fault Refusal :=
  hosted fn (.dumpFlash1 fn) s fun d => if isPf fn then d.siltCmd fn 3 else d

end Sys2Proof.Machine
end

