-- ==== Sys2Proof/Machine/WarmOps.lean ====
section
/-!
DEFINITION. Warm resets (16 R379, R380; 17 R398), the commit of the default image at start-up and after one (02 R48,
R50; 11 R261), and full resets (17 R398).
-/
namespace Sys2Proof.Machine

/-! ### The end of all work (R380 step 1) -/

/-- Requests, orders and messages end; teardowns in progress do. -/
def Dev.endAllWork (d : Dev) : Dev :=
  let d := d.reqs.foldl (fun d r => d.endReq r.num 2 0 0x0238) d
  let d := d.setOrders (d.orders.map fun o => { o with phase := .ended, status := 0x0238, noop := false, source := srcLkk })
  let d := d.orders.foldl (fun d o => d.complete o) d
  let d := d.clearSluices srcLkk fun _ => true
  (d.ctxs.filter fun q => q.2.state == .teardown).foldl (fun d q => d.endTeardown q.1) d

/-! ### What a warm reset keeps (R380 steps 2 and 3) -/

/-- The RWS fields (00 R5). -/
def keptRegs : List Reg :=
  [.genScratch, .corFaultCode, .corFaultPc, .corFaultTime, .memErrAddr, .memErrTime, .cxlFenceTime, .schFaultCode,
    .schFaultTime, .pwrSwitchTime, .timStepFrom, .timStepTo, .rasUnitTime, .rasFatal, .lkkFailTime, .lkkFailCause,
    .lkkSmbEn, .lkkSmbAddr]

/-- A context keeps its mappings and its key; a tenant's waits for the recommit. -/
def warmCtx (now c : Nat) (x : Ctx) : Ctx :=
  if x.state = .absent then x else
  { x with
    state := if 1024 ≤ c then .runnable else match x.state with | .faulted => .faulted | _ => .idle
    slot := if c < 1024 then 0xFF else c - 1024
    block := 0, blockStart := 0, idleSince := if 1024 ≤ c then now + 1 else 0, waitingSince := 0, residentSince := 0, rootLoading := false
    drainEnd := 0, cmdWaiting := [], flrWaiting := false, unfault := false, vtime := 0 }

/-- A core and a field keep their fence; COR_BUSY counts from cold reset (04 Table 04-11), and every other field takes
its reset value (00 R5). -/
def warmCore (x : Core) : Core :=
  { Core.init with state := if x.state = .fenced then .fenced else .off, busyClocks := x.busyClocks }
def warmField (x : Field) : Field :=
  { Field.init with state := if x.state = .fenced then .fenced else .off, testDue := x.testDue }

def warmDev (x : MemDev) : MemDev :=
  { x with state := match x.state with | .fenced => .fenced | _ => .off, refresh := true }
def warmCxl (x : CxlPort) : CxlPort :=
  { x with state := match x.state with | .fenced => .fenced | _ => .down, reason := 0 }

/-- A unit keeps its fence and its counters (17 R408); REASON takes its reset value (00 R5). -/
def warmUnit (x : RasUnit) : RasUnit := { x with reason := 0 }

/-- The counter runs on, with its epoch, its slew and a hold in progress (16 R373, R374, R376); what the TIM_ registers
keep of past edges and steps takes its reset value (00 R5). -/
def warmTime (x : Time) : Time :=
  { x with err := 0, goodEdges := 0, steps := 0, ppsCount := 0, ppsIgnored := 0, pendingSet := none }

/-- The meters keep running (16 R362) and PWR_SWITCH_COUNT counts from cold reset; grants end, and every account and
count of the ALT_ registers takes its reset value (00 R5). -/
def warmPower (x : Power) : Power :=
  { x with
    grants := [], waiting := [], acts := [], floorShort := false, overs := 0, device := 0, ctx := []
    fieldUj := List.replicate 16 0, mem := List.replicate 16 0, idle := List.replicate 16 0
    overrun := List.replicate 16 0, estimate := List.replicate 16 0, repoint := List.replicate 16 0 }

/-- A model cache entry keeps its place; a load in progress is over. -/
def warmEnt (e : CacheEnt) : CacheEnt :=
  let e := { e with usePins := 0, waiting := [] }
  match e.state with
  | .loading => { e with state := .backed, home := 0, toStaging := false }
  | _ => e

def warmGauge (g : Gauge) : Gauge :=
  { Gauge.init with dryCount := g.dryCount, ratioCount := g.ratioCount, crushCount := g.crushCount, events := g.events }
def warmServe (x : Serve) : Serve :=
  { Serve.init with
    refused := x.refused, cancelled := x.cancelled, capDropped := x.capDropped, capRefused := x.capRefused
    specSteps := x.specSteps, specNodes := x.specNodes, specAccepted := x.specAccepted, fullRej := x.fullRej
    dropped := x.dropped, halved := x.halved, oftRefused := x.oftRefused }

/-- The Lockkeeper after a warm reset: its keep area (17 R392), its counters, and what the sensors read. -/
def warmLkk (x : Lkk) : Lkk :=
  { Lkk.init with
    slot := x.slot, svn := x.svn, hgSvn := x.hgSvn, fails := x.fails, takeovers := x.takeovers
    resetIgnored := x.resetIgnored, tests := x.tests, throttle := x.throttle, temps := x.temps
    warned := x.warned, dropped := x.dropped
    hgs := x.hgs.map fun h => { h with state := if h.state = 2 then 2 else 0 } }

/-- Bindings of Sluices, whose fields are RWL. -/
def Dev.warmSluices (d : Dev) : Dev :=
  d.sluices.foldl (fun d q => d.putSluice q.1 { Sluice.unbound with sender := q.2.sender, receiver := q.2.receiver }) d

/-- Every unit, register and account after the end of all work. -/
def Dev.warmUnits (d : Dev) : Dev :=
  let d := d.warmSluices.scrubPonds
  { d with
    regs := d.regs.filter fun q => (keptRegs.map Reg.num).contains (q.1 / 2 ^ 21)
    ports := d.ports.map fun p => { p with retry := p.linkUp }
    rings := [], errs := [], orders := [], waits := []
    ctxs := Tbl.mapAll Ctx.init (warmCtx d.eff) d.ctxs
    sched := { Sched.init with
      evict := d.sched.evict, preempt := d.sched.preempt, abandon := d.sched.abandon, rtLate := d.sched.rtLate
      slots := (d.ctxs.filter fun q => decide (1024 ≤ q.1) && q.2.state != .absent).map fun q => (q.1 - 1024, q.1) }
    survey := { Survey.init with committed := d.survey.committed, locked := d.survey.locked }
    dists := Tbl.mapAll Dist.init (fun _ x => { x with state := .absent, fields := 0, migrate := 0, newSet := none }) d.dists
    devs := Tbl.mapAll MemDev.init (fun _ x => warmDev x) d.devs
    cxl := Tbl.mapAll CxlPort.init (fun _ x => warmCxl x) d.cxl
    cache := Tbl.mapAll CacheEnt.init (fun _ e => warmEnt e) d.cache
    lines := [], saves := [], divPins := [], claims := [], steps := [], parts := []
    cores := Tbl.mapAll Core.init (fun _ x => warmCore x) d.cores
    fields := Tbl.mapAll Field.init (fun _ x => warmField x) d.fields
    lkk := warmLkk d.lkk
    flumes := Tbl.mapAll Flume.init (fun _ x => { Flume.init with events := x.events }) d.flumes
    divs := Tbl.mapAll Diversion.init (fun _ x => { x with jobs := [] }) d.divs
    cis := Tbl.mapAll Cistern.init (fun _ x => { Cistern.init with events := x.events, retired := x.retired }) d.cis
    gauges := Tbl.mapAll Gauge.init (fun _ g => warmGauge g) d.gauges
    cfls := Tbl.mapAll Cfl.init (fun _ x => { Cfl.init with events := x.events }) d.cfls
    sec := { d.sec with running := [], inLen := [], waiting := [], code := [], doneTime := [] }
    power := warmPower d.power
    wakes := [], oftTimes := []
    time := warmTime d.time
    units := Tbl.mapAll RasUnit.init (fun _ x => warmUnit x) d.units
    silt := { d.silt with cmdCode := 0 }
    serves := Tbl.mapAll Serve.init (fun _ x => warmServe x) d.serves
    tenants := Tbl.mapAll Tenant.init (fun _ x => { Tenant.init with domain := x.domain }) d.tenants
    reqs := [], oftInsts := []
    ofts := d.ofts.map fun v => { v with pins := 0 } }

/-- The parents of resident EXPERTs hold their use pins again (11 R277). -/
def Dev.parentPins (d : Dev) : Dev :=
  (d.cache.filter fun q => q.2.live && q.2.state == .resident).foldl (fun d q => d.parentPin q.1 true) d

/-- A warm reset: all work ends, RESET is written, and start-up begins at stage 3. -/
def Dev.warmReset (d : Dev) : Dev :=
  let d := d.endAllWork.warmUnits.parentPins.retireOfts
  let d := d.siltEv srcLkk 0x0001 0 0 0 2
  d.setStartup { Startup.init with stage := 3, t0 := d.time.osc, warm := true, variant := d.startup.variant }

/-! ### The commit of the default image (02 R48, R50) -/

/-- The recommit keeps a district with an unchanged interleave set (11 R261). -/
def Dev.keepsDist (d : Dev) (new : Option Image) (k : Nat) : Bool :=
  match (d.dist k).ent, new with
  | some _, some i => match i.districts.find? fun x => x.1 == k with
    | some x =>
      let set := (bitsOf x.2.deviceMask 32).filter fun v => !d.fenced kDevice v
      !set.isEmpty && set == (d.dist k).devices
    | none => false
  | _, _ => false

/-- A tenant context at the recommit (R380 step 4): kept, and IDLE, or torn down. -/
def Dev.recommitTenant (d : Dev) (new : Option Image) (t : Nat) : Dev :=
  let k := (d.tenant t).district
  let stays := match new with
    | some i => (Tbl.get TenantEnt.none i.tenants t).district == k && decide (k < 16) && d.keepsDist new k
    | none => false
  if !stays then d.dropTenant t
  else match (d.ctx t).state with
    | .faulted => ((d.gatesOf t).foldl Dev.freeGate d |>.modCtx t fun x => { x with state := .idle, maps := [], tables := [], vtime := 0 }).freshKey t
    | _ => d

/-- A district whose interleave set changes: its home ranges are scrubbed, its entries return to BACKED, and its system
context's tables are built anew. -/
def Dev.clearDist (d : Dev) (k : Nat) : Dev :=
  let x := d.dist k
  let d := (d.cache.filter fun (_, e) => e.live && e.district == k && e.state != .backed).foldl (fun d q => d.unplace q.1) d
  ((d.dropSystem (1024 + k)).moveDevices x.devices []).putDist k { Dist.init with ent := x.ent }

/-- An old district at the recommit. -/
def Dev.recommitDist (d : Dev) (new : Option Image) (k : Nat) : Dev :=
  if d.keepsDist new k then d
  else match new with
    | none => d.dropDist k
    | some i => if i.districts.any fun x => x.1 == k then d.clearDist k else d.removeDist k

/-- The default image is committed, or, where there is none that verifies, no district is. -/
def Dev.commitDefault (d : Dev) (bs : Option Bytes) : Dev :=
  let new := bs.map parseImage
  let d := (d.ctxs.filter fun q => decide (q.1 < 1024)).foldl (fun d q => d.recommitTenant new q.1) d
  let d := d.dists.foldl (fun d q => d.recommitDist new q.1) d
  match bs with
  | some bs => d.commitAll bs
  | none => d.setSurvey { d.survey with committed := none, committedSerial := 0 }

/-- SRV_STATUS.CODE of both physical functions (DESIGN CHOICE, log entry 125: the rule names no function). -/
def Dev.surveyCode (d : Dev) (c : Nat) : Dev := d.setSurvey { d.survey with code := [c, c] }

/-- Stage 7 (02 R48): the default image is verified and committed; an empty slot is recorded as 0x0180. -/
def Dev.loadDefault (d : Dev) : Dev :=
  let bs := d.sec.flash.image
  let c := if bs.isEmpty then 0x0180 else d.verifyImage bs none false
  let d := if c = 0x0503 ∨ c = 0x0504 then d.verifyFailed else d
  if c = 0 then (d.commitDefault (some bs)).surveyCode 0
  else ((d.commitDefault none).surveyCode c).siltEv srcLkk 0x0007 c 0 0 (leAt bs 16 8)

/-! ### Full resets (R398) -/

/-- A full reset: the Silt record is copied, and the module restarts as after a cold reset, with its supplies in place;
stages 1 and 2 are over at once (DESIGN CHOICE, log entry 63). -/
def Dev.fullReset (d : Dev) : Dev :=
  if d.startup.stage < 3 then d else
  let d := d.siltCopyFree.copyAll
  let src := d.power.source
  let d := d.lostPower
  let d := d.setPower { d.power with source := src }
  let d := d.setStartup { d.startup with stage := 3, t0 := d.time.osc }
  (d.setTime { d.time with lastAcceptOsc := d.time.osc }).siltEv srcWeir 0x0001 0 0 0 3

end Sys2Proof.Machine
end

