-- ==== Sys2Proof/Machine/Startup.lean ====
section
/-!
DEFINITION. The commands of start-up and of resets (16 R377 to R380, 15 R344, R350, 02 R48, 17 R398, 18 R415).
-/
namespace Sys2Proof.Machine

/-- R377: the first input of a module without power reaches 40 V. -/
def execColdReset (at_ : Nat) (s : State) : Host.Outcome State Fault Refusal :=
  always (.coldReset at_) s fun d =>
    if d.startup.stage = 0 then
      let d := (d.advance at_).lostPower
      d.setStartup { d.startup with stage := 1, t0 := d.time.osc }
    else d

/-- R377: stages 1 and 2 are over; the always-on domain and the time counter start. -/
def execPowerGood (mvA mvB : Nat) (s : State) : Host.Outcome State Fault Refusal :=
  always (.powerGood mvA mvB) s fun d =>
    if d.startup.stage = 1 ∧ sourceOf mvA mvB ≠ 0 then
      let d := d.modPower fun x => { x with mv := [mvA, mvB], source := sourceOf mvA mvB }
      let d := d.setTime { d.time with cnt := 0, frac := 0, lastAcceptOsc := d.time.osc }
      (d.inStage 3).siltEv srcWeir 0x0001 0 0 0 1
    else d

/-- 15 R350: the ROM boots the Lockkeeper, at start-up or in a recovery, from the slots of the flash. What they hold from
manufacture the command brings (DESIGN CHOICE, log entry 67). -/
def execLkkBoot (slot0 slot1 : Bytes) (variant : Nat) (s : State) : Host.Outcome State Fault Refusal :=
  live (.lkkBoot slot0 slot1 variant) s fun d =>
    let f := d.sec.flash
    let image (i : Nat) : Bytes := slotImage f.lkkSlots i (if i = 0 then slot0 else slot1)
    let pick := d.bootSlot 1 f.activeLkk image
    let seen := pick.2.modFlash fun f => { f with lkkSlots := [some (image 0), some (image 1)] }
    if d.startup.stage = 3 then
      match pick.1 with
      | none => (seen.setStartup { seen.startup with variant }).bootFail
      | some (i, b) =>
        let d := ((seen.lkkRuns i b).setGen .lkkBoot srcLkk).fillGen variant
        if d.startup.warm then d.toTraining
        else (d.setCanal { d.canal with aqStatus := [1, 1, 1, 1] }).inStage 4
    else if d.startup.gen = .recovery ∧ d.lkk.state = 0 then
      match pick.1 with
      | none => seen.bootFail
      | some (i, b) => seen.lkkRuns i b
    else d

/-- 15 R344, R347, R353, R356: the identity is derived, and the stored policy verified. -/
def execIdentity (ok flash : Bool) (s : State) : Host.Outcome State Fault Refusal :=
  live (.identity ok flash) s fun d =>
    if d.startup.stage ≠ 4 then d
    else if !ok then d.identityFail 0x0501
    else if !flash then d.identityFail 0x050A
    else
      let d := d.modSec fun x => { x with
        identityOk := true, ikNext := x.flash.ikReserved, akNext := x.flash.akReserved
        akCert := akCertBody x.flash.akGen ++ Config.akCertSig x.flash.akGen }
      d.loadPolicy.toTraining

/-- R377, 01 R35: a GDDR7 device ends its training. -/
def execMemTrain (dev : Nat) (ok : Bool) (s : State) : Host.Outcome State Fault Refusal :=
  live (.memTrain dev ok) s fun d =>
    match (d.memDev dev).state with
    | .training => (d.trained dev ok).trainCheck
    | _ => d

/-- 02 R48: stage 7. -/
def execSurveyLoad (s : State) : Host.Outcome State Fault Refusal :=
  live .surveyLoad s fun d => if d.startup.stage = 7 then d.loadDefault.toHeadgates else d

/-- 15 R350: the Headgates' firmware is loaded, and the device becomes READY. -/
def execHeadgateLoad (slot0 slot1 : Bytes) (s : State) : Host.Outcome State Fault Refusal :=
  live (.headgateLoad slot0 slot1) s fun d =>
    if d.startup.stage ≠ 8 then d else
    let f := d.sec.flash
    let image (i : Nat) : Bytes := slotImage f.hgSlots i (if i = 0 then slot0 else slot1)
    let pick := d.bootSlot 2 f.activeHg image
    let d := pick.2.modFlash fun f => { f with hgSlots := [some (image 0), some (image 1)] }
    match pick.1 with
    | none => d.bootFail
    | some (i, b) =>
      let d := d.modSec fun x => { x with hgDigest := fwDigest b, flash := { x.flash with activeHg := i } }
      (d.setLkk { d.lkk with hgSvn := fwSvn b }).toReady

/-- What a stage that has reached its limit does (Table 16-9). -/
def Dev.stageOver (d : Dev) (stg : Nat) : Dev :=
  if stg = 1 then d.inStage 0
  else if stg = 3 then d.bootFail
  else if stg = 4 then d.identityFail 0x0501
  else if stg = 5 then
    ((List.range 32).foldl (fun d x => match (d.memDev x).state with
      | .training => d.fenceFree kDevice x srcLkk
      | _ => d) d).trainCheck
  else if stg = 6 then d.toSurvey
  else if stg = 7 then (d.commitDefault none).toHeadgates
  else if stg = 8 then d.bootFail
  else d

/-- R377: a stage reaches its limit. -/
def execStageLimit (stg at_ : Nat) (s : State) : Host.Outcome State Fault Refusal :=
  live (.stageLimit stg at_) s fun d =>
    let d := d.advance at_
    let t := d.startup
    if t.stage = stg ∧ t.t0 + 10 ^ 6 * stageMs t.warm stg ≤ d.time.osc then d.stageOver stg else d

/-- 17 R398: LKK_RESET WARM. Outside READY it is ignored and counted. -/
def Dev.warm (d : Dev) : Dev :=
  if d.ready then d.warmReset
  else d.setLkk { d.lkk with resetIgnored := sat32 (d.lkk.resetIgnored + 1) }

/-- 17 R398. -/
def execWarm (fn : Nat) (s : State) : Host.Outcome State Fault Refusal :=
  always (.warm fn) s fun d => if isPf fn && !d.deaf fn then d.warm else d

/-- 17 R398: LKK_RESET FULL. -/
def execFull (fn : Nat) (s : State) : Host.Outcome State Fault Refusal :=
  always (.full fn) s fun d => if isPf fn && !d.deaf fn then d.fullReset else d

/-- Nanoseconds of a millisecond. -/
def ms : Nat := 10 ^ 6

/-- A waveform of FULL_RESET_N, as its lows with the highs that follow them, asks for a reset (18 R415): a low shorter than
1 ms starts no measurement, a high shorter than 1 ms ends none, and the low measured lasts 10 ms. -/
def resetAsked : Option Nat → List (Nat × Nat) → Bool
  | _, [] => false
  | none, (lo, hi) :: r =>
    if lo < ms then resetAsked none r
    else decide (10 * ms ≤ lo) || resetAsked (if hi < ms then some (lo + hi) else none) r
  | some m, (lo, hi) :: r =>
    decide (10 * ms ≤ m + lo) || resetAsked (if hi < ms then some (m + lo + hi) else none) r

/-- 18 R415: the pin requests FULL, once in a low. -/
def execFullResetN (wave : PinWave) (s : State) : Host.Outcome State Fault Refusal :=
  always (.fullResetN wave) s fun d =>
    let d := d.advance wave.at_
    if resetAsked none wave.lows then d.fullReset else d

end Sys2Proof.Machine
end

