-- ==== Sys2Proof/Machine/Survey.lean ====
section
/-!
DEFINITION. The commands of the survey unit (02 R51 to R57, R425).
-/
namespace Sys2Proof.Machine

/-- The physical function writes SRV_CMD; a virtual function's write is ignored. -/
def Dev.srvBy (d : Dev) (fn op k : Nat) (flash : Bool) : Dev :=
  if isPf fn then d.srvCmd (portOf fn) op k flash else d

/-- R425: the image is read, verified and staged. -/
def execSurveyImageRead (bytes : Bytes) (s : State) : Host.Outcome State Fault Refusal :=
  live (.surveyImageRead bytes) s fun d => d.stageDone bytes

/-- R51: STAGE. -/
def execStage (fn : Nat) (s : State) : Host.Outcome State Fault Refusal := hosted fn (.stage fn) s fun d => d.srvBy fn 1 0 true

/-- R55: INITIAL. -/
def execInitial (fn : Nat) (s : State) : Host.Outcome State Fault Refusal :=
  hosted fn (.initial fn) s fun d => d.srvBy fn 2 0 true

/-- R53: RESURVEY. -/
def execResurvey (fn d : Nat) (s : State) : Host.Outcome State Fault Refusal :=
  hosted fn (.resurvey fn d) s fun x => x.srvBy fn 3 d true

/-- R55: STORE_DEFAULT. -/
def execStoreDefault (fn : Nat) (s : State) : Host.Outcome State Fault Refusal :=
  hosted fn (.storeDefault fn) s fun d => d.srvBy fn 4 0 true

/-- R51: DISCARD. -/
def execDiscard (fn : Nat) (s : State) : Host.Outcome State Fault Refusal :=
  hosted fn (.discard fn) s fun d => d.srvBy fn 5 0 true

/-- R55: RAISE_FLOOR. -/
def execRaiseFloor (fn : Nat) (flash : Bool) (s : State) : Host.Outcome State Fault Refusal :=
  hosted fn (.raiseFloor fn flash) s fun d => d.srvBy fn 6 0 flash

/-- R53: the drain limit of a re-survey. -/
def execSrvDrainLimit (at_ : Nat) (s : State) : Host.Outcome State Fault Refusal :=
  live (.srvDrainLimit at_) s fun d =>
    let d := d.advance at_
    match d.survey.state, d.survey.cmd with
    | .draining, some (port, _, k) =>
      if d.survey.drainStart + 1000000 * d.reg .srvDrainLimit port ≤ d.eff then (d.drainStop k).pump else d
    | _, _ => d

/-- R53: APPLYING ends. -/
def execApplyDone (s : State) : Host.Outcome State Fault Refusal := live .applyDone s fun d => d.applied.pump

end Sys2Proof.Machine
end

