-- ==== Sys2Proof/Machine/RegWrite.lean ====
section
/-!
DEFINITION. A write of the host to a function's control window (00 R6 to R8, R13; 11 R257). A field without a behaviour
of its own takes the write by its type and bounds; a command register runs the operation of its command's row.
-/
namespace Sys2Proof.Machine

/-- The slot of an offset of a function's control window, and the offset in the slot's block (11 R257). -/
def window (fn off : Nat) : Nat × Nat :=
  if isPf fn then (off / 0x100000, off % 0x100000) else (off / 0x800, off % 0x800)

/-- Where a field stands in the window of a function: the offset of copy 0, the distance between copies, and how many
there are. -/
def Reg.place (r : Reg) (fn : Nat) : Option (Nat × Nat × Nat) :=
  let x := r.info
  if isPf fn then match x.scope with
    | .vf => none
    | _ => some (x.off, x.stride, x.count)
  else match x.vfOff with
    | some o => some (o, 0, 1)
    | none => match x.scope with
      | .fn => some (x.off, 0, 1)
      | .fnk => some (x.off, x.stride, x.count)
      | .pair => some (x.off, x.stride, 8)
      | _ => none

/-- The copy of a field that index j of a function's window is. -/
def Dev.copyOf (d : Dev) (r : Reg) (fn j : Nat) : Nat :=
  match r.info.scope with
  | .dev => 0
  | .pf => portOf fn
  | .fn => fn
  | .fnk => 8 * fn + j
  | .vf => fn
  | .idx => if isPf fn then j else fn
  | .pair => ringKey fn j
  | .sel => unitKey (d.reg .rasSelKind 0) (d.reg .rasSelUnit 0)

/-- The 32-bit words that a write of data at offset o of a block carries, by their offsets. -/
def wordsOf (o len : Nat) (v : Nat) : List (Nat × Nat) :=
  (o, fld v 0 32) :: if len = 8 then [(o + 4, fld v 32 32)] else []

def wordAt (ws : List (Nat × Nat)) (a : Nat) : Option Nat := (ws.find? fun w => w.1 == a).map Prod.snd

/-- What a write of words puts into the field at [lo + width − 1:lo] of the register at offset b, which holds old: the
written words with the other half of the register as it is (R8); a clearing field reads the unwritten half as 0. -/
def merged (ws : List (Nat × Nat)) (b lo width old : Nat) (clears : Bool) : Option Nat :=
  let low := wordAt ws b
  let high := wordAt ws (b + 4)
  let was := if clears then 0 else old * 2 ^ lo
  let hit := (lo < 32 && low.isSome) || (32 < lo + width && high.isSome)
  if hit then some (fld (low.getD (fld was 0 32) + 2 ^ 32 * high.getD (fld was 32 32)) lo width) else none

/-- Registers that a write of theirs acts on as a whole, by the command of their own row. -/
def Reg.commanded : Reg → Bool
  | .hifErrEnable => true
  | .hifErrLog2 => true
  | .hifIrqAll => true
  | .hifVector => true
  | .hifHoldoff => true
  | .pwrRatingA => true
  | .pwrRatingB => true
  | _ => false

/-- The registers that the Weir serves in Dry (17 R397). -/
def Reg.inDry : Reg → Bool
  | .sltSel => true
  | .sltOutAddr => true
  | .sltCmdDone => true
  | .rasFatal => true
  | .lkkFailTime => true
  | .lkkFailCause => true
  | _ => false

/-- The condition on taking a write of v: a TRAIN district (06 R166, 07 R195, 08 R217), no live TRAIN_STEP order
(06 R162), no live request (09 Table 09-8), a DISABLED ring (14 R323), an error ring not enabled (14 R333), a value of
the kind the field takes (07 R178). -/
def Dev.takesWrite (d : Dev) (r : Reg) (c v : Nat) : Bool :=
  match r with
  | .cisEpoch => d.isTrain c && !d.liveTrain c
  | .cisWork0 => d.isTrain c && !d.liveTrain c
  | .cisWork1 => d.isTrain c && !d.liveTrain c
  | .gauRaise => d.isTrain c
  | .gauDiv => d.isTrain c
  | .gauClipMax => d.isTrain c && decide (0 < v ∧ v ≤ 0x7F800000)
  | .gauDry => d.isTrain c
  | .gauCrush => d.isTrain c
  | .gauRatioHi => d.isTrain c && decide (0 < v ∧ v < 0x7F800000)
  | .gauAlarm => d.isTrain c
  | .gauAlarmMask => d.isTrain c
  | .gauTableAddr => d.isTrain c
  | .gauTableCount => d.isTrain c
  | .gauRingEntries => d.isTrain c
  | .gauRingAddr => d.isTrain c
  | .gauRingTail => d.isTrain c
  | .gauLsSetAttempt => d.isTrain c
  | .gauLsSetLs => d.isTrain c
  | .gauEntrySel => d.isTrain c
  | .cflDeadline => d.isTrain c
  | .cflNonfinite => d.isTrain c
  | .cflExpectImports => d.isTrain c
  | .cflStaged => d.isTrain c
  | .cflFinalLimit => d.isTrain c
  | .cflBucketAddr => d.isTrain c
  | .cflBucketCount => d.isTrain c
  | .intParcelBase => (d.reqsOf c).isEmpty
  | .intParcelCount => (d.reqsOf c).isEmpty
  | .intParcelStride => (d.reqsOf c).isEmpty
  | .hifErrBase => d.reg .hifErrEnable c == 0
  | .hifHrBase => (Tbl.get Ring.init d.rings c).state == .disabled
  | .hifTrBase => (Tbl.get Ring.init d.rings c).state == .disabled
  | .hifTrLog2 => (Tbl.get Ring.init d.rings c).state == .disabled
  | .hifHrLog2 => (Tbl.get Ring.init d.rings c).state == .disabled
  | _ => true

/-- A lower TREE_MAX lowers the tree limits of the district's requests (10 R246). -/
def Dev.clampTrees (d : Dev) (k : Nat) : Dev :=
  d.setReqs (d.reqs.map fun r => if r.district = k then { r with limit := min r.limit (d.reg .oftTreeMax k) } else r)

/-- A write of v to copy c of a field: with its effect on what follows from the field at once. Time that has passed
counts at the value it passed under: core-cycles at the old SHARES (13 R304), a bucket at the old rate (09 R224); a write
that leaves the value as it is settles nothing. -/
def Dev.fieldWritten (d : Dev) (r : Reg) (c v : Nat) : Dev :=
  match r with
  | .oftCapAddr => d.capWrite c false v
  | .oftCapEntries => d.capWrite c true v
  | .intVfShare => (d.putReg .intVfShare c v).regroup c
  | .intGroup => (d.writeField .intGroup c v).regroup c
  | .oftTreeMax => (d.writeField .oftTreeMax c v).clampTrees c
  | .schShares =>
    if d.taken? .schShares c (d.reg .schShares c) v = d.reg .schShares c then d
    else (d.accountCtx c).writeField .schShares c v
  | .intEnergy =>
    if d.taken? .intEnergy c (d.reg .intEnergy c) v = d.reg .intEnergy c then d
    else (d.settleBucket c).writeField .intEnergy c v
  | _ => if d.takesWrite r c v then d.writeField r c v else d

/-- A write of words of a block reaches the copies of one field. -/
def Dev.writeReg (d : Dev) (fn : Nat) (ws : List (Nat × Nat)) (r : Reg) : Dev :=
  match r.place fn with
  | none => d
  | some (off, stride, count) =>
    let js := (ws.map fun w => if stride = 0 then 0 else (w.1 - off) / stride).eraseDups.filter fun j => decide (j < count)
    js.foldl (fun d j =>
      let c := d.copyOf r fn j
      match merged ws (off + stride * j) r.info.lo r.info.width (d.reg r c) (r.info.type == .rw1c) with
      | none => d
      | some v => d.fieldWritten r c v) d

/-- A write of one word of a Sluice's registers: a message word, SEND, or the clearing of the misuse code (R343). -/
def Dev.sluiceWord (d : Dev) (who sl k v : Nat) : Dev :=
  if k < 16 then d.msgWrite who sl k 4 v
  else if k = 16 then d.send who sl v
  else if k = 19 then
    let x := d.sluice sl
    if x.bound who then d.putSluice sl { x with misuse := x.misuse - x.misuse.land (fld v 16 16) }
    else d.sluiceRecord who 0x0413
  else d

/-- A write at offset o of a Sluice's registers: two message words are one write (R338). -/
def Dev.sluiceWrite (d : Dev) (who sl o len v : Nat) : Dev :=
  if len = 8 ∧ o < 0x40 then d.msgWrite who sl (o / 4) 8 v
  else (wordsOf o len v).foldl (fun d w => d.sluiceWord who sl (w.1 / 4) w.2) d

/-- A sender and a receiver that a privileged entry accepts (14 R336). -/
def bindingOk (sender receiver : Nat) : Bool :=
  (sender == 0x400 || sender == 0x401 || isHgId sender) && (isHgId receiver || receiver == idLkk)

/-- A write of SLC_BIND_s (14 R336): taken from a privileged entry until the first commit. -/
def Dev.bindWrite (d : Dev) (sl v : Nat) : Dev :=
  if 1024 ≤ sl ∧ sl < 1040 ∧ d.survey.locked = false ∧ bindingOk (fld v 16 16) (fld v 0 16) = true then
    d.putSluice sl { d.sluice sl with sender := fld v 16 16, receiver := fld v 0 16 }
  else d

/-- A write into the SLC_ slot (R343). -/
def Dev.slcWrite (d : Dev) (fn o len v : Nat) : Dev :=
  if isPf fn then
    if o < 0x1000 then d.sluiceWrite (masterOf fn) (1024 + o / 0x100) (o % 0x100) len v
    else if 0x2000 ≤ o ∧ o < 0x2000 + 4 * 1040 then
      (wordsOf o len v).foldl (fun d w => d.bindWrite ((w.1 - 0x2000) / 4) w.2) d
    else d
  else if o < 0x100 then d.sluiceWrite fn fn o len v else d

/-- A write of OP into SEC_CMD (15 R359). -/
def Dev.secWrite (d : Dev) (fn v : Nat) : Dev :=
  let op := fld v 0 4
  if op = 0 then d
  else if op = 1 ∨ op = 2 then d.secQueue fn op true
  else if op = 3 ∨ op = 4 then d.secRead fn op
  else if op = 5 then d.secFloor fn true
  else if op = 6 then d.secRotate fn (fld v 8 4) true
  else if d.secRunning fn ≠ 0 then d.secCode fn 0x050B
  else d.secEnd fn 0x0500

/-- A write of OP into SCH_CMD by a physical function (13 R319). -/
def Dev.schWrite (d : Dev) (fn v : Nat) : Dev :=
  let op := fld v 0 4
  let c := fld v 16 11
  if op = 0 then d
  else if op = 1 then ((d.schReset (portOf fn) c).resettle c).pump
  else if op = 2 then (d.schTeardown (portOf fn) c).pump
  else d.schEnd (portOf fn) 0x0162

/-- A write of LKK_RESET (17 R398). -/
def Dev.resetWrite (d : Dev) (v : Nat) : Dev :=
  if fld v 8 8 ≠ 0xA5 then d
  else if fld v 0 4 = 1 then d.warm
  else if fld v 0 4 = 2 then d.fullReset
  else d

/-- A word at a command register that every function has: HIF_ERR_SIZE, HIF_RING_CTL and SEC_CMD. -/
def Dev.fnWord (d : Dev) (fn slot o v : Nat) : Dev :=
  if slot = 16 then
    if o = 0x10 then d.writeErrSize fn v
    else if 0x100 ≤ o ∧ o % 0x40 = 0x14 ∧ (o - 0x100) / 0x40 < pairsOf fn then d.writeRingCtl fn ((o - 0x100) / 0x40) v
    else d
  else if slot = 18 ∧ o = 0x44 then d.secWrite fn v
  else d

/-- A word at a command register of the physical functions. -/
def Dev.pfWord (d : Dev) (fn slot o v : Nat) : Dev :=
  if slot = 1 ∧ o = 0x10 then d.srvCmd (portOf fn) (fld v 0 4) (fld v 8 4) true
  else if slot = 6 ∧ o % 0x100 = 0x78 ∧ o / 0x100 < 16 then d.gauWrite fn (o / 0x100) (fld v 0 4)
  else if slot = 7 ∧ o % 0x100 = 0x5C ∧ o / 0x100 < 16 then d.cflWrite fn (o / 0x100) (fld v 0 4)
  else if slot = 9 ∧ o % 0x200 = 0x2C ∧ o / 0x200 < 16 then d.intCmd fn (o / 0x200) (fld v 0 4)
  else if slot = 15 ∧ o = 0x28 then d.schWrite fn v
  else if slot = 22 ∧ o = 0 then d.pwrRating v
  else if slot = 24 ∧ o = 0x30 then d.siltCmd fn (fld v 0 4)
  else if slot = 25 ∧ o = 0x14 then d.resetWrite v
  else d

/-- A write into the block of a slot by a function: the fields, and then the command registers among its words. -/
def Dev.blockWrite (d : Dev) (fn slot o len v : Nat) : Dev :=
  let ws := wordsOf o len v
  let regs := Reg.all.filter fun r => r.info.slot == slot && !r.commanded && (!d.dry || r.inDry)
  let d := regs.foldl (fun d r => d.writeReg fn ws r) d
  if d.dry then
    let d := if slot = 17 ∧ o % 0x100 = 0x40 then d.slcWrite fn o len v else d
    if isPf fn && slot == 25 then ws.foldl (fun d w => if w.1 = 0x14 then d.resetWrite w.2 else d) d else d
  else
    let d := if slot = 17 then d.slcWrite fn o len v else d
    let d := ws.foldl (fun d w => d.fnWord fn slot w.1 w.2) d
    let d := if isPf fn then ws.foldl (fun d w => d.pfWord fn slot w.1 w.2) d else d
    let d := if isPf fn && slot == 21 && (o == 8 || o == 12) then
        d.timSet fn (if o = 8 then v % 2 ^ (8 * len) else 2 ^ 32 * fld v 0 32) else d
    if slot = 15 ∨ slot = 19 ∨ slot = 21 then d.pump else d

/-- R8: a register write; from msixAt on it is one to the MSI-X table (14 R321, R335). One of another width or alignment
is a violation (14 Table 14-12); one to an offset that no block defines is ignored (11 R257). -/
def execRegisterWrite (fn off len : Nat) (data : DWord) (s : State) : Host.Outcome State Fault Refusal :=
  always (.registerWrite fn off len data) s fun d =>
    if d.deaf fn then d
    else if (len = 4 ∨ len = 8) ∧ off % len = 0 then
      if msixAt fn ≤ off then (wordsOf (off - msixAt fn) len data.toNat).foldl (fun d w => d.msixWrite fn w.1 w.2) d
      else d.blockWrite fn (window fn off).1 (window fn off).2 len data.toNat
    else if d.dry then d
    else d.violation fn 0x0401

end Sys2Proof.Machine
end

