-- ==== Sys2Proof/Machine/RegRead.lean ====
section
/-!
DEFINITION. What a register of a function's control window reads as (00 Table 00-5; 11 R257): the stored fields, and
the fields that the device shows, from the register tables of the spec.
-/
namespace Sys2Proof.Machine

/-! ### Words -/

/-- The word at an offset of a list of registers; 0 where none stands. -/
def pick (o : Nat) : List (Nat × Nat) → Nat
  | [] => 0
  | (b, v) :: r => if o = b then v % 2 ^ 32 else pick o r

/-- A 64-bit register at an offset. -/
def wide (b v : Nat) : List (Nat × Nat) := [(b, fld v 0 32), (b + 4, fld v 32 32)]

/-- Registers at b, b + 4, and so on. -/
def run4 (b : Nat) (l : List Nat) : List (Nat × Nat) := (List.range l.length).map fun k => (b + 4 * k, nth 0 l k)

/-- The element and the offset in it of an offset in an array of n elements. -/
def inArray (o b stride n : Nat) : Option (Nat × Nat) :=
  if b ≤ o ∧ (o - b) / stride < n then some ((o - b) / stride, (o - b) % stride) else none

/-- The word at an offset of an array of n blocks of registers. -/
def readArray (o b stride n : Nat) (f : Nat → List (Nat × Nat)) : Nat :=
  match inArray o b stride n with
  | none => 0
  | some (i, q) => pick q (f i)

/-- The two's complement of a number in 32 bits. -/
def twos32 (v : Int) : Nat := (v % 2 ^ 32).toNat

def flag (b : Bool) : Nat := if b then 1 else 0

/-- A mask of the numbers below n that satisfy p. -/
def whereMask (n : Nat) (p : Nat → Bool) : Nat := sumNat (((List.range n).filter p).map fun i => 2 ^ i)

/-- The stored fields of a word. -/
def Dev.storedWord (d : Dev) (fn slot o : Nat) : Nat :=
  sumNat ((Reg.all.filter fun r => r.info.slot == slot).map fun r =>
    match r.place fn with
    | none => 0
    | some (off, stride, count) =>
      let j := if stride = 0 then 0 else (o - off) / stride
      let v := d.reg r (d.copyOf r fn j) * 2 ^ r.info.lo
      if o < off ∨ count ≤ j then 0
      else if o = off + stride * j then fld v 0 32
      else if o = off + stride * j + 4 then fld v 32 32
      else 0)

/-! ### GEN_ and SRV_ (01 Tables 01-5 to 01-10; 02 Tables 02-10, 02-11) -/

def Dev.readGen (d : Dev) (fn o : Nat) : Nat :=
  let x := d.startup
  if o = 0x40 then x.gen.code
  else if o = 0 then d.genId
  else if !x.filled then 0
  else pick o ([(0x04, 0x00844C10), (0x08, 0x3C102420), (0x0C, 0x04004000)] ++
    (if isPf fn && !d.dry then
      [(0x10, x.availFields), (0x14, x.availDevs), (0x18, x.availPorts)] ++
        run4 0x20 ((List.range 8).map fun k => fld x.availCores (32 * k) 32)
    else []))

def SrvState.code : SrvState → Nat
  | .idle => 0 | .verifying => 1 | .staged => 2 | .draining => 3 | .applying => 4 | .storing => 5

def DistState.code : DistState → Nat
  | .absent => 0 | .active => 1 | .draining => 2 | .applying => 3 | .inert => 4

def Dev.readSrv (d : Dev) (port o : Nat) : Nat :=
  let x := d.survey
  let owner := match x.staged with | none => false | some (f, _, _) => f == pf port
  let staged := match x.staged with | none => 0 | some (_, i, _) => i.serial
  pick o ([(0x14, nth 0 x.code port * 65536 + flag owner * 256 + nth 0 x.lastOp port * 16 + x.state.code)] ++
    wide 0x18 x.committedSerial ++ wide 0x20 staged ++ wide 0x28 d.sec.flash.surveyFloor ++
    wide 0x30 (nth 0 x.doneTime port) ++
    run4 0x40 ((List.range 16).map fun k => (d.dist k).fields * 65536 + d.role k * 16 + (d.dist k).state.code))

/-! ### COR_ and FLD_ (04 Tables 04-11, 04-12) -/

def CoreState.code : CoreState → Nat
  | .off => 0 | .gated => 1 | .idle => 2 | .running => 3 | .waitGate => 4 | .waitDma => 5 | .clearing => 6
  | .faulted => 7 | .fenced => 8

def Pool.code : Pool → Nat
  | .none => 0 | .train => 1 | .prefill => 2 | .decode => 3

/-- The pool a core shows: none while its field is in a self-test (17 R389). -/
def Dev.poolShown (d : Dev) (i : Nat) : Nat := if (d.field (i / 16)).inTest then 0 else (d.core i).pool.code

/-- COR_STATUS.STATE: an idle core of a field whose clock is gated is GATED (R112; 16 R367 for a held field). -/
def Dev.coreShown (d : Dev) (i : Nat) : CoreState :=
  let x := d.core i
  match x.state with
  | .idle => if (d.field (i / 16)).state = .gated ∨ (d.field (i / 16)).held = true then .gated else .idle
  | z => z

def Dev.coreRegs (d : Dev) (i : Nat) : List (Nat × Nat) :=
  let x := d.core i
  match x.inst with
  | none => [(0x00, 0x7FF * 2 ^ 21 + d.poolShown i * 65536 + (d.coreShown i).code)] ++ wide 0x18 x.busyClocks
  | some y =>
    [(0x00, y.ctx * 2 ^ 21 + d.poolShown i * 65536 + y.slot * 256 + x.state.code),
     (0x04, fld y.image 0 4 * 2 ^ 26 + fld y.index 0 4 * 2 ^ 22 + fld y.pc 0 22), (0x40, y.tensor)] ++
    wide 0x18 x.busyClocks ++ run4 0x20 y.events

def FieldState.code : FieldState → Nat
  | .off => 0 | .waking => 1 | .gated => 2 | .active => 3 | .clearing => 4 | .fenced => 5

/-- FLD_STATUS.STATE: a held field is clock-gated (16 R367), and a field is CLEARING while one of its cores is cleared
(R111). The table says no more of the two: DESIGN CHOICE (log entry 127). -/
def Dev.fieldShown (d : Dev) (f : Nat) : FieldState :=
  let x := d.field f
  match x.state with
  | .active => if x.held then .gated else if (coresIn f).any fun i => (d.core i).state == .clearing && (d.core i).toClear then
      .clearing else .active
  | z => z

def Dev.fieldRegs (d : Dev) (f : Nat) : List (Nat × Nat) :=
  let x := d.field f
  let busy := whereMask 4 fun s => (nth none x.slots s).isSome
  [(0x00, x.district.getD 0 * 2 ^ 28 + flag x.district.isSome * 2 ^ 27 + fld x.opPoint 0 4 * 2 ^ 20 + busy * 65536 +
      (d.fieldShown f).code),
   (0x04, sumNat ((List.range 16).map fun p => d.poolShown (16 * f + p) * 4 ^ p))] ++
  wide 0x08 x.lendTime ++
  run4 0x10 ((List.range 4).map fun s => match nth none x.slots s with
    | none => 0x7FF * 2 ^ 21
    | some p => p.ctx * 2 ^ 21 + fld p.pc 0 16)

/-! ### FLM_ and DIV_ (05 Tables 05-9, 05-10) -/

def JobState.code : JobState → Nat
  | .free => 0 | .waiting => 1 | .running => 2 | .suspended => 3 | .ending => 4

/-- FLM_JOB.STATE: a live job whose program is pre-empted or not resident is SUSPENDED (R144, 13 R301). -/
def Dev.jobShown (d : Dev) (n j : Nat) : JobState :=
  let y := d.fjob n j
  match y.state with
  | .waiting => if d.progSuspended y.field y.pslot then .suspended else .waiting
  | .running => if d.progSuspended y.field y.pslot then .suspended else .running
  | z => z

def Dev.flumeRegs (d : Dev) (n : Nat) : List (Nat × Nat) :=
  let x := d.flume n
  let buf := (d.plan n).part 1
  let units (k : Nat) := match d.ent? k with | none => 0 | some e => e.flumeShare
  let job (j : Nat) : List (Nat × Nat) :=
    let y := d.fjob n j
    let b := 0x80 + 16 * j
    [(b, if y.state = .free then 0x7FF * 2 ^ 21 else
        y.ctx * 2 ^ 21 + y.district * 2 ^ 17 + fld y.desc.job 0 3 * 2 ^ 14 + fld y.opened.length 0 7 * 2 ^ 7 +
          (d.jobShown n j).code),
     (b + 4, y.finished)] ++ wide (b + 8) y.startMark
  [(0x00, whereMask 4 (fun e => (nth none x.engines e).isSome) * 256 + whereMask 8 fun j => (d.fjob n j).state != .free),
   (0x04, buf.1 / mib * 65536 + buf.2 / mib)] ++
  run4 0x40 ((List.range 16).map fun k => sumNat ((List.range k).map units) * 256 + units k) ++
  (List.range 8).flatMap job ++ run4 0x100 x.events

def Dev.divRegs (d : Dev) (n : Nat) : List (Nat × Nat) :=
  let x := d.div n
  [(0x00, whereMask 4 fun j => (d.divJob n j).isSome), (0x10, x.fetches), (0x14, x.hints)] ++ wide 0x08 x.rows ++
    run4 0x18 x.events

/-! ### CIS_, GAU_ and CFL_ (06 Table 06-9, 07 Tables 07-8, 07-9, 08 Tables 08-8, 08-9) -/

/-- The longest of some runs, and their sum. -/
def longest (l : List (Nat × Nat)) : Nat := l.foldl (fun m r => max m r.2) 0
def total (l : List (Nat × Nat)) : Nat := sumNat (l.map Prod.snd)

def Dev.cisRegs (d : Dev) (k : Nat) : List (Nat × Nat) :=
  let x := d.cistern k
  let spill := d.cisFree (d.spillOf k)
  let e := d.reg .cisEpoch k
  let live (p : Nat → Bool) : Nat := ((d.parts.filter fun y => y.district == k && p y.epoch).length)
  run4 0 ((List.range 4).map fun t =>
    let r := d.cisFree (d.shareOf k 2 t)
    longest r / granule * 65536 + total r / granule) ++
  wide 0x10 (longest spill / granule * 2 ^ 32 + total spill / granule) ++ wide 0x18 (d.spillOf k).1 ++
  wide 0x20 (sinkBase + k * sinkBytes) ++
  [(0x40, live (fun q => decide (q < e)) * 65536 + live (fun q => q == e)),
   (0x44, flag x.retiring * 2 + flag (d.liveTrain k)), (0x54, x.retired),
   (0x60, x.markField * 2 ^ 28 + x.markSeg * 2 ^ 22 + x.markMb)] ++
  run4 0x48 x.events ++ wide 0x58 x.markTime ++ wide 0x68 x.epochTime

def Dev.gauRegs (d : Dev) (k : Nat) : List (Nat × Nat) :=
  let x := d.gauge k
  let w := x.table[d.reg .gauEntrySel k]?
  [(0x00, x.clean * 65536 + x.ls), (0x04, x.attempt), (0x10, x.reason * 65536 + x.verdict), (0x14, x.norm),
   (0x18, x.clip), (0x1C, x.vscale), (0x38, x.dryCount), (0x3C, x.ratioCount), (0x48, x.dryStreak * 65536 + x.dryEntry),
   (0x4C, x.crushCount), (0x70, x.head),
   (0xB0, match w with | none => 0 | some w => w.streak * 65536 + w.last),
   (0xB4, match w with | none => 0 | some w => w.tensor)] ++
  wide 0x40 x.dryTime ++ wide 0x50 x.verdictTime ++ run4 0x84 x.events

def RoundState.code : RoundState → Nat
  | .none => 0 | .admitting => 1 | .reducing => 2 | .awaitFinal => 3 | .finalising => 4 | .closed => 5

def Dev.cflRegs (d : Dev) (k : Nat) : List (Nat × Nat) :=
  let x := d.cfl k
  let r := x.round
  [(0x0C, min 255 r.summed * 2 ^ 24 + min 255 r.present * 65536 + min 255 (r.fields.length + r.imports) * 256 + r.state.code),
   (0x18, r.ls * 65536 + r.attempt), (0x40, r.normsq), (0x44, r.reason * 65536 + r.reruns),
   (0x48, x.held.length * 65536 + x.folds.length)] ++
  wide 0x10 r.step ++ wide 0x20 r.tokens ++ wide 0x28 r.openTime ++ wide 0x30 r.closeTime ++ wide 0x38 r.resultTime ++
  run4 0x64 x.events

/-- A round that reduces has a bucket on a Confluence instance. -/
def Dev.reducing (d : Dev) (n : Nat) : Bool :=
  (List.range 16).any fun k => ((d.cfl k).round.state == .reducing || (d.cfl k).round.state == .finalising) &&
    (d.cfl k).table.any fun b => b.inst == n

/-- A Confluence instance. Which bucket it reduces while a round reduces is not stated: a free value (log entry 31). -/
def Dev.cflInstRegs (d : Dev) (n : Nat) : List (Nat × Nat) :=
  [(0x00, if d.reducing n then 4096 + fld (Config.freeNat d.draws) 0 12 else 0), (0x04, (d.plan n).conflMib)] ++
    wide 0x08 (nth 0 d.cflElems n)

/-! ### INT_ and OFT_ (09 Tables 09-8, 09-9; 10 Tables 10-8, 10-9) -/

def Dev.intRegs (d : Dev) (k : Nat) : List (Nat × Nat) :=
  let x := d.serve k
  let live := d.reqsOf k
  [(0x00, live.length * 65536 + (live.filter fun r => r.state == .queued).length), (0x18, d.freeParcels k),
   (0x1C, (d.retained k).length), (0x30, x.cmdCode * 65536),
   (0x40, (d.lentOf k true).length * 256 + (d.lentOf k false).length), (0x58, x.itl), (0x5C, x.ttft)] ++
  wide 0x48 x.lendTime ++ run4 0x80 x.refused ++ run4 0xC0 x.cancelled

/-- The registers of tenant t that the device shows. -/
def Dev.tenantRegs (d : Dev) (t : Nat) : List (Nat × Nat) :=
  [(0x10, ceilDiv (d.chargedMem t) mib), (0x14, twos32 ((d.refilled t).bucket / 10 ^ 6)),
   (0x18, (d.reqsOfTenant t).length)]

/-- The tenant's own view: the group is the one in force. -/
def Dev.intVfRegs (d : Dev) (t : Nat) : List (Nat × Nat) :=
  [(0x00, d.reg .intQuota t), (0x04, d.reg .intEnergy t), (0x08, d.reg .intReqMax t), (0x0C, (d.ten t).group)] ++
    d.tenantRegs t

def Dev.oftRegs (d : Dev) (k : Nat) : List (Nat × Nat) :=
  let x := d.serve k
  [(0x14, x.capHead), (0x1C, x.capDropped), (0x20, x.capRefused), (0x40, x.fullRej), (0x44, x.dropped), (0x48, x.halved)] ++
  wide 0x28 x.specSteps ++ wide 0x30 x.specNodes ++ wide 0x38 x.specAccepted ++ run4 0x50 x.oftRefused

def Dev.oftVfRegs (d : Dev) (t : Nat) : List (Nat × Nat) :=
  let sel := d.reg .oftVfSel t
  let all := d.ofts.filter fun v => v.tenant == t
  let mine := all.filter fun v => v.variant == sel
  let old := mine.filter fun v => !v.current
  let oldest := (sortBy (fun v => v.version) old).head?
  let now := d.oftCurrent t sel
  [(0x04, (match oldest with | none => 0 | some v => v.version) * 65536 + (match now with | none => 0 | some v => v.version)),
   (0x08, sumNat (old.map fun v => v.pins) * 65536 + (match now with | none => 0 | some v => v.pins)),
   (0x0C, ceilDiv (d.oftCharge t) 1024), (0x18, (all.filter fun v => v.current).length)] ++
  wide 0x10 (Tbl.get 0 d.oftTimes (t * 65536 + sel))

/-! ### MEM_ and CXL_ (11 Tables 11-8, 11-9) -/

def DevState.code : DevState → Nat
  | .off => 0 | .training => 1 | .active => 2 | .unowned => 3 | .fenced => 4 | .migrating => 5

def EntState.code : EntState → Nat
  | .backed => 1 | .loading => 2 | .resident => 3 | .staged => 4

def CxlState.code : CxlState → Nat
  | .down => 0 | .training => 1 | .up => 2 | .fenced => 3 | .absent => 4

def Dev.memDevRegs (d : Dev) (x : Nat) : List (Nat × Nat) :=
  let m := d.memDev x
  let k := d.districtOfDev x
  let at_ := match k with | none => 0 | some k => posOf x (d.dist k).devices
  [(0x00, k.getD 0 * 2 ^ 28 + flag k.isSome * 2 ^ 27 + at_ * 8 + m.state.code), (0x04, m.ce), (0x08, m.ue), (0x0C, m.retry)]

def Dev.memDistRegs (d : Dev) (k : Nat) : List (Nat × Nat) :=
  let x := d.dist k
  if x.state = .absent then [] else
  [(0x00, whereMask 32 fun y => x.devices.contains y), (0x10, x.spillGib * 65536 + x.stagingGib),
   (0x14, total (d.freeRuns k) / mib), (0x18, longest (d.freeRuns k) / mib), (0x1C, d.pinnedNow k / mib),
   (0x20, x.migrate)] ++ wide 0x08 x.stagingBase

/-- The district that a way of a slice belongs to. -/
def Dev.wayOf (d : Dev) (t w : Nat) : Option Nat :=
  (List.range 16).find? fun k => match d.ent? k with | none => false | some e => bit e.wayMask (16 * t + w)

/-- The entry that a handle names, whatever its district. -/
def Dev.selEntry (d : Dev) : Option CacheEnt :=
  let h := d.reg .memEntrySel 0
  let e := d.entry (h % 2 ^ 24)
  if e.live ∧ e.gen % 256 = h / 2 ^ 24 then some e else none

def Dev.memRegs (d : Dev) : List (Nat × Nat) :=
  (match d.selEntry with
    | none => []
    | some e => [(0x200C, min 65535 e.pins * 65536 + min 255 e.usePins * 256 + e.state.code)] ++ wide 0x2010 e.lastUse) ++
  [(0x2018, (d.cache.filter fun e => e.2.live).length)] ++
  (List.range 4).flatMap (fun t =>
    wide (0x2040 + 8 * t) (sumNat ((List.range 16).map fun w => (d.wayOf t w).getD 0 * 16 ^ w)) ++
    [(0x2060 + 4 * t, whereMask 16 fun w => (d.wayOf t w).isNone)])

def Dev.cxlRegs (d : Dev) (n : Nat) : List (Nat × Nat) :=
  let x := d.cxlPort n
  let dev (k : Nat) : List (Nat × Nat) := match x.devs[k]? with
    | none => []
    | some m => [(0x08 + 8 * k, m.baseGib), (0x0C + 8 * k, fld m.downPort 0 8 * 65536 + m.sizeGib)]
  [(0x00, x.reason * 65536 + x.devs.length * 256 + x.state.code), (0x04, sumNat (x.devs.map fun m => m.sizeGib))] ++
  (List.range 4).flatMap dev ++ run4 0x28 x.events ++ wide 0x48 x.readBytes ++ wide 0x50 x.writeBytes

/-! ### CAN_ and GAT_ (12 Table 12-8) -/

def Dev.canRegs (d : Dev) (n : Nat) : List (Nat × Nat) :=
  [(0x00, nth 0 d.canal.aqStatus n), (0x18, nth 0 d.canal.aqRetry n)] ++ wide 0x08 (nth 0 d.canal.aqUp n) ++
    wide 0x10 (nth 0 d.canal.aqDown n)

/-- The Gates of a pool that are held, and those that one context holds. -/
def Dev.heldGates (d : Dev) (p : Nat → Gate → Bool) : Nat := (d.gates.filter fun g => g.2.holder != 0x7FF && p g.1 g.2).length

def Dev.poolWord (d : Dev) (k : Nat) : Nat := match d.ent? k with | none => 0 | some e => e.gateCount * 65536 + e.gateFirst

def Dev.gatRegs (d : Dev) : List (Nat × Nat) :=
  let n := d.reg .gatSel 0
  let g := d.gate n
  wide 0x08 g.value.toNat ++ wide 0x10 g.mark ++
  [(0x18, g.holder * 2 ^ 21 + g.source), (0x1C, (d.waits.filter fun w => w.gate == n && !w.released).length)] ++
  run4 0x40 ((List.range 16).map d.poolWord) ++
  run4 0x80 ((List.range 16).map fun k => match d.ent? k with
    | none => 0
    | some e => d.heldGates fun i _ => decide (e.gateFirst ≤ i ∧ i < e.gateFirst + e.gateCount))

def Dev.gatVfRegs (d : Dev) (t : Nat) : List (Nat × Nat) :=
  let g := d.gate (d.reg .gatVfSel t)
  let mine := g.holder == t
  [(0x00, match d.districtOf t with | none => 0 | some k => d.poolWord k), (0x04, d.heldGates fun _ g => g.holder == t)] ++
  (if mine then wide 0x10 g.value.toNat ++ wide 0x18 g.mark else [])

/-! ### SCH_ (13 Tables 13-6, 13-7) -/

def CtxState.code : CtxState → Nat
  | .absent => 0 | .idle => 1 | .swapped => 2 | .runnable => 3 | .blocked => 4 | .draining => 5 | .teardown => 6
  | .faulted => 7

def Dev.schRegs (d : Dev) (port : Nat) : List (Nat × Nat) :=
  let x := d.sched
  let table := d.rotTable.2
  let rot := match d.rotNow with
    | none => 0
    | some (j, _) => 2 ^ 31 + (match d.rotEnt j with | none => 0 | some e => fld e.kind 0 2) * 2 ^ 28 + fld j 0 12 * 65536
  wide 0x10 (whereMask 64 fun s => d.slotCtx s != 0x7FF) ++ [(0x18, rot + table.length)] ++ wide 0x20 (if table.isEmpty then 0 else d.rotFrame) ++
  [(0x2C, nth 0 x.cmdCode port * 65536), (0x30, x.evict), (0x34, x.preempt), (0x38, x.abandon), (0x3C, x.rtLate)] ++
  run4 0x100 ((List.range 64).map fun s => d.slotCtx s * 2 ^ 21)

/-- The registers of context c; a virtual function does not see the slot. -/
def Dev.ctxRegs (d : Dev) (c : Nat) (own : Bool) : List (Nat × Nat) :=
  let x := d.ctx c
  [(0x00, (if own then 0xFF else x.slot) * 65536 + x.block * 256 + x.state.code)] ++ wide 0x08 (d.cyclesNow c) ++
    wide 0x10 (d.vNow c) ++ (if x.state = .blocked then wide 0x28 x.blockStart else [])

/-- The stored fields of a context's block that its own virtual function reads. -/
def Dev.ctxVfRegs (d : Dev) (t : Nat) : List (Nat × Nat) :=
  [(0x04, d.reg .schShares t), (0x18, d.reg .schFaultCode t * 65536)] ++ wide 0x20 (d.reg .schFaultTime t) ++ d.ctxRegs t true

/-! ### HIF_, SLC_ and SEC_ (14 Tables 14-14 to 14-16; 15 Tables 15-9, 15-10) -/

def RingState.code : RingState → Nat
  | .disabled => 0 | .active => 1 | .draining => 2 | .error => 3 | .resetting => 4

def Dev.hifRegs (d : Dev) (fn : Nat) : List (Nat × Nat) :=
  [(0x00, pairsOf fn * 2 ^ 24 + flag (isPf fn) * 2 ^ 13 + portOf fn * 2 ^ 12 + (if isPf fn then 0x3FF else fn)),
   (0x14, (d.err fn).head), (0x1C, (d.err fn).lost)]

def Dev.ringRegs (d : Dev) (fn pair : Nat) : List (Nat × Nat) :=
  let r := d.ring fn pair
  [(0x14, flag (r.state == .active || r.state == .error) * 2 ^ 31), (0x18, r.code * 65536 + r.state.code), (0x1C, r.fetched),
   (0x20, r.written), (0x24, d.ringLive fn pair)]

def Dev.sluiceRegs (d : Dev) (sl : Nat) : List (Nat × Nat) :=
  let x := d.sluice sl
  run4 0 x.msg ++ [(0x44, flag x.full * 256 + x.seq), (0x48, x.ackCode * 65536 + x.ackSeq), (0x4C, x.misuse * 65536)]

def Dev.readSlc (d : Dev) (fn o : Nat) : Nat :=
  if isPf fn then
    readArray o 0 0x100 16 (fun i => if (d.sluice (1024 + i)).bound (masterOf fn) then d.sluiceRegs (1024 + i) else []) +
    readArray o 0x2000 4 1040 fun s => [(0, (d.sluice s).sender * 65536 + (d.sluice s).receiver)]
  else pick o (d.sluiceRegs fn)

def Dev.readSec (d : Dev) (fn o : Nat) : Nat :=
  let x := d.sec
  pick o ([(0x00, flag (!x.akCert.isEmpty && decide (x.akNext < keyEnd)) * 4 + flag x.policy.isSome * 2 + flag x.identityOk),
    (0x48, Tbl.get 0 x.code fn * 65536)] ++ wide 0x50 (Tbl.get 0 x.doneTime fn) ++
  (if isPf fn then
    run4 0x100 ((List.range 4).map fun k => leAt (digestOr 16 Config.identityDigest) (4 * k) 4) ++
    [(0x110, x.flash.akGen), (0x114, x.akNext), (0x118, match x.policy with | none => 0 | some p => p.id),
     (0x120, d.lkk.svn), (0x124, x.flash.lkkFloor), (0x128, d.lkk.hgSvn), (0x12C, x.flash.hgFloor), (0x130, x.flash.revoke),
     (0x180, x.verifyFail)] ++ run4 0x140 x.flash.sysEpoch ++ wide 0x188 x.signed
  else []))

/-! ### PWR_, ALT_, CLK_ and TIM_ (16 Tables 16-1, 16-4, 16-6, 16-8) -/

def Dev.readPwr (d : Dev) (o : Nat) : Nat :=
  let x := d.power
  pick o ([(0x04, d.limitW * 65536 + flag (inVolts (nth 0 x.mv 1)) * 32 + flag (inVolts (nth 0 x.mv 0)) * 16 + x.source),
    (0x08, nth 0 x.mv 0 * 65536 + nth 0 x.watts 0), (0x0C, nth 0 x.mv 1 * 65536 + nth 0 x.watts 1), (0x10, x.switches)])

/-- A grant stands where R367 has moved it, or a field is held. -/
def Dev.moved (d : Dev) : Bool :=
  (d.power.grants.any fun (_, g) => match g with | none => false | some g => g.point != g.given) ||
    d.fields.any fun (_, x) => x.held

def Dev.altDistRegs (d : Dev) (k : Nat) : List (Nat × Nat) :=
  let x := d.power
  let mj (l : List Nat) : Nat := nth 0 l k / 1000
  [(0x00, (match d.ent? k with | none => 0 | some e => e.floorW) * 65536),
   (0x04, (x.waiting.filter fun w => w.district == k).length * 65536 + ceilRat (d.committedW k false)),
   (0x28, nth 0 x.repoint k)] ++ wide 0x08 (mj x.fieldUj) ++ wide 0x10 (mj x.mem) ++ wide 0x18 (mj x.idle) ++
  wide 0x20 (mj x.overrun) ++ wide 0x30 (mj x.estimate)

def Dev.grantRegs (d : Dev) (i : Nat) : List (Nat × Nat) :=
  match d.grant? (i / 4) (i % 4) with
  | none => []
  | some g => [(0x00, ceilRat g.rate * 65536 + g.point * 4096 + g.req * 256 + 1), (0x04, g.left)] ++ wide 0x08 g.mark

def Dev.readAlt (d : Dev) (o : Nat) : Nat :=
  let x := d.power
  pick o ([(0x00, d.limitW * 65536 + flag x.floorShort * 2 + flag d.moved), (0x08, x.base), (0x0C, x.input), (0x10, x.overs)] ++
    wide 0x18 (x.device / 1000) ++ wide 0x28 (Tbl.get 0 x.ctx (d.reg .altCtxSel 0) / 1000) ++
    run4 0xC00 ((List.range 16).map fun f => (d.field f).droops)) +
  readArray o 0x100 0x40 16 d.altDistRegs + readArray o 0x800 0x10 64 d.grantRegs

/-- Work of the Canal, Reservoir, Flume and Confluence of a terrace (16 R371): jobs of its engines, transfers of its cores
and of its system DMA engine, and a reduction of its buckets. -/
def Dev.uncoreBusy (d : Dev) (t : Nat) : Bool :=
  ((List.range 8).any fun j => (d.fjob t j).state != .free) || ((List.range 4).any fun j => (d.divJob t j).isSome) ||
    (d.cores.any fun (i, x) => i / 64 == t && match x.inst with | none => false | some y => !y.outstanding.isEmpty) ||
    (d.orders.any fun o => o.opcode == opDma && o.phase == .running && engineOf (portOf o.id.fn) == t) || d.reducing t

/-- CLK_DOM of domain k (Tables 16-5, 16-6). The frequency of a link or of an uncore domain is not stated: a free value
(log entry 31). -/
def Dev.domain (d : Dev) (k : Nat) : Nat :=
  let free := fld (Config.freeNat (d.draws + k)) 0 12
  let w (mhz st : Nat) : Nat := (if st = 3 then mhz else 0) * 2 ^ 20 + st
  if k = 0 then w 25 3
  else if k = 1 then (if 3 ≤ d.startup.stage then w 1200 3 else w 0 0)
  else if k < 18 then match (d.field (k - 2)).state with
    | .off => w 0 (if (d.field (k - 2)).district.isSome then 1 else 0)
    | .gated => w 0 2
    | .fenced => w 0 5
    | .waking => w (d.mhzOf (d.field (k - 2)).opPoint) 3
    | .clearing => w (d.mhzOf (d.field (k - 2)).opPoint) 3
    | .active => if (d.field (k - 2)).held then w 0 2 else w (d.mhzOf (d.field (k - 2)).opPoint) 3
  else if k < 50 then
    let m := d.memDev (k - 18)
    match m.state with
    | .fenced => w 0 5
    | .off => w 0 0
    | .unowned => w 0 0
    | _ => if m.refresh || d.dry then w 0 4 else w 1000 3
  else if k < 54 then (if 3 ≤ d.startup.stage then (if d.uncoreBusy (k - 50) then w free 3 else w 0 2) else w 0 0)
  else if k < 56 then (if (nth Port.init d.ports (k - 54)).linkUp then w free 3 else w 0 0)
  else if k < 60 then (if (d.cxlPort (k - 56)).state = .up then w free 3 else w 0 0)
  else 0

def Dev.readClk (d : Dev) (o : Nat) : Nat :=
  readArray o 0 4 60 (fun k => [(0, d.domain k)]) + readArray o 0x100 4 60 (fun k => [(0, Tbl.get 0 d.wakes k)]) +
  pick o [(0x200, flag (d.time.refPresent && d.reg .clkRefEn 0 == 1) * 2)]

def Dev.readTim (d : Dev) (o : Nat) : Nat :=
  let x := d.time
  pick o (wide 0x00 x.cnt ++
    [(0x14, flag x.hold.isSome * 16 + flag x.holdover * 8 + flag (decide (3 ≤ x.goodEdges)) * 4 + flag x.epochSet * 2),
     (0x18, twos32 x.err), (0x1C, x.steps), (0x34, twos32 x.slew), (0x38, x.ppsCount), (0x3C, x.ppsIgnored)])

/-! ### RAS_, SLT_ and LKK_ (17 Tables 17-9 to 17-11) -/

/-- How many units a kind has (17 Table 17-8). -/
def unitsOfKind (kind : Nat) : Nat := nth 0 [0, 16, 256, 32, 4, 8, 4, 4, 2] kind

def UnitState.code : UnitState → Nat
  | .available => 0 | .fenced => 1 | .testing => 2 | .fencePending => 3

def Dev.readRas (d : Dev) (o : Nat) : Nat :=
  let kind := d.reg .rasSelKind 0
  let u := d.reg .rasSelUnit 0
  let x := d.unit kind u
  let t := d.lkk.temps
  let recent := x.ueTimes.filter fun y => decide (d.time.osc < y + 86400 * 10 ^ 9)
  pick o ((if u < unitsOfKind kind then
      [(0x04, x.reason * 65536 + x.state.code), (0x08, x.ce), (0x0C, x.ue), (0x10, min 255 recent.length)]
    else [(0x04, 4)]) ++
    [(0x24, 110 * 256), (0x40, fld (Config.freeNat d.draws) 0 5 * 256 + nth 0 t 4)] ++ run4 0x30 (t.take 4) ++
    (List.range 16).flatMap fun f =>
      wide (0x80 + 8 * f) (d.field f).testLast ++ [(0x100 + 4 * f, (d.field f).testPieces * 65536 + (d.field f).testResult)])

/-- The entry of a sequence number, if the ring still holds it (17 R406). -/
def Silt.entryAt (s : Silt) (q : Nat) : SiltEnt :=
  match s.entries.find? fun e => e.seq == q with
  | none => SiltEnt.zero
  | some e => e

def Dev.readSlt (d : Dev) (o : Nat) : Nat :=
  let x := d.silt
  let e := (x.entryAt (d.reg .sltSel 0)).bytes
  let copy (j : Nat) : Nat × Nat := match nth none x.flash j with | none => (0, 0) | some c => (c.mark, c.seq)
  pick o ([(0x00, x.next), (0x34, x.cmdCode * 65536)] ++ run4 0x08 ((List.range 8).map fun k => leAt e (4 * k) 4) ++
    wide 0x38 (copy 0).1 ++ wide 0x40 (copy 1).1 ++ [(0x48, (copy 0).2), (0x4C, (copy 1).2)])

def Dev.readLkk (d : Dev) (o : Nat) : Nat :=
  let x := d.lkk
  let fails := (x.fails.filter fun y => decide (d.time.osc < y + 60 * 10 ^ 9)).length
  pick o ([(0x00, x.slot * 256 + min 3 fails * 16 + x.state), (0x04, x.takeovers), (0x40, x.resetIgnored),
    (0x18, nth 0 x.eids 2 * 2 ^ 24 + nth 0 x.eids 1 * 65536 + nth 0 x.eids 0 * 256),
    (0x1C, x.update.component * 256 + x.update.state)] ++
    run4 0x20 (x.hgs.map fun h => h.restarts * 65536 + h.state))

/-! ### The window -/

/-- What the Weir serves in Dry (17 R397). -/
def Dev.readDry (d : Dev) (fn slot o : Nat) : Nat :=
  if slot = 0 ∧ (o < 0x10 ∨ o = 0x40) then d.readGen fn o
  else if !isPf fn then 0
  else if slot = 24 then d.storedWord fn slot o + d.readSlt o
  else if slot = 23 ∧ o = 0x48 then d.storedWord fn slot o
  else if slot = 25 ∧ (o < 0x18 ∨ o = 0x40) ∧ o ≠ 0x04 then d.storedWord fn slot o + d.readLkk o
  else 0

/-- The block of a district reads 0 while the district has not the role (06 R166, 07 R195, 08 R217, 09 R238, 10 R254). -/
def Dev.districtWord (d : Dev) (fn slot o stride : Nat) (role : Nat → Bool) (always : Nat → Bool)
    (shown : Nat → List (Nat × Nat)) : Nat :=
  if role (o / stride) || always (o % stride) then d.storedWord fn slot o + pick (o % stride) (shown (o / stride)) else 0

/-- A word of a physical function's window. -/
def Dev.readPf (d : Dev) (fn slot o : Nat) : Nat :=
  let stored := d.storedWord fn slot o
  match slot with
  | 0 => stored + d.readGen fn o
  | 1 => stored + d.readSrv (portOf fn) o
  | 2 => stored + readArray o 0 0x40 16 d.fieldRegs
  | 3 => stored + readArray o 0 0x80 256 d.coreRegs
  | 4 => readArray o 0 0x200 4 d.flumeRegs
  | 5 => if o < 0x1000 then d.districtWord fn 5 o 0x100 d.isTrain (fun _ => false) d.cisRegs else 0
  | 6 =>
    if o < 0x1000 then
      d.districtWord fn 6 o 0x100 d.isTrain (fun q => q == 0x0C || q == 0x7C) (fun k => if d.isTrain k then d.gauRegs k else []) +
        (if o % 0x100 = 0x7C then (d.gauge (o / 0x100)).cmdCode * 65536 else 0)
    else readArray o 0x1000 8 4 fun n => wide 0 (nth 0 d.gaugeReports n)
  | 7 =>
    if o < 0x1000 then
      d.districtWord fn 7 o 0x100 d.isTrain (fun q => q == 0x60) (fun k => if d.isTrain k then d.cflRegs k else []) +
        (if o % 0x100 = 0x60 then (d.cfl (o / 0x100)).cmdCode * 65536 else 0)
    else readArray o 0x1000 16 4 d.cflInstRegs
  | 8 => readArray o 0 0x80 4 d.divRegs
  | 9 =>
    if o < 0x2000 then d.districtWord fn 9 o 0x200 d.isServe (fun _ => false) d.intRegs
    else stored + readArray o 0x8000 0x20 1024 d.tenantRegs
  | 10 =>
    if o < 0x1000 then d.districtWord fn 10 o 0x100 d.isServe (fun _ => false) d.oftRegs
    else pick o [(0x1000, d.ofts.length)]
  | 11 => stored + (if o < 0x800 then readArray o 0 0x40 32 d.memDevRegs
      else if o < 0x2000 then readArray o 0x1000 0x40 16 d.memDistRegs else pick o d.memRegs)
  | 12 => stored + readArray o 0 0x100 4 d.cxlRegs
  | 13 => readArray o 0 0x40 4 d.canRegs + readArray o 0x100 8 4 fun t => wide 0 (nth 0 d.canal.terBytes t)
  | 14 => stored + pick o d.gatRegs
  | 15 => stored + (if o < 0x1000 then pick o (d.schRegs (portOf fn))
      else readArray o 0x1000 0x40 1040 fun c => d.ctxRegs c false)
  | 16 => stored + (if o < 0x100 then pick o (d.hifRegs fn) else readArray o 0x100 0x40 64 (d.ringRegs fn))
  | 17 => stored + d.readSlc fn o
  | 18 => stored + d.readSec fn o
  | 19 => stored + d.readAlt o
  | 20 => stored + d.readClk o
  | 21 => stored + d.readTim o
  | 22 => stored + d.readPwr o
  | 23 => stored + d.readRas o
  | 24 => stored + d.readSlt o
  | 25 => stored + d.readLkk o
  | _ => 0

/-- A word of a virtual function's window. -/
def Dev.readVf (d : Dev) (t slot o : Nat) : Nat :=
  match slot with
  | 0 => d.readGen t o
  | 9 => d.storedWord t 9 o + pick o (d.intVfRegs t)
  | 10 => d.storedWord t 10 o + pick o (d.oftVfRegs t)
  | 14 => d.storedWord t 14 o + pick o (d.gatVfRegs t)
  | 15 => d.storedWord t 15 o + pick o (d.ctxVfRegs t)
  | 16 => d.storedWord t 16 o + (if o < 0x100 then pick o (d.hifRegs t) else readArray o 0x100 0x40 8 (d.ringRegs t))
  | 17 => d.readSlc t o
  | 18 => d.storedWord t 18 o + d.readSec t o
  | _ => 0

/-- The 32-bit word at an aligned offset of a function's window. -/
def Dev.readWord (d : Dev) (fn off : Nat) : Nat :=
  let w := window fn off
  if msixAt fn ≤ off then d.msixRead fn (off - msixAt fn)
  else if d.dry then d.readDry fn w.1 w.2
  else if isPf fn then d.readPf fn w.1 w.2
  else d.readVf fn w.1 w.2

/-- A read of 4 or 8 bytes (R8): the lower-addressed register is bits 31 to 0. Behind a port that answers Retry Status
it completes with 0 (16 R380). -/
def Dev.readReg (d : Dev) (fn off len : Nat) : Nat :=
  if d.deaf fn then 0
  else d.readWord fn off + (if len = 8 then 2 ^ 32 * d.readWord fn (off + 4) else 0)

/-- R8, Table 14-12: a read of 4 or 8 aligned bytes is answered; an access of another width or alignment is discarded, or
a read of it answered with Completer Abort, and a record is written. -/
def execPcieRegAccess (fn off len : Nat) (write : Bool) (s : State) : Host.Outcome State Fault Refusal :=
  always (.pcieRegAccess fn off len write) s fun d =>
    if (len = 4 ∨ len = 8) ∧ off % len = 0 then
      (if write then d else d.emit (.registerRead fn off (BitVec.ofNat 64 (d.readReg fn off len))))
    else if d.deaf fn then (if write then d else d.emit (.registerRead fn off 0))
    else
      let d := if write then d else d.emit (.pcieAnswer fn 1)
      if d.dry then d else d.violation fn 0x0401

end Sys2Proof.Machine
end

