-- ==== Sys2Proof/Machine/StewOps.lean ====
section
/-!
DEFINITION. What the instructions of a field steward do: FRUN and its binding (04 R107, 06 R148, R149, R152 to R160,
13 R305), and kicks of units (04 R109).
-/
namespace Sys2Proof.Machine

/-- A program whose steward issues now: its field runs, no stop and no wait holds it, and its context may run. kicking
admits one that waits to repeat its FKICK. -/
def Dev.stewReady (d : Dev) (f s : Nat) (kicking : Bool) : Option Prog :=
  match d.prog f s with
  | none => none
  | some p =>
    let x := d.field f
    if p.ending = none ∧ (p.wait = .none ∨ (kicking = true ∧ p.wait = .kick)) ∧ x.state = .active ∧ x.held = false ∧
        x.opChange = none ∧ x.inTest = false ∧ d.frozen = false ∧ d.mayRun p.ctx = true then some p
    else none

/-- The steward of a slot issues its next instruction, if it is one of an opcode; past the code it faults (R106). -/
def Dev.steward (d : Dev) (f s op : Nat) (kicking : Bool) (g : Dev → Prog → Nat → Dev) : Dev :=
  match d.stewReady f s kicking with
  | none => d
  | some p => match p.word with
    | none => (d.faultProg f s 0x034B).pump
    | some w => if opOf w = op then ((g d p w).resettle p.ctx).pump else d

/-- The program goes on. -/
def Dev.stewNext (d : Dev) (f s : Nat) : Dev := d.modProg f s Prog.next

/-! ### FRUN -/

/-- A program of another slot comes first for the cores of an FRUN: it waits for the same cores and could bind now, and
its context has a lower V, or an equal V and an earlier FRUN (13 R305). -/
def Dev.bindsFirst (d : Dev) (f s : Nat) (p : Prog) (runnel : Bool) : Bool :=
  (d.field f).progs.any fun (t, q) => t != s && match q.wait with
    | .frun j =>
      q.pool == p.pool && (match q.imgs[j]? with | some m => m.runnel == runnel | none => false) &&
        (d.bindCores f t q j).isSome &&
        decide (d.vNow q.ctx < d.vNow p.ctx ∨ (d.vNow q.ctx = d.vNow p.ctx ∧ q.waitMark < p.waitMark))
    | _ => false

/-- Bind instances of an image if cores are free for it; prep gives what the start writes into their ponds, and fin
what the program is afterwards. -/
def Dev.bindNow (d : Dev) (f s : Nat) (p : Prog) (img run : Nat)
    (prep : Dev → Dev × List (Nat × Bytes)) (fin : Prog → Prog) : Dev :=
  match p.imgs[img]? with
  | none => d
  | some m =>
    if (d.usableOf f m.runnel).length < m.countMin then d.faultProg f s 0x0349
    else if d.bindsFirst f s p m.runnel then d
    else match d.bindCores f s p img with
      | none => d
      | some cores =>
        let (d, ok) := d.reserveAgain f s p.district
        if !ok then d else
        let (d, boot) := prep d
        (d.bind f s p img run cores boot).modProg f s fin

/-- The waiting FRUN of a program binds its instances if it can (R107, 06 R149, R152, R155, R160). -/
def Dev.tryBind (d : Dev) (f s : Nat) : Dev :=
  match d.prog f s with
  | none => d
  | some p => match p.wait with
    | .frun img =>
      let n := p.runsOf img
      let plain := d.bindNow f s p img n (fun d => (d, [])) Prog.next
      match p.plan?, p.kind.order? with
      | some x, some o => match x.role img, d.part? o f with
        | .forward seg, some y =>
          d.bindNow f s p img n (fun d => match d.forwardRun p o f x y seg (n - 1) with
            | .block d b => (d, [(x.segPond, b)])
            | .recompute d _ b => (d, [(x.segPond, b)])) Prog.next
        | .backward seg, some y =>
          if p.afterRecompute = some 0 then d else
          match d.backwardRun p o f x y seg (n - 1) p.afterRecompute.isSome with
          | .block d b =>
            d.bindNow f s p img n (fun d => (d, [(x.segPond, b)])) fun p => { p.next with afterRecompute := none }
          | .recompute d j b =>
            if y.rcpBusy then d else
            d.bindNow f s p j n (fun d => (d.modPart o f fun y => { y with rcpBusy := true }, [(x.segPond, b)]))
              fun p => { p with afterRecompute := some 0 }
        | .optimiser, _ =>
          if (d.cistern p.district).retiring then d else
          d.bindNow f s p img n (fun d => (d, [(x.segPond, d.optBlock p.district)])) Prog.next
        | _, _ => plain
      | _, _ => plain
    | _ => d

/-- The operands of an FRUN of a plan image that R148 faults. -/
def Dev.planFault (d : Dev) (p : Prog) (img : Nat) : Bool :=
  match p.plan? with
  | none => false
  | some x =>
    let n := p.runsOf img + 1
    let most := match d.stepOf p.kind with | none => 0 | some y => y.microBatches
    match x.role img with
    | .none => false
    | .recompute _ => true
    | .backward seg => decide (n > most) ||
        (match x.segs[seg]? with | some g => decide (p.runsOf g.fwd < n) | none => true)
    | .forward _ => decide (n > most)
    | .optimiser => decide (n > most)

/-- The first FRUN of OPT_IMAGE on any field of an order begins its optimiser phase: it retires the epoch before (06 R160),
and the verdict is formed if the round has handed over its result (log entry 116). -/
def Dev.optFirst (d : Dev) (p : Prog) (img : Nat) : Dev :=
  match p.plan?, p.kind.order? with
  | some x, some o =>
    if x.opt ≠ some img then d else
    match d.step? o with
    | none => d
    | some y => if y.optBegun then d
      else ((d.modStep o fun y => { y with optBegun := true }).retire y.district).formVerdict y.district
  | _, _ => d

/-- FRUN (R107). Where several of its faults apply, 0x034B comes before 0x0349 and that before 0x034A (DESIGN CHOICE, log
entry 124: the rule gives no order). -/
def Dev.frun (d : Dev) (f s : Nat) (p : Prog) (img : Nat) : Dev :=
  match p.imgs[img]? with
  | none => d.faultProg f s 0x034B
  | some m =>
    if d.planFault p img then d.faultProg f s 0x034B
    else if (d.usableOf f m.runnel).length < m.countMin then d.faultProg f s 0x0349
    else if (d.grant? f s).isNone then d.faultProg f s 0x034A
    else
      let (t, d) := d.mark (srcSteward f)
      let d := d.modProg f s fun p =>
        { p with wait := .frun img, waitMark := t, runs := p.runs ++ [img], afterRecompute := none }
      (d.optFirst p img).tryBind f s

/-! ### FKICK -/

/-- What a kick asks of: the unit and the job kind, as the descriptor's first byte gives it. -/
structure KickOf where
  unit : Nat
  job : Nat
deriving DecidableEq, Repr

/-- Bytes of a unit's descriptor (05 R120, R125, 08 R209); a Gauge kick reads none. -/
def kickBytes (unit : Nat) : Nat := if unit = 1 then 128 else if unit = 2 then 64 else if unit = 3 then 80 else 0

/-- The kick of an FKICK word. -/
def kickOf (p : Prog) (w : Nat) : KickOf :=
  { unit := iPtr w, job := if iPtr w = 4 then 0 else ofLe (p.dataAt (imm32 w % 65536) 1) }

/-- A POST of the program's field part; a program with none is refused as work outside a step. -/
def Dev.kickPost (d : Dev) (f : Nat) (p : Prog) (b : Bytes) : Kick :=
  match d.stepOf p.kind, p.kind.order? with
  | some y, some o => match d.part? o f with
    | none => .refused 0x0195
    | some x => match d.post p.ctx p.district x y.step y.attempt y.ls b with
      | .error c => .refused c
      | .ok d => .done d
  | _, _ => .refused 0x0195

/-- FKICK (R109): its operands, then the unit's answer. A Gauge job has no descriptor and no effect in the spec: the
steward goes on (log entry 41). -/
def Dev.kick (d : Dev) (f s : Nat) (p : Prog) (w : Nat) : Dev :=
  let unit := iPtr w
  let n := imm16 w
  let o := imm32 w
  if unit = 0 ∨ unit > 4 ∨ n > 3 ∨ o + kickBytes unit > 65536 then d.faultProg f s 0x034B
  else
    let b := p.dataAt o (kickBytes unit)
    match (if unit = 1 then d.kickFlume n f s p b
      else if unit = 2 then d.kickPost f p b
      else if unit = 3 then d.kickDiv n f s p b
      else .done d) with
    | .refused c => d.stopProg f s c .programEnd
    | .wait => d.modProg f s fun p => { p with wait := .kick }
    | .done d => d.stewNext f s

/-- A slot engine takes the next posted slot of a job; one that breaks R129 ends the job and its program (05 R142). -/
def Dev.takeSlotOf (d : Dev) (n j : Nat) : Dev :=
  let x := d.fjob n j
  if d.progSuspended x.field x.pslot || !(d.flume n).engines.contains none then d
  else if d.slotBreaks n j then (d.endFjob n j 0x01A3).stopProg x.field x.pslot 0x01A3 .programEnd
  else d.takeFlumeSlot n j

/-- A kick of one unit and job kind. -/
def Dev.kickJob (d : Dev) (f s unit job : Nat) : Dev :=
  d.steward f s 0x88 true fun d p w => if kickOf p w = { unit, job } then d.kick f s p w else d

end Sys2Proof.Machine
end

