-- ==== Sys2Proof/Machine/Steward.lean ====
section
/-!
DEFINITION. The instructions of the field stewards (04 Table 04-9), and the kicks of Flume, Diversion and Confluence
(05 R121 to R138, 08 R209).
-/
namespace Sys2Proof.Machine

/-- R106. -/
def execFnop (f sl : Nat) (s : State) : Host.Outcome State Fault Refusal :=
  live (.fnop f sl) s fun d => d.steward f sl 0x80 false fun d _ _ => d.stewNext f sl

/-- R107. -/
def execFrun (f sl : Nat) (s : State) : Host.Outcome State Fault Refusal :=
  liveUnit (.frun f sl) s fun d => d.steward f sl 0x81 false fun d p w => d.frun f sl p (imm16 w)

/-- R107, 13 R305: cores have become free for a waiting FRUN. -/
def execFrunBind (f sl : Nat) (s : State) : Host.Outcome State Fault Refusal :=
  liveUnit (.frunBind f sl) s fun d =>
    match d.prog f sl with
    | none => d
    | some p =>
      let x := d.field f
      if p.ending = none ∧ x.state = .active ∧ x.held = false ∧ x.opChange = none ∧ x.inTest = false ∧ d.frozen = false then
        ((d.tryBind f sl).resettle p.ctx).pump
      else d

/-- R106: FJOIN of an image, or of all. -/
def execFjoin (f sl : Nat) (s : State) : Host.Outcome State Fault Refusal :=
  live (.fjoin f sl) s fun d => d.steward f sl 0x82 false fun d p w =>
    let img := imm16 w
    if img = 0xFFFF ∨ img < p.imgs.length then (d.stewNext f sl).modProg f sl fun p => { p with wait := .fjoin img }
    else d.faultProg f sl 0x034B

/-- R108, 16 R363: what is left of a grant is returned, and the request waits for its grant. -/
def execFgrant (f sl : Nat) (s : State) : Host.Outcome State Fault Refusal :=
  live (.fgrant f sl) s fun d => d.steward f sl 0x83 false fun d p w =>
    if imm32 w = 0 ∨ imm16 w = 0 then d.faultProg f sl 0x034B
    else
      let d := (d.returnGrant f sl).stewNext f sl
      (d.modProg f sl fun p => { p with wait := .fgrant }).modPower fun x =>
        { x with waiting := x.waiting ++ [{ field := f, slot := sl, district := p.district, energy := imm32 w,
                                            dur := imm16 w, since := d.eff, resume := false }] }

/-- R108. -/
def execFoppt (f sl : Nat) (s : State) : Host.Outcome State Fault Refusal :=
  live (.foppt f sl) s fun d => d.steward f sl 0x84 false fun d _ w =>
    if imm16 w < d.clock.length then
      ((d.modProg f sl fun p => { p with foppt := some (imm16 w) }).stewNext f sl).retune f
    else d.faultProg f sl 0x034B

/-- 12 R294, R295: the wait starts; WAIT_RELEASE ends it. -/
def execFwaitg (f sl : Nat) (s : State) : Host.Outcome State Fault Refusal :=
  live (.fwaitg f sl) s fun d => d.steward f sl 0x85 false fun d p w =>
    if !condOk (iPtr w) then d.faultProg f sl 0x0363
    else if !d.holds p.ctx (imm16 w) then d.faultProg f sl 0x0360
    else (d.modProg f sl fun p => { p with wait := .gate }).startWait (.steward f sl) p.ctx (imm16 w) (iPtr w) (imm32 w)

/-- 12 R293, R295. -/
def execFsigg (f sl : Nat) (s : State) : Host.Outcome State Fault Refusal :=
  live (.fsigg f sl) s fun d => d.steward f sl 0x86 false fun d p w =>
    if !d.holds p.ctx (imm16 w) then d.faultProg f sl 0x0360
    else (d.signal (imm16 w) (imm32 w) (srcSteward f)).stewNext f sl

/-- R106: as LOOP, with the steward's fault for a body past its code. -/
def execFloop (f sl : Nat) (s : State) : Host.Outcome State Fault Refusal :=
  live (.floop f sl) s fun d => d.steward f sl 0x87 false fun d p w =>
    match loopStart p.loops p.pc (imm16 w) (imm32 w) p.code.length 0x0348 0x034B with
    | .error c => d.faultProg f sl c
    | .ok (l, pc) => d.modProg f sl fun p => { p with loops := l, pc }

/-- R90: the value that PTR_PARAM starts with. -/
def execFsetp (f sl : Nat) (s : State) : Host.Outcome State Fault Refusal :=
  live (.fsetp f sl) s fun d => d.steward f sl 0x89 false fun d _ w =>
    if iPtr w > 12 then d.faultProg f sl 0x034B
    else (d.modProg f sl fun p => { p with setp := Tbl.set 0 p.setp (iPtr w) (imm32 w) }).stewNext f sl

/-- R109: the program waits for its instances and its kicked jobs, and ends. -/
def execFend (f sl : Nat) (s : State) : Host.Outcome State Fault Refusal :=
  live (.fend f sl) s fun d => d.steward f sl 0x8A false fun d _ _ =>
    d.modProg f sl fun p => { p with wait := .fend }

/-- R109: any kick. -/
def execFkick (f sl : Nat) (s : State) : Host.Outcome State Fault Refusal :=
  liveUnit (.fkick f sl) s fun d => d.steward f sl 0x88 true fun d p w => d.kick f sl p w

/-- 05 R125, R131: a kick of a Flume job of kind 0x1. -/
def execHeadExact (f sl : Nat) (s : State) : Host.Outcome State Fault Refusal :=
  liveUnit (.headExact f sl) s fun d => d.kickJob f sl 1 1

/-- 05 R125, R134: kind 0x2. -/
def execHeadTopk (f sl : Nat) (s : State) : Host.Outcome State Fault Refusal :=
  liveUnit (.headTopk f sl) s fun d => d.kickJob f sl 1 2

/-- 05 R125, R137: kind 0x3. -/
def execFeatMse (f sl : Nat) (s : State) : Host.Outcome State Fault Refusal :=
  liveUnit (.featMse f sl) s fun d => d.kickJob f sl 1 3

/-- 05 R125, R138: kind 0x4. -/
def execFeatCos (f sl : Nat) (s : State) : Host.Outcome State Fault Refusal :=
  liveUnit (.featCos f sl) s fun d => d.kickJob f sl 1 4

/-- 05 R120, R121: a kick of a Diversion job of kind 0x1. -/
def execDispatch (f sl : Nat) (s : State) : Host.Outcome State Fault Refusal :=
  liveUnit (.dispatch f sl) s fun d => d.kickJob f sl 3 1

/-- 05 R120, R124: kind 0x2. -/
def execCombine (f sl : Nat) (s : State) : Host.Outcome State Fault Refusal :=
  liveUnit (.combine f sl) s fun d => d.kickJob f sl 3 2

/-- 08 R209: a kick of a Confluence POST. -/
def execPost (f sl : Nat) (s : State) : Host.Outcome State Fault Refusal :=
  liveUnit (.post f sl) s fun d => d.kickJob f sl 2 1

/-- 05 R128, R129, R130: a slot engine takes the next posted slot of a job of a program that runs. -/
def execFlumeSlotTake (n j : Nat) (s : State) : Host.Outcome State Fault Refusal :=
  liveUnit (.flumeSlotTake n j) s fun d =>
    if (d.fjob n j).state = .free then d else ((d.takeSlotOf n j).resettle (d.fjob n j).ctx).pump

/-- 05 R128, R132 to R138: a slot engine finishes its slot. -/
def execFlumeSlotDone (n e : Nat) (s : State) : Host.Outcome State Fault Refusal :=
  liveUnit (.flumeSlotDone n e) s fun d =>
    match nth none (d.flume n).engines e with
    | none => d
    | some (j, _) => ((d.finishFlumeSlot n e).resettle (d.fjob n j).ctx).pump

/-- 05 R122, R123: the weights of an expert can be read. -/
def execExpertReady (n j x : Nat) (s : State) : Host.Outcome State Fault Refusal :=
  liveUnit (.expertReady n j x) s fun d =>
    match d.divJob n j with
    | none => d
    | some y => ((d.expertReady n j x).resettle y.ctx).pump

/-- 05 R123: a job whose rows are copied and whose experts are all signalled ends. -/
def execDiversionJobEnd (n j : Nat) (s : State) : Host.Outcome State Fault Refusal :=
  liveUnit (.diversionJobEnd n j) s fun d =>
    match d.divJob n j with
    | none => d
    | some y => if y.copied && y.pending.isEmpty then ((d.endDivJob n j).resettle y.ctx).pump else d

end Sys2Proof.Machine
end

