-- ==== Sys2Proof/Machine/Tiers.lean ====
section
/-!
DEFINITION. Events of the memory tiers: CXL ports (11 R271 to R273), patrol scrubs (R264), self-refresh (16 R371) and
Aqueducts (12 R286).
-/
namespace Sys2Proof.Machine

/-- A partner violation of a CXL port is counted (Table 11-9). -/
def Dev.cxlCount (d : Dev) (n k : Nat) : Dev :=
  let x := d.cxlPort n
  d.putCxlPort n { x with events := x.events.set k (sat32 (nth 0 x.events k + 1)) }

/-- A port that carries traffic. -/
def Dev.cxlUp (d : Dev) (n : Nat) : Bool := match (d.cxlPort n).state with | .up => true | _ => false

/-- A violation that fences the port: its outstanding requests are abandoned (Table 11-4). -/
def Dev.cxlViolation (d : Dev) (n k : Nat) : Dev :=
  if d.cxlUp n then ((d.cxlCount n k).requestFence kCxl n (0x0420 + k)).pump else d

/-- The place of a device of GIB capacity on a port: its old one if its capacity is unchanged, or the lowest that is
free of those taken and of the old places (R272). -/
def placeCxl (old taken : List CxlMap) (port gibs : Nat) : Option CxlMap :=
  match old.find? fun m => m.downPort == port && m.sizeGib == gibs with
  | some m => some m
  | none =>
    (fit gibs (cutAll [(0, 4096)] ((taken ++ old).map fun m => (m.baseGib, m.sizeGib)))).map fun a =>
      { baseGib := a, sizeGib := gibs, downPort := port }

/-- The devices of a port, mapped in ascending downstream port with at most 4 TiB (R272). -/
def mapCxl (old : List CxlMap) (devs : List CxlDev) : List CxlMap :=
  let l := sortBy (fun (x : CxlDev) => x.downPort) (devs.filter fun x => x.supported && decide (gib ≤ x.bytes))
  let keep := old.filter fun m => l.any fun x => x.downPort == m.downPort && x.bytes / gib == m.sizeGib
  l.foldl (fun acc x =>
    let used := sumNat (acc.map fun m => m.sizeGib)
    match placeCxl keep acc x.downPort (min (x.bytes / gib) (4096 - used)) with
    | some m => acc ++ [m]
    | none => acc) []

/-- A port links: its devices are mapped, and it becomes available (R272, 01 R35). -/
def Dev.cxlLink (d : Dev) (n : Nat) (devs : List CxlDev) : Dev :=
  let d := (devs.filter fun x => !x.supported).foldl (fun d x =>
    (d.cxlCount n 4).unitRecord (srcCxl n) 0x0424 [n, x.downPort]) d
  let p := d.cxlPort n
  ((d.putCxlPort n { p with state := .up, devs := mapCxl p.devs devs }).available kCxl n true).wake (56 + n)

/-- R272: a CXL port links. -/
def execCxlLinkUp (n : Nat) (devs : List CxlDev) (s : State) : Host.Outcome State Fault Refusal :=
  live (.cxlLinkUp n devs) s fun d =>
    if 6 ≤ d.startup.stage ∧ d.cxlUp n = false ∧ d.fenced kCxl n = false then (d.cxlLink n devs).linkCheck else d

/-- Oscillator instants at which the transfers started that have requests out at port n (R273). -/
def Dev.portSince (d : Dev) (n : Nat) : List Nat :=
  (d.cores.flatMap fun (_, x) => match x.inst with
    | none => []
    | some y => (y.outstanding.filter fun q => d.descPort y.ctx n q.2.desc).map fun q => q.2.since) ++
  ((d.orders.filter fun o => o.opcode == opDma && o.phase == .running &&
      ((!bit (leAt o.body 24 1) 0 && d.readsPort n (leAt o.body 0 8) (leAt o.body 16 8) o.ctx) ||
       (!bit (leAt o.body 24 1) 1 && d.readsPort n (leAt o.body 8 8) (leAt o.body 16 8) o.ctx))).map fun o => o.since) ++
  (d.cache.filter fun (_, e) => e.live && e.state == .loading && e.backing == 1 &&
      (match regionOf e.backAddr with | .cxl m => m == n | _ => false)).map fun (_, e) => e.since

/-- Table 11-4, 0x0420: a request has had no response within CXL_TIMEOUT.MS. -/
def execCxlTimeout (n at_ : Nat) (s : State) : Host.Outcome State Fault Refusal :=
  live (.cxlTimeout n at_) s fun d =>
    let d := d.advance at_
    if (d.portSince n).any fun t => decide (t + 10 ^ 6 * d.reg .cxlTimeout 0 ≤ d.time.osc) then d.cxlViolation n 0 else d

/-- Table 11-4, 0x0421. -/
def execCxlMalformed (n : Nat) (s : State) : Host.Outcome State Fault Refusal :=
  live (.cxlMalformed n) s fun d => d.cxlViolation n 1

/-- Table 11-4, 0x0422. -/
def execCxlLink (n : Nat) (s : State) : Host.Outcome State Fault Refusal :=
  live (.cxlLink n) s fun d => d.cxlViolation n 2

/-- A requester of poisoned data faults with 0x0324; a load of a model cache entry fails (R273, R276). -/
def Dev.poison (d : Dev) (n : Nat) (req : MemReq) : Dev :=
  match req with
  | .core i tag => match (d.core i).inst with
    | none => d
    | some y => if y.outstanding.any fun q => q.1 == tag && d.descPort y.ctx n q.2.desc then d.faultCore i 0x0324 else d
  | .order o => match d.order? o with
    | none => d
    | some x =>
      if x.opcode = opDma then (if x.phase = .running then d.faultOrder o 0x0324 (srcCxl n) else d)
      else match (d.cache.find? fun (_, e) => e.live && e.state == .loading && e.waiting.any fun w => w.1 == o) with
        | some (i, _) => d.loadFail i 0x015A
        | none => if x.phase = .ended then d else d.faultOrder o 0x0324 (srcCxl n)
  | .context c => d.faultCtx c 0x0324

/-- Table 11-4, 0x0423. -/
def execCxlPoison (n : Nat) (req : MemReq) (s : State) : Host.Outcome State Fault Refusal :=
  live (.cxlPoison n req) s fun d =>
    if d.cxlUp n then
      let d := (d.cxlCount n 3).poison n req
      (match req with
        | .core i _ => d.resettle (d.core i).lastCtx
        | .order o => (match d.order? o with | some x => d.resettle x.ctx | none => d)
        | .context c => d.resettle c).pump
    else d

/-- Table 11-4, 0x0425: a record only. -/
def execCxlMedia (n addr : Nat) (s : State) : Host.Outcome State Fault Refusal :=
  live (.cxlMedia n addr) s fun d =>
    if d.cxlUp n then (d.cxlCount n 5).unitRecord (srcCxl n) 0x0425 [n, addr] else d

/-- A device whose channel runs. -/
def Dev.memUp (d : Dev) (x : Nat) : Bool := match (d.memDev x).state with | .active => true | .migrating => true | _ => false

/-- R264: a patrol of a device; an uncorrectable error it finds faults no context. -/
def execPatrolScrub (dev ce : Nat) (addr : Option Nat) (s : State) : Host.Outcome State Fault Refusal :=
  live (.patrolScrub dev ce addr) s fun d =>
    if d.memUp dev then
      let d := d.unrefresh dev
      let d := (d.putMemDev dev { d.memDev dev with ce := sat32 ((d.memDev dev).ce + ce) }).countCe kDevice dev ce
      match addr with
      | none => d
      | some a => ((if d.devOf a = some dev then d.spoil [.uncorrectable a] else d).deviceUe dev a).pump
    else d

/-- 16 R371: a channel has had no traffic for 100 µs. -/
def execSelfRefresh (dev : Nat) (s : State) : Host.Outcome State Fault Refusal :=
  live (.selfRefresh dev) s fun d =>
    if d.memUp dev then d.putMemDev dev { d.memDev dev with refresh := true } else d

/-- 12 R286: an Aqueduct loses lanes; below half width it is a fatal event (17 R385). -/
def execAqueductDegraded (n : Nat) (half : Bool) (s : State) : Host.Outcome State Fault Refusal :=
  live (.aqueductDegraded n half) s fun d =>
    if half then d.setCanal { d.canal with aqStatus := d.canal.aqStatus.set n 2 }
    else (d.setCanal { d.canal with aqStatus := d.canal.aqStatus.set n 0 }).fatal srcLkk 0x0026 0 kAqueduct n n

end Sys2Proof.Machine
end

