-- ==== Sys2Proof/Machine/Dispatch.lean ====
section
/-!
DEFINITION. One arm per command: the meaning it calls, or its rejection by name.
-/
namespace Sys2Proof.Machine

def exec (i : Instr) (s : State) : Host.Outcome State Fault Refusal :=
  match i with
  | .registerWrite fn off len data => Sys2Proof.Machine.execRegisterWrite fn off len data s
  | .pcieRegAccess fn off len write => Sys2Proof.Machine.execPcieRegAccess fn off len write s
  | .hrTail fn pair value => Sys2Proof.Machine.execHrTail fn pair value s
  | .trHead fn pair value => Sys2Proof.Machine.execTrHead fn pair value s
  | .pcieDoorbell fn page off len => Sys2Proof.Machine.execPcieDoorbell fn page off len s
  | .orderFetch fn pair bytes => Sys2Proof.Machine.execOrderFetch fn pair bytes s
  | .orderDispatch fn pair => Sys2Proof.Machine.execOrderDispatch fn pair s
  | .orderComplete o => Sys2Proof.Machine.execOrderComplete o s
  | .holdoffExpiry fn pair at_ => Sys2Proof.Machine.execHoldoffExpiry fn pair at_ s
  | .ringEnable fn pair ctl => Sys2Proof.Machine.execRingEnable fn pair ctl s
  | .ringDisable fn pair ctl => Sys2Proof.Machine.execRingDisable fn pair ctl s
  | .abort fn pair ctl => Sys2Proof.Machine.execAbort fn pair ctl s
  | .errorRingEnable fn value => Sys2Proof.Machine.execErrorRingEnable fn value s
  | .slcMsgWrite who sl k len data => Sys2Proof.Machine.execSlcMsgWrite who sl k len data s
  | .slcSend who sl seq => Sys2Proof.Machine.execSlcSend who sl seq s
  | .sluiceUnbound who sl => Sys2Proof.Machine.execSluiceUnbound who sl s
  | .sluiceTake sl code => Sys2Proof.Machine.execSluiceTake sl code s
  | .sluiceTimeout sl at_ => Sys2Proof.Machine.execSluiceTimeout sl at_ s
  | .ping sl => Sys2Proof.Machine.execPing sl s
  | .pcieBarMiss fn => Sys2Proof.Machine.execPcieBarMiss fn s
  | .pcieCplTimeout r => Sys2Proof.Machine.execPcieCplTimeout r s
  | .pcieCplError r => Sys2Proof.Machine.execPcieCplError r s
  | .pcieAts o => Sys2Proof.Machine.execPcieAts o s
  | .pcieMalformed fn => Sys2Proof.Machine.execPcieMalformed fn s
  | .vfFunctionLevelReset t => Sys2Proof.Machine.execVfFunctionLevelReset t s
  | .pfFunctionLevelReset port => Sys2Proof.Machine.execPfFunctionLevelReset port s
  | .vfEnableClear port => Sys2Proof.Machine.execVfEnableClear port s
  | .perstAssert port => Sys2Proof.Machine.execPerstAssert port s
  | .linkDown port => Sys2Proof.Machine.execLinkDown port s
  | .perstRelease port refclk => Sys2Proof.Machine.execPerstRelease port refclk s
  | .dmaOrder o => Sys2Proof.Machine.execDmaOrder o s
  | .systemDmaDone o got => Sys2Proof.Machine.execSystemDmaDone o got s
  | .alloc o => Sys2Proof.Machine.execAlloc o s
  | .free o => Sys2Proof.Machine.execFree o s
  | .set o => Sys2Proof.Machine.execSet o s
  | .add o => Sys2Proof.Machine.execAdd o s
  | .map o => Sys2Proof.Machine.execMap o s
  | .unmap o => Sys2Proof.Machine.execUnmap o s
  | .protect o => Sys2Proof.Machine.execProtect o s
  | .create o => Sys2Proof.Machine.execCreate o s
  | .load o => Sys2Proof.Machine.execLoad o s
  | .pin o => Sys2Proof.Machine.execPin o s
  | .unpin o => Sys2Proof.Machine.execUnpin o s
  | .drop o => Sys2Proof.Machine.execDrop o s
  | .cacheLoadDone idx ok data => Sys2Proof.Machine.execCacheLoadDone idx ok data s
  | .trainStep o => Sys2Proof.Machine.execTrainStep o s
  | .trainStepStart o => Sys2Proof.Machine.execTrainStepStart o s
  | .run o => Sys2Proof.Machine.execRun o s
  | .request o => Sys2Proof.Machine.execRequest o s
  | .cancel o => Sys2Proof.Machine.execCancel o s
  | .offtakeInstall o => Sys2Proof.Machine.execOfftakeInstall o s
  | .offtakeRemove o => Sys2Proof.Machine.execOfftakeRemove o s
  | .offtakeSwitch o => Sys2Proof.Machine.execOfftakeSwitch o s
  | .importPart o => Sys2Proof.Machine.execImportPart o s
  | .final o => Sys2Proof.Machine.execFinal o s
  | .exportSum o => Sys2Proof.Machine.execExportSum o s
  | .ring o => Sys2Proof.Machine.execRing o s
  | .post f sl => Sys2Proof.Machine.execPost f sl s
  | .cflDeadline d at_ => Sys2Proof.Machine.execCflDeadline d at_ s
  | .reductionDone d => Sys2Proof.Machine.execReductionDone d s
  | .cflFinalLimit d at_ => Sys2Proof.Machine.execCflFinalLimit d at_ s
  | .loadBuckets fn d => Sys2Proof.Machine.execLoadBuckets fn d s
  | .dropPending fn d => Sys2Proof.Machine.execDropPending fn d s
  | .loadTable fn d => Sys2Proof.Machine.execLoadTable fn d s
  | .setRing fn d => Sys2Proof.Machine.execSetRing fn d s
  | .setLs fn d => Sys2Proof.Machine.execSetLs fn d s
  | .clearStreaks fn d => Sys2Proof.Machine.execClearStreaks fn d s
  | .surveyImageRead bytes => Sys2Proof.Machine.execSurveyImageRead bytes s
  | .stage fn => Sys2Proof.Machine.execStage fn s
  | .initial fn => Sys2Proof.Machine.execInitial fn s
  | .resurvey fn d => Sys2Proof.Machine.execResurvey fn d s
  | .storeDefault fn => Sys2Proof.Machine.execStoreDefault fn s
  | .discard fn => Sys2Proof.Machine.execDiscard fn s
  | .raiseFloor fn flash => Sys2Proof.Machine.execRaiseFloor fn flash s
  | .srvDrainLimit at_ => Sys2Proof.Machine.execSrvDrainLimit at_ s
  | .applyDone => Sys2Proof.Machine.execApplyDone s
  | .prefillChunkDispatch d => Sys2Proof.Machine.execPrefillChunkDispatch d s
  | .decodeStep d => Sys2Proof.Machine.execDecodeStep d s
  | .stepCommit d work => Sys2Proof.Machine.execStepCommit d work s
  | .outfallRetry req at_ => Sys2Proof.Machine.execOutfallRetry req at_ s
  | .intStallLimit req at_ => Sys2Proof.Machine.execIntStallLimit req at_ s
  | .lendingDecision d at_ => Sys2Proof.Machine.execLendingDecision d at_ s
  | .loadProfiles fn d => Sys2Proof.Machine.execLoadProfiles fn d s
  | .flushPrefixes fn d => Sys2Proof.Machine.execFlushPrefixes fn d s
  | .intVfShare t value => Sys2Proof.Machine.execIntVfShare t value s
  | .captureRingWrite d entries value => Sys2Proof.Machine.execCaptureRingWrite d entries value s
  | .nop core => Sys2Proof.Machine.execNop core s
  | .endInst core => Sys2Proof.Machine.execEndInst core s
  | .instanceEnd core => Sys2Proof.Machine.execInstanceEnd core s
  | .loop core => Sys2Proof.Machine.execLoop core s
  | .setp core => Sys2Proof.Machine.execSetp core s
  | .addp core => Sys2Proof.Machine.execAddp core s
  | .waitg core => Sys2Proof.Machine.execWaitg core s
  | .waitRelease w => Sys2Proof.Machine.execWaitRelease w s
  | .sigg core => Sys2Proof.Machine.execSigg core s
  | .fence core => Sys2Proof.Machine.execFence core s
  | .sett core => Sys2Proof.Machine.execSett core s
  | .sete core => Sys2Proof.Machine.execSete core s
  | .sets core => Sys2Proof.Machine.execSets core s
  | .dma core => Sys2Proof.Machine.execDma core s
  | .coreDmaDone core tag ecc => Sys2Proof.Machine.execCoreDmaDone core tag ecc s
  | .dmaw core => Sys2Proof.Machine.execDmaw core s
  | .tload load => Sys2Proof.Machine.execTload load s
  | .tstore core => Sys2Proof.Machine.execTstore core s
  | .accld core => Sys2Proof.Machine.execAccld core s
  | .trans core => Sys2Proof.Machine.execTrans core s
  | .sound core => Sys2Proof.Machine.execSound core s
  | .mma core => Sys2Proof.Machine.execMma core s
  | .mmaa core => Sys2Proof.Machine.execMmaa core s
  | .mmab core => Sys2Proof.Machine.execMmab core s
  | .bgrad core => Sys2Proof.Machine.execBgrad core s
  | .bgradf core => Sys2Proof.Machine.execBgradf core s
  | .imma core => Sys2Proof.Machine.execImma core s
  | .instructionDone core cls ecc => Sys2Proof.Machine.execInstructionDone core cls ecc s
  | .cvt core => Sys2Proof.Machine.execCvt core s
  | .enc core => Sys2Proof.Machine.execEnc core s
  | .dec core => Sys2Proof.Machine.execDec core s
  | .vadd core => Sys2Proof.Machine.execVadd core s
  | .vsub core => Sys2Proof.Machine.execVsub core s
  | .vmul core => Sys2Proof.Machine.execVmul core s
  | .vfma core => Sys2Proof.Machine.execVfma core s
  | .vscale core => Sys2Proof.Machine.execVscale core s
  | .vdiv core => Sys2Proof.Machine.execVdiv core s
  | .vsqrt core => Sys2Proof.Machine.execVsqrt core s
  | .vrcp core => Sys2Proof.Machine.execVrcp core s
  | .vrsqrt core => Sys2Proof.Machine.execVrsqrt core s
  | .vexp2 core => Sys2Proof.Machine.execVexp2 core s
  | .vlog2 core => Sys2Proof.Machine.execVlog2 core s
  | .vmax core => Sys2Proof.Machine.execVmax core s
  | .vmin core => Sys2Proof.Machine.execVmin core s
  | .vgt core => Sys2Proof.Machine.execVgt core s
  | .vsel core => Sys2Proof.Machine.execVsel core s
  | .vmov core => Sys2Proof.Machine.execVmov core s
  | .vbcast core => Sys2Proof.Machine.execVbcast core s
  | .vrsum core => Sys2Proof.Machine.execVrsum core s
  | .vrmax core => Sys2Proof.Machine.execVrmax core s
  | .vargmax core => Sys2Proof.Machine.execVargmax core s
  | .vtopk core => Sys2Proof.Machine.execVtopk core s
  | .vnfin core => Sys2Proof.Machine.execVnfin core s
  | .optw core => Sys2Proof.Machine.execOptw core s
  | .fnop f sl => Sys2Proof.Machine.execFnop f sl s
  | .frun f sl => Sys2Proof.Machine.execFrun f sl s
  | .frunBind f sl => Sys2Proof.Machine.execFrunBind f sl s
  | .fjoin f sl => Sys2Proof.Machine.execFjoin f sl s
  | .fgrant f sl => Sys2Proof.Machine.execFgrant f sl s
  | .foppt f sl => Sys2Proof.Machine.execFoppt f sl s
  | .fwaitg f sl => Sys2Proof.Machine.execFwaitg f sl s
  | .fsigg f sl => Sys2Proof.Machine.execFsigg f sl s
  | .floop f sl => Sys2Proof.Machine.execFloop f sl s
  | .fsetp f sl => Sys2Proof.Machine.execFsetp f sl s
  | .fend f sl => Sys2Proof.Machine.execFend f sl s
  | .headExact f sl => Sys2Proof.Machine.execHeadExact f sl s
  | .headTopk f sl => Sys2Proof.Machine.execHeadTopk f sl s
  | .featMse f sl => Sys2Proof.Machine.execFeatMse f sl s
  | .featCos f sl => Sys2Proof.Machine.execFeatCos f sl s
  | .flumeSlotTake n j => Sys2Proof.Machine.execFlumeSlotTake n j s
  | .flumeSlotDone n e => Sys2Proof.Machine.execFlumeSlotDone n e s
  | .dispatch f sl => Sys2Proof.Machine.execDispatch f sl s
  | .expertReady n j x => Sys2Proof.Machine.execExpertReady n j x s
  | .combine f sl => Sys2Proof.Machine.execCombine f sl s
  | .cycleLimit core at_ => Sys2Proof.Machine.execCycleLimit core at_ s
  | .stopRequest core cause => Sys2Proof.Machine.execStopRequest core cause s
  | .tileBoundaryStop core => Sys2Proof.Machine.execTileBoundaryStop core s
  | .instanceSaveDone core => Sys2Proof.Machine.execInstanceSaveDone core s
  | .coreClearDone core => Sys2Proof.Machine.execCoreClearDone core s
  | .instanceRestoreDone core ecc => Sys2Proof.Machine.execInstanceRestoreDone core ecc s
  | .fldPgDelay f at_ => Sys2Proof.Machine.execFldPgDelay f at_ s
  | .fieldWake f => Sys2Proof.Machine.execFieldWake f s
  | .schQuantum at_ => Sys2Proof.Machine.execSchQuantum at_ s
  | .schDrain c at_ => Sys2Proof.Machine.execSchDrain c at_ s
  | .lateResponse core tag gen => Sys2Proof.Machine.execLateResponse core tag gen s
  | .rotationLead lead => Sys2Proof.Machine.execRotationLead lead s
  | .rotationEntryStart j at_ => Sys2Proof.Machine.execRotationEntryStart j at_ s
  | .rotationEntryEnd j at_ => Sys2Proof.Machine.execRotationEntryEnd j at_ s
  | .selftestPiece f failing steward at_ => Sys2Proof.Machine.execSelftestPiece f failing steward at_ s
  | .resetContext fn c => Sys2Proof.Machine.execResetContext fn c s
  | .teardown fn c => Sys2Proof.Machine.execTeardown fn c s
  | .teardownDone c => Sys2Proof.Machine.execTeardownDone c s
  | .cxlLinkUp n devs => Sys2Proof.Machine.execCxlLinkUp n devs s
  | .cxlTimeout n at_ => Sys2Proof.Machine.execCxlTimeout n at_ s
  | .cxlMalformed n => Sys2Proof.Machine.execCxlMalformed n s
  | .cxlLink n => Sys2Proof.Machine.execCxlLink n s
  | .cxlPoison n req => Sys2Proof.Machine.execCxlPoison n req s
  | .cxlMedia n addr => Sys2Proof.Machine.execCxlMedia n addr s
  | .patrolScrub dev ce addr => Sys2Proof.Machine.execPatrolScrub dev ce addr s
  | .selfRefresh dev => Sys2Proof.Machine.execSelfRefresh dev s
  | .aqueductDegraded n half => Sys2Proof.Machine.execAqueductDegraded n half s
  | .attest fn flash => Sys2Proof.Machine.execAttest fn flash s
  | .readCerts fn => Sys2Proof.Machine.execReadCerts fn s
  | .installPolicy fn bytes flash => Sys2Proof.Machine.execInstallPolicy fn bytes flash s
  | .transferOwner fn bytes flash => Sys2Proof.Machine.execTransferOwner fn bytes flash s
  | .raiseFwFloor fn flash => Sys2Proof.Machine.execRaiseFwFloor fn flash s
  | .rotateSystem fn d flash => Sys2Proof.Machine.execRotateSystem fn d flash s
  | .akRootReady => Sys2Proof.Machine.execAkRootReady s
  | .supplySwitch mvA mvB => Sys2Proof.Machine.execSupplySwitch mvA mvB s
  | .supplyReturn at_ => Sys2Proof.Machine.execSupplyReturn at_ s
  | .supplyLoss mvA mvB => Sys2Proof.Machine.execSupplyLoss mvA mvB s
  | .pwrRating fn value => Sys2Proof.Machine.execPwrRating fn value s
  | .allotmentWindow wA wB at_ => Sys2Proof.Machine.execAllotmentWindow wA wB at_ s
  | .altGrantLimit f sl at_ => Sys2Proof.Machine.execAltGrantLimit f sl at_ s
  | .chargePost charge => Sys2Proof.Machine.execChargePost charge s
  | .droopEngage f => Sys2Proof.Machine.execDroopEngage f s
  | .droopRestore f => Sys2Proof.Machine.execDroopRestore f s
  | .timSet fn value => Sys2Proof.Machine.execTimSet fn value s
  | .ppsEdge at_ => Sys2Proof.Machine.execPpsEdge at_ s
  | .holdover at_ => Sys2Proof.Machine.execHoldover at_ s
  | .stepHoldEnd at_ => Sys2Proof.Machine.execStepHoldEnd at_ s
  | .coldReset at_ => Sys2Proof.Machine.execColdReset at_ s
  | .powerGood mvA mvB => Sys2Proof.Machine.execPowerGood mvA mvB s
  | .lkkBoot slot0 slot1 variant => Sys2Proof.Machine.execLkkBoot slot0 slot1 variant s
  | .identity ok flash => Sys2Proof.Machine.execIdentity ok flash s
  | .memTrain dev ok => Sys2Proof.Machine.execMemTrain dev ok s
  | .surveyLoad => Sys2Proof.Machine.execSurveyLoad s
  | .headgateLoad slot0 slot1 => Sys2Proof.Machine.execHeadgateLoad slot0 slot1 s
  | .stageLimit stg at_ => Sys2Proof.Machine.execStageLimit stg at_ s
  | .warm fn => Sys2Proof.Machine.execWarm fn s
  | .full fn => Sys2Proof.Machine.execFull fn s
  | .fullResetN wave => Sys2Proof.Machine.execFullResetN wave s
  | .lkkFence sl => Sys2Proof.Machine.execLkkFence sl s
  | .returnUnit sl => Sys2Proof.Machine.execReturnUnit sl s
  | .returnTestDone kind unit ok => Sys2Proof.Machine.execReturnTestDone kind unit ok s
  | .note sl => Sys2Proof.Machine.execNote sl s
  | .selftest sl => Sys2Proof.Machine.execSelftest sl s
  | .copySilt sl => Sys2Proof.Machine.execCopySilt sl s
  | .flashCopy => Sys2Proof.Machine.execFlashCopy s
  | .hgWatchdog h => Sys2Proof.Machine.execHgWatchdog h s
  | .hgRestart h => Sys2Proof.Machine.execHgRestart h s
  | .watchdogKick => Sys2Proof.Machine.execWatchdogKick s
  | .lkkFail cause => Sys2Proof.Machine.execLkkFail cause s
  | .recoveryDone => Sys2Proof.Machine.execRecoveryDone s
  | .thermalWarn t temp => Sys2Proof.Machine.execThermalWarn t temp s
  | .thermalCrit t temp => Sys2Proof.Machine.execThermalCrit t temp s
  | .dumpRam fn => Sys2Proof.Machine.execDumpRam fn s
  | .dumpFlash0 fn => Sys2Proof.Machine.execDumpFlash0 fn s
  | .dumpFlash1 fn => Sys2Proof.Machine.execDumpFlash1 fn s
  | .fkick f sl => Sys2Proof.Machine.execFkick f sl s
  | .diversionJobEnd n j => Sys2Proof.Machine.execDiversionJobEnd n j s
  | .inputInRange b mv => Sys2Proof.Machine.execInputInRange b mv s
  | .temperatureFall t temp => Sys2Proof.Machine.execTemperatureFall t temp s
  | .ref10mhz present => Sys2Proof.Machine.execRef10mhz present s
  | .pcieLinkUp port => Sys2Proof.Machine.execPcieLinkUp port s
  | .translationRootLoad c => Sys2Proof.Machine.execTranslationRootLoad c s
  | .operatingPointChange f => Sys2Proof.Machine.execOperatingPointChange f s
  | .mctpMalformed b => Sys2Proof.Machine.execMctpMalformed b s
  | .setEndpointId b eid => Sys2Proof.Machine.execSetEndpointId b eid s
  | .getEndpointId b => Sys2Proof.Machine.execGetEndpointId b s
  | .getEndpointUuid b => Sys2Proof.Machine.execGetEndpointUuid b s
  | .getMctpVersionSupport b => Sys2Proof.Machine.execGetMctpVersionSupport b s
  | .getMessageTypeSupport b => Sys2Proof.Machine.execGetMessageTypeSupport b s
  | .getTid b => Sys2Proof.Machine.execGetTid b s
  | .setTid b tid => Sys2Proof.Machine.execSetTid b tid s
  | .getPldmVersion q => Sys2Proof.Machine.execGetPldmVersion q s
  | .getPldmTypes b => Sys2Proof.Machine.execGetPldmTypes b s
  | .getPldmCommands q => Sys2Proof.Machine.execGetPldmCommands q s
  | .getPdrRepositoryInfo b => Sys2Proof.Machine.execGetPdrRepositoryInfo b s
  | .getPdr b rec => Sys2Proof.Machine.execGetPdr b rec s
  | .getSensorReading b sensor => Sys2Proof.Machine.execGetSensorReading b sensor s
  | .getStateSensorReadings b sensor => Sys2Proof.Machine.execGetStateSensorReadings b sensor s
  | .setEventReceiver b eid => Sys2Proof.Machine.execSetEventReceiver b eid s
  | .platformEventMessage b => Sys2Proof.Machine.execPlatformEventMessage b s
  | .requestUpdate b wellFormed => Sys2Proof.Machine.execRequestUpdate b wellFormed s
  | .verifyComplete b => Sys2Proof.Machine.execVerifyComplete b s
  | .activateFirmware b wellFormed selfContained => Sys2Proof.Machine.execActivateFirmware b wellFormed selfContained s
  | .getStatus b => Sys2Proof.Machine.execGetStatus b s
  | .cancelUpdateComponent b => Sys2Proof.Machine.execCancelUpdateComponent b s
  | .cancelUpdate b => Sys2Proof.Machine.execCancelUpdate b s
  | .pldmUpdateTimeout at_ => Sys2Proof.Machine.execPldmUpdateTimeout at_ s
  | .smbusStuck => Sys2Proof.Machine.execSmbusStuck s
  | .mctpType b => Sys2Proof.Machine.execMctpType b s
  | .errorUnsupportedPldmCmd b => Sys2Proof.Machine.execErrorUnsupportedPldmCmd b s
  | .passComponentTable b wellFormed => Sys2Proof.Machine.execPassComponentTable b wellFormed s
  | .updateComponent b comp wellFormed => Sys2Proof.Machine.execUpdateComponent b comp wellFormed s
  | .requestFirmwareData b off bytes => Sys2Proof.Machine.execRequestFirmwareData b off bytes s

end Sys2Proof.Machine
end

