-- ==== Sys2Proof/Laws/State.lean ====
section
/-!
SUPPORT. What each update of the device state leaves: one lemma per field per update.
-/
namespace Sys2Proof.Machine

@[simp] theorem Dev.setTime_time (d : Dev) (v : Time) : (d.setTime v).time = v := rfl
@[simp] theorem Dev.setTime_out (d : Dev) (v : Time) : (d.setTime v).out = d.out := rfl
@[simp] theorem Dev.setTime_draws (d : Dev) (v : Time) : (d.setTime v).draws = d.draws := rfl
@[simp] theorem Dev.setTime_regs (d : Dev) (v : Time) : (d.setTime v).regs = d.regs := rfl
@[simp] theorem Dev.setTime_ports (d : Dev) (v : Time) : (d.setTime v).ports = d.ports := rfl
@[simp] theorem Dev.setTime_rings (d : Dev) (v : Time) : (d.setTime v).rings = d.rings := rfl
@[simp] theorem Dev.setTime_errs (d : Dev) (v : Time) : (d.setTime v).errs = d.errs := rfl
@[simp] theorem Dev.setTime_orders (d : Dev) (v : Time) : (d.setTime v).orders = d.orders := rfl
@[simp] theorem Dev.setTime_sluices (d : Dev) (v : Time) : (d.setTime v).sluices = d.sluices := rfl
@[simp] theorem Dev.setTime_msix (d : Dev) (v : Time) : (d.setTime v).msix = d.msix := rfl
@[simp] theorem Dev.setTime_gates (d : Dev) (v : Time) : (d.setTime v).gates = d.gates := rfl
@[simp] theorem Dev.setTime_waits (d : Dev) (v : Time) : (d.setTime v).waits = d.waits := rfl
@[simp] theorem Dev.setTime_canal (d : Dev) (v : Time) : (d.setTime v).canal = d.canal := rfl
@[simp] theorem Dev.setTime_ctxs (d : Dev) (v : Time) : (d.setTime v).ctxs = d.ctxs := rfl
@[simp] theorem Dev.setTime_sched (d : Dev) (v : Time) : (d.setTime v).sched = d.sched := rfl
@[simp] theorem Dev.setTime_survey (d : Dev) (v : Time) : (d.setTime v).survey = d.survey := rfl
@[simp] theorem Dev.setTime_dists (d : Dev) (v : Time) : (d.setTime v).dists = d.dists := rfl
@[simp] theorem Dev.setTime_devs (d : Dev) (v : Time) : (d.setTime v).devs = d.devs := rfl
@[simp] theorem Dev.setTime_cxl (d : Dev) (v : Time) : (d.setTime v).cxl = d.cxl := rfl
@[simp] theorem Dev.setTime_cache (d : Dev) (v : Time) : (d.setTime v).cache = d.cache := rfl
@[simp] theorem Dev.setTime_lines (d : Dev) (v : Time) : (d.setTime v).lines = d.lines := rfl
@[simp] theorem Dev.setTime_mem (d : Dev) (v : Time) : (d.setTime v).mem = d.mem := rfl
@[simp] theorem Dev.setTime_bad (d : Dev) (v : Time) : (d.setTime v).bad = d.bad := rfl
@[simp] theorem Dev.setTime_memFaults (d : Dev) (v : Time) : (d.setTime v).memFaults = d.memFaults := rfl
@[simp] theorem Dev.setTime_cores (d : Dev) (v : Time) : (d.setTime v).cores = d.cores := rfl
@[simp] theorem Dev.setTime_fields (d : Dev) (v : Time) : (d.setTime v).fields = d.fields := rfl
@[simp] theorem Dev.setTime_saves (d : Dev) (v : Time) : (d.setTime v).saves = d.saves := rfl
@[simp] theorem Dev.setTime_startup (d : Dev) (v : Time) : (d.setTime v).startup = d.startup := rfl
@[simp] theorem Dev.setTime_units (d : Dev) (v : Time) : (d.setTime v).units = d.units := rfl
@[simp] theorem Dev.setTime_silt (d : Dev) (v : Time) : (d.setTime v).silt = d.silt := rfl
@[simp] theorem Dev.setTime_lkk (d : Dev) (v : Time) : (d.setTime v).lkk = d.lkk := rfl
@[simp] theorem Dev.setTime_flumes (d : Dev) (v : Time) : (d.setTime v).flumes = d.flumes := rfl
@[simp] theorem Dev.setTime_divs (d : Dev) (v : Time) : (d.setTime v).divs = d.divs := rfl
@[simp] theorem Dev.setTime_divPins (d : Dev) (v : Time) : (d.setTime v).divPins = d.divPins := rfl
@[simp] theorem Dev.setTime_claims (d : Dev) (v : Time) : (d.setTime v).claims = d.claims := rfl
@[simp] theorem Dev.setTime_steps (d : Dev) (v : Time) : (d.setTime v).steps = d.steps := rfl
@[simp] theorem Dev.setTime_parts (d : Dev) (v : Time) : (d.setTime v).parts = d.parts := rfl
@[simp] theorem Dev.setTime_cis (d : Dev) (v : Time) : (d.setTime v).cis = d.cis := rfl
@[simp] theorem Dev.setTime_gauges (d : Dev) (v : Time) : (d.setTime v).gauges = d.gauges := rfl
@[simp] theorem Dev.setTime_gaugeReports (d : Dev) (v : Time) : (d.setTime v).gaugeReports = d.gaugeReports := rfl
@[simp] theorem Dev.setTime_cfls (d : Dev) (v : Time) : (d.setTime v).cfls = d.cfls := rfl
@[simp] theorem Dev.setTime_cflElems (d : Dev) (v : Time) : (d.setTime v).cflElems = d.cflElems := rfl
@[simp] theorem Dev.setTime_sec (d : Dev) (v : Time) : (d.setTime v).sec = d.sec := rfl
@[simp] theorem Dev.setTime_power (d : Dev) (v : Time) : (d.setTime v).power = d.power := rfl
@[simp] theorem Dev.setTime_wakes (d : Dev) (v : Time) : (d.setTime v).wakes = d.wakes := rfl
@[simp] theorem Dev.setTime_serves (d : Dev) (v : Time) : (d.setTime v).serves = d.serves := rfl
@[simp] theorem Dev.setTime_tenants (d : Dev) (v : Time) : (d.setTime v).tenants = d.tenants := rfl
@[simp] theorem Dev.setTime_reqs (d : Dev) (v : Time) : (d.setTime v).reqs = d.reqs := rfl
@[simp] theorem Dev.setTime_nextReq (d : Dev) (v : Time) : (d.setTime v).nextReq = d.nextReq := rfl
@[simp] theorem Dev.setTime_ofts (d : Dev) (v : Time) : (d.setTime v).ofts = d.ofts := rfl
@[simp] theorem Dev.setTime_oftInsts (d : Dev) (v : Time) : (d.setTime v).oftInsts = d.oftInsts := rfl
@[simp] theorem Dev.setTime_oftTimes (d : Dev) (v : Time) : (d.setTime v).oftTimes = d.oftTimes := rfl
@[simp] theorem Dev.setOut_time (d : Dev) (v : List OutEvent) : (d.setOut v).time = d.time := rfl
@[simp] theorem Dev.setOut_out (d : Dev) (v : List OutEvent) : (d.setOut v).out = v := rfl
@[simp] theorem Dev.setOut_draws (d : Dev) (v : List OutEvent) : (d.setOut v).draws = d.draws := rfl
@[simp] theorem Dev.setOut_regs (d : Dev) (v : List OutEvent) : (d.setOut v).regs = d.regs := rfl
@[simp] theorem Dev.setOut_ports (d : Dev) (v : List OutEvent) : (d.setOut v).ports = d.ports := rfl
@[simp] theorem Dev.setOut_rings (d : Dev) (v : List OutEvent) : (d.setOut v).rings = d.rings := rfl
@[simp] theorem Dev.setOut_errs (d : Dev) (v : List OutEvent) : (d.setOut v).errs = d.errs := rfl
@[simp] theorem Dev.setOut_orders (d : Dev) (v : List OutEvent) : (d.setOut v).orders = d.orders := rfl
@[simp] theorem Dev.setOut_sluices (d : Dev) (v : List OutEvent) : (d.setOut v).sluices = d.sluices := rfl
@[simp] theorem Dev.setOut_msix (d : Dev) (v : List OutEvent) : (d.setOut v).msix = d.msix := rfl
@[simp] theorem Dev.setOut_gates (d : Dev) (v : List OutEvent) : (d.setOut v).gates = d.gates := rfl
@[simp] theorem Dev.setOut_waits (d : Dev) (v : List OutEvent) : (d.setOut v).waits = d.waits := rfl
@[simp] theorem Dev.setOut_canal (d : Dev) (v : List OutEvent) : (d.setOut v).canal = d.canal := rfl
@[simp] theorem Dev.setOut_ctxs (d : Dev) (v : List OutEvent) : (d.setOut v).ctxs = d.ctxs := rfl
@[simp] theorem Dev.setOut_sched (d : Dev) (v : List OutEvent) : (d.setOut v).sched = d.sched := rfl
@[simp] theorem Dev.setOut_survey (d : Dev) (v : List OutEvent) : (d.setOut v).survey = d.survey := rfl
@[simp] theorem Dev.setOut_dists (d : Dev) (v : List OutEvent) : (d.setOut v).dists = d.dists := rfl
@[simp] theorem Dev.setOut_devs (d : Dev) (v : List OutEvent) : (d.setOut v).devs = d.devs := rfl
@[simp] theorem Dev.setOut_cxl (d : Dev) (v : List OutEvent) : (d.setOut v).cxl = d.cxl := rfl
@[simp] theorem Dev.setOut_cache (d : Dev) (v : List OutEvent) : (d.setOut v).cache = d.cache := rfl
@[simp] theorem Dev.setOut_lines (d : Dev) (v : List OutEvent) : (d.setOut v).lines = d.lines := rfl
@[simp] theorem Dev.setOut_mem (d : Dev) (v : List OutEvent) : (d.setOut v).mem = d.mem := rfl
@[simp] theorem Dev.setOut_bad (d : Dev) (v : List OutEvent) : (d.setOut v).bad = d.bad := rfl
@[simp] theorem Dev.setOut_memFaults (d : Dev) (v : List OutEvent) : (d.setOut v).memFaults = d.memFaults := rfl
@[simp] theorem Dev.setOut_cores (d : Dev) (v : List OutEvent) : (d.setOut v).cores = d.cores := rfl
@[simp] theorem Dev.setOut_fields (d : Dev) (v : List OutEvent) : (d.setOut v).fields = d.fields := rfl
@[simp] theorem Dev.setOut_saves (d : Dev) (v : List OutEvent) : (d.setOut v).saves = d.saves := rfl
@[simp] theorem Dev.setOut_startup (d : Dev) (v : List OutEvent) : (d.setOut v).startup = d.startup := rfl
@[simp] theorem Dev.setOut_units (d : Dev) (v : List OutEvent) : (d.setOut v).units = d.units := rfl
@[simp] theorem Dev.setOut_silt (d : Dev) (v : List OutEvent) : (d.setOut v).silt = d.silt := rfl
@[simp] theorem Dev.setOut_lkk (d : Dev) (v : List OutEvent) : (d.setOut v).lkk = d.lkk := rfl
@[simp] theorem Dev.setOut_flumes (d : Dev) (v : List OutEvent) : (d.setOut v).flumes = d.flumes := rfl
@[simp] theorem Dev.setOut_divs (d : Dev) (v : List OutEvent) : (d.setOut v).divs = d.divs := rfl
@[simp] theorem Dev.setOut_divPins (d : Dev) (v : List OutEvent) : (d.setOut v).divPins = d.divPins := rfl
@[simp] theorem Dev.setOut_claims (d : Dev) (v : List OutEvent) : (d.setOut v).claims = d.claims := rfl
@[simp] theorem Dev.setOut_steps (d : Dev) (v : List OutEvent) : (d.setOut v).steps = d.steps := rfl
@[simp] theorem Dev.setOut_parts (d : Dev) (v : List OutEvent) : (d.setOut v).parts = d.parts := rfl
@[simp] theorem Dev.setOut_cis (d : Dev) (v : List OutEvent) : (d.setOut v).cis = d.cis := rfl
@[simp] theorem Dev.setOut_gauges (d : Dev) (v : List OutEvent) : (d.setOut v).gauges = d.gauges := rfl
@[simp] theorem Dev.setOut_gaugeReports (d : Dev) (v : List OutEvent) : (d.setOut v).gaugeReports = d.gaugeReports := rfl
@[simp] theorem Dev.setOut_cfls (d : Dev) (v : List OutEvent) : (d.setOut v).cfls = d.cfls := rfl
@[simp] theorem Dev.setOut_cflElems (d : Dev) (v : List OutEvent) : (d.setOut v).cflElems = d.cflElems := rfl
@[simp] theorem Dev.setOut_sec (d : Dev) (v : List OutEvent) : (d.setOut v).sec = d.sec := rfl
@[simp] theorem Dev.setOut_power (d : Dev) (v : List OutEvent) : (d.setOut v).power = d.power := rfl
@[simp] theorem Dev.setOut_wakes (d : Dev) (v : List OutEvent) : (d.setOut v).wakes = d.wakes := rfl
@[simp] theorem Dev.setOut_serves (d : Dev) (v : List OutEvent) : (d.setOut v).serves = d.serves := rfl
@[simp] theorem Dev.setOut_tenants (d : Dev) (v : List OutEvent) : (d.setOut v).tenants = d.tenants := rfl
@[simp] theorem Dev.setOut_reqs (d : Dev) (v : List OutEvent) : (d.setOut v).reqs = d.reqs := rfl
@[simp] theorem Dev.setOut_nextReq (d : Dev) (v : List OutEvent) : (d.setOut v).nextReq = d.nextReq := rfl
@[simp] theorem Dev.setOut_ofts (d : Dev) (v : List OutEvent) : (d.setOut v).ofts = d.ofts := rfl
@[simp] theorem Dev.setOut_oftInsts (d : Dev) (v : List OutEvent) : (d.setOut v).oftInsts = d.oftInsts := rfl
@[simp] theorem Dev.setOut_oftTimes (d : Dev) (v : List OutEvent) : (d.setOut v).oftTimes = d.oftTimes := rfl
@[simp] theorem Dev.setDraws_time (d : Dev) (v : Nat) : (d.setDraws v).time = d.time := rfl
@[simp] theorem Dev.setDraws_out (d : Dev) (v : Nat) : (d.setDraws v).out = d.out := rfl
@[simp] theorem Dev.setDraws_draws (d : Dev) (v : Nat) : (d.setDraws v).draws = v := rfl
@[simp] theorem Dev.setDraws_regs (d : Dev) (v : Nat) : (d.setDraws v).regs = d.regs := rfl
@[simp] theorem Dev.setDraws_ports (d : Dev) (v : Nat) : (d.setDraws v).ports = d.ports := rfl
@[simp] theorem Dev.setDraws_rings (d : Dev) (v : Nat) : (d.setDraws v).rings = d.rings := rfl
@[simp] theorem Dev.setDraws_errs (d : Dev) (v : Nat) : (d.setDraws v).errs = d.errs := rfl
@[simp] theorem Dev.setDraws_orders (d : Dev) (v : Nat) : (d.setDraws v).orders = d.orders := rfl
@[simp] theorem Dev.setDraws_sluices (d : Dev) (v : Nat) : (d.setDraws v).sluices = d.sluices := rfl
@[simp] theorem Dev.setDraws_msix (d : Dev) (v : Nat) : (d.setDraws v).msix = d.msix := rfl
@[simp] theorem Dev.setDraws_gates (d : Dev) (v : Nat) : (d.setDraws v).gates = d.gates := rfl
@[simp] theorem Dev.setDraws_waits (d : Dev) (v : Nat) : (d.setDraws v).waits = d.waits := rfl
@[simp] theorem Dev.setDraws_canal (d : Dev) (v : Nat) : (d.setDraws v).canal = d.canal := rfl
@[simp] theorem Dev.setDraws_ctxs (d : Dev) (v : Nat) : (d.setDraws v).ctxs = d.ctxs := rfl
@[simp] theorem Dev.setDraws_sched (d : Dev) (v : Nat) : (d.setDraws v).sched = d.sched := rfl
@[simp] theorem Dev.setDraws_survey (d : Dev) (v : Nat) : (d.setDraws v).survey = d.survey := rfl
@[simp] theorem Dev.setDraws_dists (d : Dev) (v : Nat) : (d.setDraws v).dists = d.dists := rfl
@[simp] theorem Dev.setDraws_devs (d : Dev) (v : Nat) : (d.setDraws v).devs = d.devs := rfl
@[simp] theorem Dev.setDraws_cxl (d : Dev) (v : Nat) : (d.setDraws v).cxl = d.cxl := rfl
@[simp] theorem Dev.setDraws_cache (d : Dev) (v : Nat) : (d.setDraws v).cache = d.cache := rfl
@[simp] theorem Dev.setDraws_lines (d : Dev) (v : Nat) : (d.setDraws v).lines = d.lines := rfl
@[simp] theorem Dev.setDraws_mem (d : Dev) (v : Nat) : (d.setDraws v).mem = d.mem := rfl
@[simp] theorem Dev.setDraws_bad (d : Dev) (v : Nat) : (d.setDraws v).bad = d.bad := rfl
@[simp] theorem Dev.setDraws_memFaults (d : Dev) (v : Nat) : (d.setDraws v).memFaults = d.memFaults := rfl
@[simp] theorem Dev.setDraws_cores (d : Dev) (v : Nat) : (d.setDraws v).cores = d.cores := rfl
@[simp] theorem Dev.setDraws_fields (d : Dev) (v : Nat) : (d.setDraws v).fields = d.fields := rfl
@[simp] theorem Dev.setDraws_saves (d : Dev) (v : Nat) : (d.setDraws v).saves = d.saves := rfl
@[simp] theorem Dev.setDraws_startup (d : Dev) (v : Nat) : (d.setDraws v).startup = d.startup := rfl
@[simp] theorem Dev.setDraws_units (d : Dev) (v : Nat) : (d.setDraws v).units = d.units := rfl
@[simp] theorem Dev.setDraws_silt (d : Dev) (v : Nat) : (d.setDraws v).silt = d.silt := rfl
@[simp] theorem Dev.setDraws_lkk (d : Dev) (v : Nat) : (d.setDraws v).lkk = d.lkk := rfl
@[simp] theorem Dev.setDraws_flumes (d : Dev) (v : Nat) : (d.setDraws v).flumes = d.flumes := rfl
@[simp] theorem Dev.setDraws_divs (d : Dev) (v : Nat) : (d.setDraws v).divs = d.divs := rfl
@[simp] theorem Dev.setDraws_divPins (d : Dev) (v : Nat) : (d.setDraws v).divPins = d.divPins := rfl
@[simp] theorem Dev.setDraws_claims (d : Dev) (v : Nat) : (d.setDraws v).claims = d.claims := rfl
@[simp] theorem Dev.setDraws_steps (d : Dev) (v : Nat) : (d.setDraws v).steps = d.steps := rfl
@[simp] theorem Dev.setDraws_parts (d : Dev) (v : Nat) : (d.setDraws v).parts = d.parts := rfl
@[simp] theorem Dev.setDraws_cis (d : Dev) (v : Nat) : (d.setDraws v).cis = d.cis := rfl
@[simp] theorem Dev.setDraws_gauges (d : Dev) (v : Nat) : (d.setDraws v).gauges = d.gauges := rfl
@[simp] theorem Dev.setDraws_gaugeReports (d : Dev) (v : Nat) : (d.setDraws v).gaugeReports = d.gaugeReports := rfl
@[simp] theorem Dev.setDraws_cfls (d : Dev) (v : Nat) : (d.setDraws v).cfls = d.cfls := rfl
@[simp] theorem Dev.setDraws_cflElems (d : Dev) (v : Nat) : (d.setDraws v).cflElems = d.cflElems := rfl
@[simp] theorem Dev.setDraws_sec (d : Dev) (v : Nat) : (d.setDraws v).sec = d.sec := rfl
@[simp] theorem Dev.setDraws_power (d : Dev) (v : Nat) : (d.setDraws v).power = d.power := rfl
@[simp] theorem Dev.setDraws_wakes (d : Dev) (v : Nat) : (d.setDraws v).wakes = d.wakes := rfl
@[simp] theorem Dev.setDraws_serves (d : Dev) (v : Nat) : (d.setDraws v).serves = d.serves := rfl
@[simp] theorem Dev.setDraws_tenants (d : Dev) (v : Nat) : (d.setDraws v).tenants = d.tenants := rfl
@[simp] theorem Dev.setDraws_reqs (d : Dev) (v : Nat) : (d.setDraws v).reqs = d.reqs := rfl
@[simp] theorem Dev.setDraws_nextReq (d : Dev) (v : Nat) : (d.setDraws v).nextReq = d.nextReq := rfl
@[simp] theorem Dev.setDraws_ofts (d : Dev) (v : Nat) : (d.setDraws v).ofts = d.ofts := rfl
@[simp] theorem Dev.setDraws_oftInsts (d : Dev) (v : Nat) : (d.setDraws v).oftInsts = d.oftInsts := rfl
@[simp] theorem Dev.setDraws_oftTimes (d : Dev) (v : Nat) : (d.setDraws v).oftTimes = d.oftTimes := rfl
@[simp] theorem Dev.setRegs_time (d : Dev) (v : Tbl DWord) : (d.setRegs v).time = d.time := rfl
@[simp] theorem Dev.setRegs_out (d : Dev) (v : Tbl DWord) : (d.setRegs v).out = d.out := rfl
@[simp] theorem Dev.setRegs_draws (d : Dev) (v : Tbl DWord) : (d.setRegs v).draws = d.draws := rfl
@[simp] theorem Dev.setRegs_regs (d : Dev) (v : Tbl DWord) : (d.setRegs v).regs = v := rfl
@[simp] theorem Dev.setRegs_ports (d : Dev) (v : Tbl DWord) : (d.setRegs v).ports = d.ports := rfl
@[simp] theorem Dev.setRegs_rings (d : Dev) (v : Tbl DWord) : (d.setRegs v).rings = d.rings := rfl
@[simp] theorem Dev.setRegs_errs (d : Dev) (v : Tbl DWord) : (d.setRegs v).errs = d.errs := rfl
@[simp] theorem Dev.setRegs_orders (d : Dev) (v : Tbl DWord) : (d.setRegs v).orders = d.orders := rfl
@[simp] theorem Dev.setRegs_sluices (d : Dev) (v : Tbl DWord) : (d.setRegs v).sluices = d.sluices := rfl
@[simp] theorem Dev.setRegs_msix (d : Dev) (v : Tbl DWord) : (d.setRegs v).msix = d.msix := rfl
@[simp] theorem Dev.setRegs_gates (d : Dev) (v : Tbl DWord) : (d.setRegs v).gates = d.gates := rfl
@[simp] theorem Dev.setRegs_waits (d : Dev) (v : Tbl DWord) : (d.setRegs v).waits = d.waits := rfl
@[simp] theorem Dev.setRegs_canal (d : Dev) (v : Tbl DWord) : (d.setRegs v).canal = d.canal := rfl
@[simp] theorem Dev.setRegs_ctxs (d : Dev) (v : Tbl DWord) : (d.setRegs v).ctxs = d.ctxs := rfl
@[simp] theorem Dev.setRegs_sched (d : Dev) (v : Tbl DWord) : (d.setRegs v).sched = d.sched := rfl
@[simp] theorem Dev.setRegs_survey (d : Dev) (v : Tbl DWord) : (d.setRegs v).survey = d.survey := rfl
@[simp] theorem Dev.setRegs_dists (d : Dev) (v : Tbl DWord) : (d.setRegs v).dists = d.dists := rfl
@[simp] theorem Dev.setRegs_devs (d : Dev) (v : Tbl DWord) : (d.setRegs v).devs = d.devs := rfl
@[simp] theorem Dev.setRegs_cxl (d : Dev) (v : Tbl DWord) : (d.setRegs v).cxl = d.cxl := rfl
@[simp] theorem Dev.setRegs_cache (d : Dev) (v : Tbl DWord) : (d.setRegs v).cache = d.cache := rfl
@[simp] theorem Dev.setRegs_lines (d : Dev) (v : Tbl DWord) : (d.setRegs v).lines = d.lines := rfl
@[simp] theorem Dev.setRegs_mem (d : Dev) (v : Tbl DWord) : (d.setRegs v).mem = d.mem := rfl
@[simp] theorem Dev.setRegs_bad (d : Dev) (v : Tbl DWord) : (d.setRegs v).bad = d.bad := rfl
@[simp] theorem Dev.setRegs_memFaults (d : Dev) (v : Tbl DWord) : (d.setRegs v).memFaults = d.memFaults := rfl
@[simp] theorem Dev.setRegs_cores (d : Dev) (v : Tbl DWord) : (d.setRegs v).cores = d.cores := rfl
@[simp] theorem Dev.setRegs_fields (d : Dev) (v : Tbl DWord) : (d.setRegs v).fields = d.fields := rfl
@[simp] theorem Dev.setRegs_saves (d : Dev) (v : Tbl DWord) : (d.setRegs v).saves = d.saves := rfl
@[simp] theorem Dev.setRegs_startup (d : Dev) (v : Tbl DWord) : (d.setRegs v).startup = d.startup := rfl
@[simp] theorem Dev.setRegs_units (d : Dev) (v : Tbl DWord) : (d.setRegs v).units = d.units := rfl
@[simp] theorem Dev.setRegs_silt (d : Dev) (v : Tbl DWord) : (d.setRegs v).silt = d.silt := rfl
@[simp] theorem Dev.setRegs_lkk (d : Dev) (v : Tbl DWord) : (d.setRegs v).lkk = d.lkk := rfl
@[simp] theorem Dev.setRegs_flumes (d : Dev) (v : Tbl DWord) : (d.setRegs v).flumes = d.flumes := rfl
@[simp] theorem Dev.setRegs_divs (d : Dev) (v : Tbl DWord) : (d.setRegs v).divs = d.divs := rfl
@[simp] theorem Dev.setRegs_divPins (d : Dev) (v : Tbl DWord) : (d.setRegs v).divPins = d.divPins := rfl
@[simp] theorem Dev.setRegs_claims (d : Dev) (v : Tbl DWord) : (d.setRegs v).claims = d.claims := rfl
@[simp] theorem Dev.setRegs_steps (d : Dev) (v : Tbl DWord) : (d.setRegs v).steps = d.steps := rfl
@[simp] theorem Dev.setRegs_parts (d : Dev) (v : Tbl DWord) : (d.setRegs v).parts = d.parts := rfl
@[simp] theorem Dev.setRegs_cis (d : Dev) (v : Tbl DWord) : (d.setRegs v).cis = d.cis := rfl
@[simp] theorem Dev.setRegs_gauges (d : Dev) (v : Tbl DWord) : (d.setRegs v).gauges = d.gauges := rfl
@[simp] theorem Dev.setRegs_gaugeReports (d : Dev) (v : Tbl DWord) : (d.setRegs v).gaugeReports = d.gaugeReports := rfl
@[simp] theorem Dev.setRegs_cfls (d : Dev) (v : Tbl DWord) : (d.setRegs v).cfls = d.cfls := rfl
@[simp] theorem Dev.setRegs_cflElems (d : Dev) (v : Tbl DWord) : (d.setRegs v).cflElems = d.cflElems := rfl
@[simp] theorem Dev.setRegs_sec (d : Dev) (v : Tbl DWord) : (d.setRegs v).sec = d.sec := rfl
@[simp] theorem Dev.setRegs_power (d : Dev) (v : Tbl DWord) : (d.setRegs v).power = d.power := rfl
@[simp] theorem Dev.setRegs_wakes (d : Dev) (v : Tbl DWord) : (d.setRegs v).wakes = d.wakes := rfl
@[simp] theorem Dev.setRegs_serves (d : Dev) (v : Tbl DWord) : (d.setRegs v).serves = d.serves := rfl
@[simp] theorem Dev.setRegs_tenants (d : Dev) (v : Tbl DWord) : (d.setRegs v).tenants = d.tenants := rfl
@[simp] theorem Dev.setRegs_reqs (d : Dev) (v : Tbl DWord) : (d.setRegs v).reqs = d.reqs := rfl
@[simp] theorem Dev.setRegs_nextReq (d : Dev) (v : Tbl DWord) : (d.setRegs v).nextReq = d.nextReq := rfl
@[simp] theorem Dev.setRegs_ofts (d : Dev) (v : Tbl DWord) : (d.setRegs v).ofts = d.ofts := rfl
@[simp] theorem Dev.setRegs_oftInsts (d : Dev) (v : Tbl DWord) : (d.setRegs v).oftInsts = d.oftInsts := rfl
@[simp] theorem Dev.setRegs_oftTimes (d : Dev) (v : Tbl DWord) : (d.setRegs v).oftTimes = d.oftTimes := rfl
@[simp] theorem Dev.setPorts_time (d : Dev) (v : List Port) : (d.setPorts v).time = d.time := rfl
@[simp] theorem Dev.setPorts_out (d : Dev) (v : List Port) : (d.setPorts v).out = d.out := rfl
@[simp] theorem Dev.setPorts_draws (d : Dev) (v : List Port) : (d.setPorts v).draws = d.draws := rfl
@[simp] theorem Dev.setPorts_regs (d : Dev) (v : List Port) : (d.setPorts v).regs = d.regs := rfl
@[simp] theorem Dev.setPorts_ports (d : Dev) (v : List Port) : (d.setPorts v).ports = v := rfl
@[simp] theorem Dev.setPorts_rings (d : Dev) (v : List Port) : (d.setPorts v).rings = d.rings := rfl
@[simp] theorem Dev.setPorts_errs (d : Dev) (v : List Port) : (d.setPorts v).errs = d.errs := rfl
@[simp] theorem Dev.setPorts_orders (d : Dev) (v : List Port) : (d.setPorts v).orders = d.orders := rfl
@[simp] theorem Dev.setPorts_sluices (d : Dev) (v : List Port) : (d.setPorts v).sluices = d.sluices := rfl
@[simp] theorem Dev.setPorts_msix (d : Dev) (v : List Port) : (d.setPorts v).msix = d.msix := rfl
@[simp] theorem Dev.setPorts_gates (d : Dev) (v : List Port) : (d.setPorts v).gates = d.gates := rfl
@[simp] theorem Dev.setPorts_waits (d : Dev) (v : List Port) : (d.setPorts v).waits = d.waits := rfl
@[simp] theorem Dev.setPorts_canal (d : Dev) (v : List Port) : (d.setPorts v).canal = d.canal := rfl
@[simp] theorem Dev.setPorts_ctxs (d : Dev) (v : List Port) : (d.setPorts v).ctxs = d.ctxs := rfl
@[simp] theorem Dev.setPorts_sched (d : Dev) (v : List Port) : (d.setPorts v).sched = d.sched := rfl
@[simp] theorem Dev.setPorts_survey (d : Dev) (v : List Port) : (d.setPorts v).survey = d.survey := rfl
@[simp] theorem Dev.setPorts_dists (d : Dev) (v : List Port) : (d.setPorts v).dists = d.dists := rfl
@[simp] theorem Dev.setPorts_devs (d : Dev) (v : List Port) : (d.setPorts v).devs = d.devs := rfl
@[simp] theorem Dev.setPorts_cxl (d : Dev) (v : List Port) : (d.setPorts v).cxl = d.cxl := rfl
@[simp] theorem Dev.setPorts_cache (d : Dev) (v : List Port) : (d.setPorts v).cache = d.cache := rfl
@[simp] theorem Dev.setPorts_lines (d : Dev) (v : List Port) : (d.setPorts v).lines = d.lines := rfl
@[simp] theorem Dev.setPorts_mem (d : Dev) (v : List Port) : (d.setPorts v).mem = d.mem := rfl
@[simp] theorem Dev.setPorts_bad (d : Dev) (v : List Port) : (d.setPorts v).bad = d.bad := rfl
@[simp] theorem Dev.setPorts_memFaults (d : Dev) (v : List Port) : (d.setPorts v).memFaults = d.memFaults := rfl
@[simp] theorem Dev.setPorts_cores (d : Dev) (v : List Port) : (d.setPorts v).cores = d.cores := rfl
@[simp] theorem Dev.setPorts_fields (d : Dev) (v : List Port) : (d.setPorts v).fields = d.fields := rfl
@[simp] theorem Dev.setPorts_saves (d : Dev) (v : List Port) : (d.setPorts v).saves = d.saves := rfl
@[simp] theorem Dev.setPorts_startup (d : Dev) (v : List Port) : (d.setPorts v).startup = d.startup := rfl
@[simp] theorem Dev.setPorts_units (d : Dev) (v : List Port) : (d.setPorts v).units = d.units := rfl
@[simp] theorem Dev.setPorts_silt (d : Dev) (v : List Port) : (d.setPorts v).silt = d.silt := rfl
@[simp] theorem Dev.setPorts_lkk (d : Dev) (v : List Port) : (d.setPorts v).lkk = d.lkk := rfl
@[simp] theorem Dev.setPorts_flumes (d : Dev) (v : List Port) : (d.setPorts v).flumes = d.flumes := rfl
@[simp] theorem Dev.setPorts_divs (d : Dev) (v : List Port) : (d.setPorts v).divs = d.divs := rfl
@[simp] theorem Dev.setPorts_divPins (d : Dev) (v : List Port) : (d.setPorts v).divPins = d.divPins := rfl
@[simp] theorem Dev.setPorts_claims (d : Dev) (v : List Port) : (d.setPorts v).claims = d.claims := rfl
@[simp] theorem Dev.setPorts_steps (d : Dev) (v : List Port) : (d.setPorts v).steps = d.steps := rfl
@[simp] theorem Dev.setPorts_parts (d : Dev) (v : List Port) : (d.setPorts v).parts = d.parts := rfl
@[simp] theorem Dev.setPorts_cis (d : Dev) (v : List Port) : (d.setPorts v).cis = d.cis := rfl
@[simp] theorem Dev.setPorts_gauges (d : Dev) (v : List Port) : (d.setPorts v).gauges = d.gauges := rfl
@[simp] theorem Dev.setPorts_gaugeReports (d : Dev) (v : List Port) : (d.setPorts v).gaugeReports = d.gaugeReports := rfl
@[simp] theorem Dev.setPorts_cfls (d : Dev) (v : List Port) : (d.setPorts v).cfls = d.cfls := rfl
@[simp] theorem Dev.setPorts_cflElems (d : Dev) (v : List Port) : (d.setPorts v).cflElems = d.cflElems := rfl
@[simp] theorem Dev.setPorts_sec (d : Dev) (v : List Port) : (d.setPorts v).sec = d.sec := rfl
@[simp] theorem Dev.setPorts_power (d : Dev) (v : List Port) : (d.setPorts v).power = d.power := rfl
@[simp] theorem Dev.setPorts_wakes (d : Dev) (v : List Port) : (d.setPorts v).wakes = d.wakes := rfl
@[simp] theorem Dev.setPorts_serves (d : Dev) (v : List Port) : (d.setPorts v).serves = d.serves := rfl
@[simp] theorem Dev.setPorts_tenants (d : Dev) (v : List Port) : (d.setPorts v).tenants = d.tenants := rfl
@[simp] theorem Dev.setPorts_reqs (d : Dev) (v : List Port) : (d.setPorts v).reqs = d.reqs := rfl
@[simp] theorem Dev.setPorts_nextReq (d : Dev) (v : List Port) : (d.setPorts v).nextReq = d.nextReq := rfl
@[simp] theorem Dev.setPorts_ofts (d : Dev) (v : List Port) : (d.setPorts v).ofts = d.ofts := rfl
@[simp] theorem Dev.setPorts_oftInsts (d : Dev) (v : List Port) : (d.setPorts v).oftInsts = d.oftInsts := rfl
@[simp] theorem Dev.setPorts_oftTimes (d : Dev) (v : List Port) : (d.setPorts v).oftTimes = d.oftTimes := rfl
@[simp] theorem Dev.setRings_time (d : Dev) (v : Tbl Ring) : (d.setRings v).time = d.time := rfl
@[simp] theorem Dev.setRings_out (d : Dev) (v : Tbl Ring) : (d.setRings v).out = d.out := rfl
@[simp] theorem Dev.setRings_draws (d : Dev) (v : Tbl Ring) : (d.setRings v).draws = d.draws := rfl
@[simp] theorem Dev.setRings_regs (d : Dev) (v : Tbl Ring) : (d.setRings v).regs = d.regs := rfl
@[simp] theorem Dev.setRings_ports (d : Dev) (v : Tbl Ring) : (d.setRings v).ports = d.ports := rfl
@[simp] theorem Dev.setRings_rings (d : Dev) (v : Tbl Ring) : (d.setRings v).rings = v := rfl
@[simp] theorem Dev.setRings_errs (d : Dev) (v : Tbl Ring) : (d.setRings v).errs = d.errs := rfl
@[simp] theorem Dev.setRings_orders (d : Dev) (v : Tbl Ring) : (d.setRings v).orders = d.orders := rfl
@[simp] theorem Dev.setRings_sluices (d : Dev) (v : Tbl Ring) : (d.setRings v).sluices = d.sluices := rfl
@[simp] theorem Dev.setRings_msix (d : Dev) (v : Tbl Ring) : (d.setRings v).msix = d.msix := rfl
@[simp] theorem Dev.setRings_gates (d : Dev) (v : Tbl Ring) : (d.setRings v).gates = d.gates := rfl
@[simp] theorem Dev.setRings_waits (d : Dev) (v : Tbl Ring) : (d.setRings v).waits = d.waits := rfl
@[simp] theorem Dev.setRings_canal (d : Dev) (v : Tbl Ring) : (d.setRings v).canal = d.canal := rfl
@[simp] theorem Dev.setRings_ctxs (d : Dev) (v : Tbl Ring) : (d.setRings v).ctxs = d.ctxs := rfl
@[simp] theorem Dev.setRings_sched (d : Dev) (v : Tbl Ring) : (d.setRings v).sched = d.sched := rfl
@[simp] theorem Dev.setRings_survey (d : Dev) (v : Tbl Ring) : (d.setRings v).survey = d.survey := rfl
@[simp] theorem Dev.setRings_dists (d : Dev) (v : Tbl Ring) : (d.setRings v).dists = d.dists := rfl
@[simp] theorem Dev.setRings_devs (d : Dev) (v : Tbl Ring) : (d.setRings v).devs = d.devs := rfl
@[simp] theorem Dev.setRings_cxl (d : Dev) (v : Tbl Ring) : (d.setRings v).cxl = d.cxl := rfl
@[simp] theorem Dev.setRings_cache (d : Dev) (v : Tbl Ring) : (d.setRings v).cache = d.cache := rfl
@[simp] theorem Dev.setRings_lines (d : Dev) (v : Tbl Ring) : (d.setRings v).lines = d.lines := rfl
@[simp] theorem Dev.setRings_mem (d : Dev) (v : Tbl Ring) : (d.setRings v).mem = d.mem := rfl
@[simp] theorem Dev.setRings_bad (d : Dev) (v : Tbl Ring) : (d.setRings v).bad = d.bad := rfl
@[simp] theorem Dev.setRings_memFaults (d : Dev) (v : Tbl Ring) : (d.setRings v).memFaults = d.memFaults := rfl
@[simp] theorem Dev.setRings_cores (d : Dev) (v : Tbl Ring) : (d.setRings v).cores = d.cores := rfl
@[simp] theorem Dev.setRings_fields (d : Dev) (v : Tbl Ring) : (d.setRings v).fields = d.fields := rfl
@[simp] theorem Dev.setRings_saves (d : Dev) (v : Tbl Ring) : (d.setRings v).saves = d.saves := rfl
@[simp] theorem Dev.setRings_startup (d : Dev) (v : Tbl Ring) : (d.setRings v).startup = d.startup := rfl
@[simp] theorem Dev.setRings_units (d : Dev) (v : Tbl Ring) : (d.setRings v).units = d.units := rfl
@[simp] theorem Dev.setRings_silt (d : Dev) (v : Tbl Ring) : (d.setRings v).silt = d.silt := rfl
@[simp] theorem Dev.setRings_lkk (d : Dev) (v : Tbl Ring) : (d.setRings v).lkk = d.lkk := rfl
@[simp] theorem Dev.setRings_flumes (d : Dev) (v : Tbl Ring) : (d.setRings v).flumes = d.flumes := rfl
@[simp] theorem Dev.setRings_divs (d : Dev) (v : Tbl Ring) : (d.setRings v).divs = d.divs := rfl
@[simp] theorem Dev.setRings_divPins (d : Dev) (v : Tbl Ring) : (d.setRings v).divPins = d.divPins := rfl
@[simp] theorem Dev.setRings_claims (d : Dev) (v : Tbl Ring) : (d.setRings v).claims = d.claims := rfl
@[simp] theorem Dev.setRings_steps (d : Dev) (v : Tbl Ring) : (d.setRings v).steps = d.steps := rfl
@[simp] theorem Dev.setRings_parts (d : Dev) (v : Tbl Ring) : (d.setRings v).parts = d.parts := rfl
@[simp] theorem Dev.setRings_cis (d : Dev) (v : Tbl Ring) : (d.setRings v).cis = d.cis := rfl
@[simp] theorem Dev.setRings_gauges (d : Dev) (v : Tbl Ring) : (d.setRings v).gauges = d.gauges := rfl
@[simp] theorem Dev.setRings_gaugeReports (d : Dev) (v : Tbl Ring) : (d.setRings v).gaugeReports = d.gaugeReports := rfl
@[simp] theorem Dev.setRings_cfls (d : Dev) (v : Tbl Ring) : (d.setRings v).cfls = d.cfls := rfl
@[simp] theorem Dev.setRings_cflElems (d : Dev) (v : Tbl Ring) : (d.setRings v).cflElems = d.cflElems := rfl
@[simp] theorem Dev.setRings_sec (d : Dev) (v : Tbl Ring) : (d.setRings v).sec = d.sec := rfl
@[simp] theorem Dev.setRings_power (d : Dev) (v : Tbl Ring) : (d.setRings v).power = d.power := rfl
@[simp] theorem Dev.setRings_wakes (d : Dev) (v : Tbl Ring) : (d.setRings v).wakes = d.wakes := rfl
@[simp] theorem Dev.setRings_serves (d : Dev) (v : Tbl Ring) : (d.setRings v).serves = d.serves := rfl
@[simp] theorem Dev.setRings_tenants (d : Dev) (v : Tbl Ring) : (d.setRings v).tenants = d.tenants := rfl
@[simp] theorem Dev.setRings_reqs (d : Dev) (v : Tbl Ring) : (d.setRings v).reqs = d.reqs := rfl
@[simp] theorem Dev.setRings_nextReq (d : Dev) (v : Tbl Ring) : (d.setRings v).nextReq = d.nextReq := rfl
@[simp] theorem Dev.setRings_ofts (d : Dev) (v : Tbl Ring) : (d.setRings v).ofts = d.ofts := rfl
@[simp] theorem Dev.setRings_oftInsts (d : Dev) (v : Tbl Ring) : (d.setRings v).oftInsts = d.oftInsts := rfl
@[simp] theorem Dev.setRings_oftTimes (d : Dev) (v : Tbl Ring) : (d.setRings v).oftTimes = d.oftTimes := rfl
@[simp] theorem Dev.setErrs_time (d : Dev) (v : Tbl ErrRing) : (d.setErrs v).time = d.time := rfl
@[simp] theorem Dev.setErrs_out (d : Dev) (v : Tbl ErrRing) : (d.setErrs v).out = d.out := rfl
@[simp] theorem Dev.setErrs_draws (d : Dev) (v : Tbl ErrRing) : (d.setErrs v).draws = d.draws := rfl
@[simp] theorem Dev.setErrs_regs (d : Dev) (v : Tbl ErrRing) : (d.setErrs v).regs = d.regs := rfl
@[simp] theorem Dev.setErrs_ports (d : Dev) (v : Tbl ErrRing) : (d.setErrs v).ports = d.ports := rfl
@[simp] theorem Dev.setErrs_rings (d : Dev) (v : Tbl ErrRing) : (d.setErrs v).rings = d.rings := rfl
@[simp] theorem Dev.setErrs_errs (d : Dev) (v : Tbl ErrRing) : (d.setErrs v).errs = v := rfl
@[simp] theorem Dev.setErrs_orders (d : Dev) (v : Tbl ErrRing) : (d.setErrs v).orders = d.orders := rfl
@[simp] theorem Dev.setErrs_sluices (d : Dev) (v : Tbl ErrRing) : (d.setErrs v).sluices = d.sluices := rfl
@[simp] theorem Dev.setErrs_msix (d : Dev) (v : Tbl ErrRing) : (d.setErrs v).msix = d.msix := rfl
@[simp] theorem Dev.setErrs_gates (d : Dev) (v : Tbl ErrRing) : (d.setErrs v).gates = d.gates := rfl
@[simp] theorem Dev.setErrs_waits (d : Dev) (v : Tbl ErrRing) : (d.setErrs v).waits = d.waits := rfl
@[simp] theorem Dev.setErrs_canal (d : Dev) (v : Tbl ErrRing) : (d.setErrs v).canal = d.canal := rfl
@[simp] theorem Dev.setErrs_ctxs (d : Dev) (v : Tbl ErrRing) : (d.setErrs v).ctxs = d.ctxs := rfl
@[simp] theorem Dev.setErrs_sched (d : Dev) (v : Tbl ErrRing) : (d.setErrs v).sched = d.sched := rfl
@[simp] theorem Dev.setErrs_survey (d : Dev) (v : Tbl ErrRing) : (d.setErrs v).survey = d.survey := rfl
@[simp] theorem Dev.setErrs_dists (d : Dev) (v : Tbl ErrRing) : (d.setErrs v).dists = d.dists := rfl
@[simp] theorem Dev.setErrs_devs (d : Dev) (v : Tbl ErrRing) : (d.setErrs v).devs = d.devs := rfl
@[simp] theorem Dev.setErrs_cxl (d : Dev) (v : Tbl ErrRing) : (d.setErrs v).cxl = d.cxl := rfl
@[simp] theorem Dev.setErrs_cache (d : Dev) (v : Tbl ErrRing) : (d.setErrs v).cache = d.cache := rfl
@[simp] theorem Dev.setErrs_lines (d : Dev) (v : Tbl ErrRing) : (d.setErrs v).lines = d.lines := rfl
@[simp] theorem Dev.setErrs_mem (d : Dev) (v : Tbl ErrRing) : (d.setErrs v).mem = d.mem := rfl
@[simp] theorem Dev.setErrs_bad (d : Dev) (v : Tbl ErrRing) : (d.setErrs v).bad = d.bad := rfl
@[simp] theorem Dev.setErrs_memFaults (d : Dev) (v : Tbl ErrRing) : (d.setErrs v).memFaults = d.memFaults := rfl
@[simp] theorem Dev.setErrs_cores (d : Dev) (v : Tbl ErrRing) : (d.setErrs v).cores = d.cores := rfl
@[simp] theorem Dev.setErrs_fields (d : Dev) (v : Tbl ErrRing) : (d.setErrs v).fields = d.fields := rfl
@[simp] theorem Dev.setErrs_saves (d : Dev) (v : Tbl ErrRing) : (d.setErrs v).saves = d.saves := rfl
@[simp] theorem Dev.setErrs_startup (d : Dev) (v : Tbl ErrRing) : (d.setErrs v).startup = d.startup := rfl
@[simp] theorem Dev.setErrs_units (d : Dev) (v : Tbl ErrRing) : (d.setErrs v).units = d.units := rfl
@[simp] theorem Dev.setErrs_silt (d : Dev) (v : Tbl ErrRing) : (d.setErrs v).silt = d.silt := rfl
@[simp] theorem Dev.setErrs_lkk (d : Dev) (v : Tbl ErrRing) : (d.setErrs v).lkk = d.lkk := rfl
@[simp] theorem Dev.setErrs_flumes (d : Dev) (v : Tbl ErrRing) : (d.setErrs v).flumes = d.flumes := rfl
@[simp] theorem Dev.setErrs_divs (d : Dev) (v : Tbl ErrRing) : (d.setErrs v).divs = d.divs := rfl
@[simp] theorem Dev.setErrs_divPins (d : Dev) (v : Tbl ErrRing) : (d.setErrs v).divPins = d.divPins := rfl
@[simp] theorem Dev.setErrs_claims (d : Dev) (v : Tbl ErrRing) : (d.setErrs v).claims = d.claims := rfl
@[simp] theorem Dev.setErrs_steps (d : Dev) (v : Tbl ErrRing) : (d.setErrs v).steps = d.steps := rfl
@[simp] theorem Dev.setErrs_parts (d : Dev) (v : Tbl ErrRing) : (d.setErrs v).parts = d.parts := rfl
@[simp] theorem Dev.setErrs_cis (d : Dev) (v : Tbl ErrRing) : (d.setErrs v).cis = d.cis := rfl
@[simp] theorem Dev.setErrs_gauges (d : Dev) (v : Tbl ErrRing) : (d.setErrs v).gauges = d.gauges := rfl
@[simp] theorem Dev.setErrs_gaugeReports (d : Dev) (v : Tbl ErrRing) : (d.setErrs v).gaugeReports = d.gaugeReports := rfl
@[simp] theorem Dev.setErrs_cfls (d : Dev) (v : Tbl ErrRing) : (d.setErrs v).cfls = d.cfls := rfl
@[simp] theorem Dev.setErrs_cflElems (d : Dev) (v : Tbl ErrRing) : (d.setErrs v).cflElems = d.cflElems := rfl
@[simp] theorem Dev.setErrs_sec (d : Dev) (v : Tbl ErrRing) : (d.setErrs v).sec = d.sec := rfl
@[simp] theorem Dev.setErrs_power (d : Dev) (v : Tbl ErrRing) : (d.setErrs v).power = d.power := rfl
@[simp] theorem Dev.setErrs_wakes (d : Dev) (v : Tbl ErrRing) : (d.setErrs v).wakes = d.wakes := rfl
@[simp] theorem Dev.setErrs_serves (d : Dev) (v : Tbl ErrRing) : (d.setErrs v).serves = d.serves := rfl
@[simp] theorem Dev.setErrs_tenants (d : Dev) (v : Tbl ErrRing) : (d.setErrs v).tenants = d.tenants := rfl
@[simp] theorem Dev.setErrs_reqs (d : Dev) (v : Tbl ErrRing) : (d.setErrs v).reqs = d.reqs := rfl
@[simp] theorem Dev.setErrs_nextReq (d : Dev) (v : Tbl ErrRing) : (d.setErrs v).nextReq = d.nextReq := rfl
@[simp] theorem Dev.setErrs_ofts (d : Dev) (v : Tbl ErrRing) : (d.setErrs v).ofts = d.ofts := rfl
@[simp] theorem Dev.setErrs_oftInsts (d : Dev) (v : Tbl ErrRing) : (d.setErrs v).oftInsts = d.oftInsts := rfl
@[simp] theorem Dev.setErrs_oftTimes (d : Dev) (v : Tbl ErrRing) : (d.setErrs v).oftTimes = d.oftTimes := rfl
@[simp] theorem Dev.setOrders_time (d : Dev) (v : List Order) : (d.setOrders v).time = d.time := rfl
@[simp] theorem Dev.setOrders_out (d : Dev) (v : List Order) : (d.setOrders v).out = d.out := rfl
@[simp] theorem Dev.setOrders_draws (d : Dev) (v : List Order) : (d.setOrders v).draws = d.draws := rfl
@[simp] theorem Dev.setOrders_regs (d : Dev) (v : List Order) : (d.setOrders v).regs = d.regs := rfl
@[simp] theorem Dev.setOrders_ports (d : Dev) (v : List Order) : (d.setOrders v).ports = d.ports := rfl
@[simp] theorem Dev.setOrders_rings (d : Dev) (v : List Order) : (d.setOrders v).rings = d.rings := rfl
@[simp] theorem Dev.setOrders_errs (d : Dev) (v : List Order) : (d.setOrders v).errs = d.errs := rfl
@[simp] theorem Dev.setOrders_orders (d : Dev) (v : List Order) : (d.setOrders v).orders = v := rfl
@[simp] theorem Dev.setOrders_sluices (d : Dev) (v : List Order) : (d.setOrders v).sluices = d.sluices := rfl
@[simp] theorem Dev.setOrders_msix (d : Dev) (v : List Order) : (d.setOrders v).msix = d.msix := rfl
@[simp] theorem Dev.setOrders_gates (d : Dev) (v : List Order) : (d.setOrders v).gates = d.gates := rfl
@[simp] theorem Dev.setOrders_waits (d : Dev) (v : List Order) : (d.setOrders v).waits = d.waits := rfl
@[simp] theorem Dev.setOrders_canal (d : Dev) (v : List Order) : (d.setOrders v).canal = d.canal := rfl
@[simp] theorem Dev.setOrders_ctxs (d : Dev) (v : List Order) : (d.setOrders v).ctxs = d.ctxs := rfl
@[simp] theorem Dev.setOrders_sched (d : Dev) (v : List Order) : (d.setOrders v).sched = d.sched := rfl
@[simp] theorem Dev.setOrders_survey (d : Dev) (v : List Order) : (d.setOrders v).survey = d.survey := rfl
@[simp] theorem Dev.setOrders_dists (d : Dev) (v : List Order) : (d.setOrders v).dists = d.dists := rfl
@[simp] theorem Dev.setOrders_devs (d : Dev) (v : List Order) : (d.setOrders v).devs = d.devs := rfl
@[simp] theorem Dev.setOrders_cxl (d : Dev) (v : List Order) : (d.setOrders v).cxl = d.cxl := rfl
@[simp] theorem Dev.setOrders_cache (d : Dev) (v : List Order) : (d.setOrders v).cache = d.cache := rfl
@[simp] theorem Dev.setOrders_lines (d : Dev) (v : List Order) : (d.setOrders v).lines = d.lines := rfl
@[simp] theorem Dev.setOrders_mem (d : Dev) (v : List Order) : (d.setOrders v).mem = d.mem := rfl
@[simp] theorem Dev.setOrders_bad (d : Dev) (v : List Order) : (d.setOrders v).bad = d.bad := rfl
@[simp] theorem Dev.setOrders_memFaults (d : Dev) (v : List Order) : (d.setOrders v).memFaults = d.memFaults := rfl
@[simp] theorem Dev.setOrders_cores (d : Dev) (v : List Order) : (d.setOrders v).cores = d.cores := rfl
@[simp] theorem Dev.setOrders_fields (d : Dev) (v : List Order) : (d.setOrders v).fields = d.fields := rfl
@[simp] theorem Dev.setOrders_saves (d : Dev) (v : List Order) : (d.setOrders v).saves = d.saves := rfl
@[simp] theorem Dev.setOrders_startup (d : Dev) (v : List Order) : (d.setOrders v).startup = d.startup := rfl
@[simp] theorem Dev.setOrders_units (d : Dev) (v : List Order) : (d.setOrders v).units = d.units := rfl
@[simp] theorem Dev.setOrders_silt (d : Dev) (v : List Order) : (d.setOrders v).silt = d.silt := rfl
@[simp] theorem Dev.setOrders_lkk (d : Dev) (v : List Order) : (d.setOrders v).lkk = d.lkk := rfl
@[simp] theorem Dev.setOrders_flumes (d : Dev) (v : List Order) : (d.setOrders v).flumes = d.flumes := rfl
@[simp] theorem Dev.setOrders_divs (d : Dev) (v : List Order) : (d.setOrders v).divs = d.divs := rfl
@[simp] theorem Dev.setOrders_divPins (d : Dev) (v : List Order) : (d.setOrders v).divPins = d.divPins := rfl
@[simp] theorem Dev.setOrders_claims (d : Dev) (v : List Order) : (d.setOrders v).claims = d.claims := rfl
@[simp] theorem Dev.setOrders_steps (d : Dev) (v : List Order) : (d.setOrders v).steps = d.steps := rfl
@[simp] theorem Dev.setOrders_parts (d : Dev) (v : List Order) : (d.setOrders v).parts = d.parts := rfl
@[simp] theorem Dev.setOrders_cis (d : Dev) (v : List Order) : (d.setOrders v).cis = d.cis := rfl
@[simp] theorem Dev.setOrders_gauges (d : Dev) (v : List Order) : (d.setOrders v).gauges = d.gauges := rfl
@[simp] theorem Dev.setOrders_gaugeReports (d : Dev) (v : List Order) : (d.setOrders v).gaugeReports = d.gaugeReports := rfl
@[simp] theorem Dev.setOrders_cfls (d : Dev) (v : List Order) : (d.setOrders v).cfls = d.cfls := rfl
@[simp] theorem Dev.setOrders_cflElems (d : Dev) (v : List Order) : (d.setOrders v).cflElems = d.cflElems := rfl
@[simp] theorem Dev.setOrders_sec (d : Dev) (v : List Order) : (d.setOrders v).sec = d.sec := rfl
@[simp] theorem Dev.setOrders_power (d : Dev) (v : List Order) : (d.setOrders v).power = d.power := rfl
@[simp] theorem Dev.setOrders_wakes (d : Dev) (v : List Order) : (d.setOrders v).wakes = d.wakes := rfl
@[simp] theorem Dev.setOrders_serves (d : Dev) (v : List Order) : (d.setOrders v).serves = d.serves := rfl
@[simp] theorem Dev.setOrders_tenants (d : Dev) (v : List Order) : (d.setOrders v).tenants = d.tenants := rfl
@[simp] theorem Dev.setOrders_reqs (d : Dev) (v : List Order) : (d.setOrders v).reqs = d.reqs := rfl
@[simp] theorem Dev.setOrders_nextReq (d : Dev) (v : List Order) : (d.setOrders v).nextReq = d.nextReq := rfl
@[simp] theorem Dev.setOrders_ofts (d : Dev) (v : List Order) : (d.setOrders v).ofts = d.ofts := rfl
@[simp] theorem Dev.setOrders_oftInsts (d : Dev) (v : List Order) : (d.setOrders v).oftInsts = d.oftInsts := rfl
@[simp] theorem Dev.setOrders_oftTimes (d : Dev) (v : List Order) : (d.setOrders v).oftTimes = d.oftTimes := rfl
@[simp] theorem Dev.setSluices_time (d : Dev) (v : Tbl Sluice) : (d.setSluices v).time = d.time := rfl
@[simp] theorem Dev.setSluices_out (d : Dev) (v : Tbl Sluice) : (d.setSluices v).out = d.out := rfl
@[simp] theorem Dev.setSluices_draws (d : Dev) (v : Tbl Sluice) : (d.setSluices v).draws = d.draws := rfl
@[simp] theorem Dev.setSluices_regs (d : Dev) (v : Tbl Sluice) : (d.setSluices v).regs = d.regs := rfl
@[simp] theorem Dev.setSluices_ports (d : Dev) (v : Tbl Sluice) : (d.setSluices v).ports = d.ports := rfl
@[simp] theorem Dev.setSluices_rings (d : Dev) (v : Tbl Sluice) : (d.setSluices v).rings = d.rings := rfl
@[simp] theorem Dev.setSluices_errs (d : Dev) (v : Tbl Sluice) : (d.setSluices v).errs = d.errs := rfl
@[simp] theorem Dev.setSluices_orders (d : Dev) (v : Tbl Sluice) : (d.setSluices v).orders = d.orders := rfl
@[simp] theorem Dev.setSluices_sluices (d : Dev) (v : Tbl Sluice) : (d.setSluices v).sluices = v := rfl
@[simp] theorem Dev.setSluices_msix (d : Dev) (v : Tbl Sluice) : (d.setSluices v).msix = d.msix := rfl
@[simp] theorem Dev.setSluices_gates (d : Dev) (v : Tbl Sluice) : (d.setSluices v).gates = d.gates := rfl
@[simp] theorem Dev.setSluices_waits (d : Dev) (v : Tbl Sluice) : (d.setSluices v).waits = d.waits := rfl
@[simp] theorem Dev.setSluices_canal (d : Dev) (v : Tbl Sluice) : (d.setSluices v).canal = d.canal := rfl
@[simp] theorem Dev.setSluices_ctxs (d : Dev) (v : Tbl Sluice) : (d.setSluices v).ctxs = d.ctxs := rfl
@[simp] theorem Dev.setSluices_sched (d : Dev) (v : Tbl Sluice) : (d.setSluices v).sched = d.sched := rfl
@[simp] theorem Dev.setSluices_survey (d : Dev) (v : Tbl Sluice) : (d.setSluices v).survey = d.survey := rfl
@[simp] theorem Dev.setSluices_dists (d : Dev) (v : Tbl Sluice) : (d.setSluices v).dists = d.dists := rfl
@[simp] theorem Dev.setSluices_devs (d : Dev) (v : Tbl Sluice) : (d.setSluices v).devs = d.devs := rfl
@[simp] theorem Dev.setSluices_cxl (d : Dev) (v : Tbl Sluice) : (d.setSluices v).cxl = d.cxl := rfl
@[simp] theorem Dev.setSluices_cache (d : Dev) (v : Tbl Sluice) : (d.setSluices v).cache = d.cache := rfl
@[simp] theorem Dev.setSluices_lines (d : Dev) (v : Tbl Sluice) : (d.setSluices v).lines = d.lines := rfl
@[simp] theorem Dev.setSluices_mem (d : Dev) (v : Tbl Sluice) : (d.setSluices v).mem = d.mem := rfl
@[simp] theorem Dev.setSluices_bad (d : Dev) (v : Tbl Sluice) : (d.setSluices v).bad = d.bad := rfl
@[simp] theorem Dev.setSluices_memFaults (d : Dev) (v : Tbl Sluice) : (d.setSluices v).memFaults = d.memFaults := rfl
@[simp] theorem Dev.setSluices_cores (d : Dev) (v : Tbl Sluice) : (d.setSluices v).cores = d.cores := rfl
@[simp] theorem Dev.setSluices_fields (d : Dev) (v : Tbl Sluice) : (d.setSluices v).fields = d.fields := rfl
@[simp] theorem Dev.setSluices_saves (d : Dev) (v : Tbl Sluice) : (d.setSluices v).saves = d.saves := rfl
@[simp] theorem Dev.setSluices_startup (d : Dev) (v : Tbl Sluice) : (d.setSluices v).startup = d.startup := rfl
@[simp] theorem Dev.setSluices_units (d : Dev) (v : Tbl Sluice) : (d.setSluices v).units = d.units := rfl
@[simp] theorem Dev.setSluices_silt (d : Dev) (v : Tbl Sluice) : (d.setSluices v).silt = d.silt := rfl
@[simp] theorem Dev.setSluices_lkk (d : Dev) (v : Tbl Sluice) : (d.setSluices v).lkk = d.lkk := rfl
@[simp] theorem Dev.setSluices_flumes (d : Dev) (v : Tbl Sluice) : (d.setSluices v).flumes = d.flumes := rfl
@[simp] theorem Dev.setSluices_divs (d : Dev) (v : Tbl Sluice) : (d.setSluices v).divs = d.divs := rfl
@[simp] theorem Dev.setSluices_divPins (d : Dev) (v : Tbl Sluice) : (d.setSluices v).divPins = d.divPins := rfl
@[simp] theorem Dev.setSluices_claims (d : Dev) (v : Tbl Sluice) : (d.setSluices v).claims = d.claims := rfl
@[simp] theorem Dev.setSluices_steps (d : Dev) (v : Tbl Sluice) : (d.setSluices v).steps = d.steps := rfl
@[simp] theorem Dev.setSluices_parts (d : Dev) (v : Tbl Sluice) : (d.setSluices v).parts = d.parts := rfl
@[simp] theorem Dev.setSluices_cis (d : Dev) (v : Tbl Sluice) : (d.setSluices v).cis = d.cis := rfl
@[simp] theorem Dev.setSluices_gauges (d : Dev) (v : Tbl Sluice) : (d.setSluices v).gauges = d.gauges := rfl
@[simp] theorem Dev.setSluices_gaugeReports (d : Dev) (v : Tbl Sluice) : (d.setSluices v).gaugeReports = d.gaugeReports := rfl
@[simp] theorem Dev.setSluices_cfls (d : Dev) (v : Tbl Sluice) : (d.setSluices v).cfls = d.cfls := rfl
@[simp] theorem Dev.setSluices_cflElems (d : Dev) (v : Tbl Sluice) : (d.setSluices v).cflElems = d.cflElems := rfl
@[simp] theorem Dev.setSluices_sec (d : Dev) (v : Tbl Sluice) : (d.setSluices v).sec = d.sec := rfl
@[simp] theorem Dev.setSluices_power (d : Dev) (v : Tbl Sluice) : (d.setSluices v).power = d.power := rfl
@[simp] theorem Dev.setSluices_wakes (d : Dev) (v : Tbl Sluice) : (d.setSluices v).wakes = d.wakes := rfl
@[simp] theorem Dev.setSluices_serves (d : Dev) (v : Tbl Sluice) : (d.setSluices v).serves = d.serves := rfl
@[simp] theorem Dev.setSluices_tenants (d : Dev) (v : Tbl Sluice) : (d.setSluices v).tenants = d.tenants := rfl
@[simp] theorem Dev.setSluices_reqs (d : Dev) (v : Tbl Sluice) : (d.setSluices v).reqs = d.reqs := rfl
@[simp] theorem Dev.setSluices_nextReq (d : Dev) (v : Tbl Sluice) : (d.setSluices v).nextReq = d.nextReq := rfl
@[simp] theorem Dev.setSluices_ofts (d : Dev) (v : Tbl Sluice) : (d.setSluices v).ofts = d.ofts := rfl
@[simp] theorem Dev.setSluices_oftInsts (d : Dev) (v : Tbl Sluice) : (d.setSluices v).oftInsts = d.oftInsts := rfl
@[simp] theorem Dev.setSluices_oftTimes (d : Dev) (v : Tbl Sluice) : (d.setSluices v).oftTimes = d.oftTimes := rfl
@[simp] theorem Dev.setMsix_time (d : Dev) (v : Tbl MsixEnt) : (d.setMsix v).time = d.time := rfl
@[simp] theorem Dev.setMsix_out (d : Dev) (v : Tbl MsixEnt) : (d.setMsix v).out = d.out := rfl
@[simp] theorem Dev.setMsix_draws (d : Dev) (v : Tbl MsixEnt) : (d.setMsix v).draws = d.draws := rfl
@[simp] theorem Dev.setMsix_regs (d : Dev) (v : Tbl MsixEnt) : (d.setMsix v).regs = d.regs := rfl
@[simp] theorem Dev.setMsix_ports (d : Dev) (v : Tbl MsixEnt) : (d.setMsix v).ports = d.ports := rfl
@[simp] theorem Dev.setMsix_rings (d : Dev) (v : Tbl MsixEnt) : (d.setMsix v).rings = d.rings := rfl
@[simp] theorem Dev.setMsix_errs (d : Dev) (v : Tbl MsixEnt) : (d.setMsix v).errs = d.errs := rfl
@[simp] theorem Dev.setMsix_orders (d : Dev) (v : Tbl MsixEnt) : (d.setMsix v).orders = d.orders := rfl
@[simp] theorem Dev.setMsix_sluices (d : Dev) (v : Tbl MsixEnt) : (d.setMsix v).sluices = d.sluices := rfl
@[simp] theorem Dev.setMsix_msix (d : Dev) (v : Tbl MsixEnt) : (d.setMsix v).msix = v := rfl
@[simp] theorem Dev.setMsix_gates (d : Dev) (v : Tbl MsixEnt) : (d.setMsix v).gates = d.gates := rfl
@[simp] theorem Dev.setMsix_waits (d : Dev) (v : Tbl MsixEnt) : (d.setMsix v).waits = d.waits := rfl
@[simp] theorem Dev.setMsix_canal (d : Dev) (v : Tbl MsixEnt) : (d.setMsix v).canal = d.canal := rfl
@[simp] theorem Dev.setMsix_ctxs (d : Dev) (v : Tbl MsixEnt) : (d.setMsix v).ctxs = d.ctxs := rfl
@[simp] theorem Dev.setMsix_sched (d : Dev) (v : Tbl MsixEnt) : (d.setMsix v).sched = d.sched := rfl
@[simp] theorem Dev.setMsix_survey (d : Dev) (v : Tbl MsixEnt) : (d.setMsix v).survey = d.survey := rfl
@[simp] theorem Dev.setMsix_dists (d : Dev) (v : Tbl MsixEnt) : (d.setMsix v).dists = d.dists := rfl
@[simp] theorem Dev.setMsix_devs (d : Dev) (v : Tbl MsixEnt) : (d.setMsix v).devs = d.devs := rfl
@[simp] theorem Dev.setMsix_cxl (d : Dev) (v : Tbl MsixEnt) : (d.setMsix v).cxl = d.cxl := rfl
@[simp] theorem Dev.setMsix_cache (d : Dev) (v : Tbl MsixEnt) : (d.setMsix v).cache = d.cache := rfl
@[simp] theorem Dev.setMsix_lines (d : Dev) (v : Tbl MsixEnt) : (d.setMsix v).lines = d.lines := rfl
@[simp] theorem Dev.setMsix_mem (d : Dev) (v : Tbl MsixEnt) : (d.setMsix v).mem = d.mem := rfl
@[simp] theorem Dev.setMsix_bad (d : Dev) (v : Tbl MsixEnt) : (d.setMsix v).bad = d.bad := rfl
@[simp] theorem Dev.setMsix_memFaults (d : Dev) (v : Tbl MsixEnt) : (d.setMsix v).memFaults = d.memFaults := rfl
@[simp] theorem Dev.setMsix_cores (d : Dev) (v : Tbl MsixEnt) : (d.setMsix v).cores = d.cores := rfl
@[simp] theorem Dev.setMsix_fields (d : Dev) (v : Tbl MsixEnt) : (d.setMsix v).fields = d.fields := rfl
@[simp] theorem Dev.setMsix_saves (d : Dev) (v : Tbl MsixEnt) : (d.setMsix v).saves = d.saves := rfl
@[simp] theorem Dev.setMsix_startup (d : Dev) (v : Tbl MsixEnt) : (d.setMsix v).startup = d.startup := rfl
@[simp] theorem Dev.setMsix_units (d : Dev) (v : Tbl MsixEnt) : (d.setMsix v).units = d.units := rfl
@[simp] theorem Dev.setMsix_silt (d : Dev) (v : Tbl MsixEnt) : (d.setMsix v).silt = d.silt := rfl
@[simp] theorem Dev.setMsix_lkk (d : Dev) (v : Tbl MsixEnt) : (d.setMsix v).lkk = d.lkk := rfl
@[simp] theorem Dev.setMsix_flumes (d : Dev) (v : Tbl MsixEnt) : (d.setMsix v).flumes = d.flumes := rfl
@[simp] theorem Dev.setMsix_divs (d : Dev) (v : Tbl MsixEnt) : (d.setMsix v).divs = d.divs := rfl
@[simp] theorem Dev.setMsix_divPins (d : Dev) (v : Tbl MsixEnt) : (d.setMsix v).divPins = d.divPins := rfl
@[simp] theorem Dev.setMsix_claims (d : Dev) (v : Tbl MsixEnt) : (d.setMsix v).claims = d.claims := rfl
@[simp] theorem Dev.setMsix_steps (d : Dev) (v : Tbl MsixEnt) : (d.setMsix v).steps = d.steps := rfl
@[simp] theorem Dev.setMsix_parts (d : Dev) (v : Tbl MsixEnt) : (d.setMsix v).parts = d.parts := rfl
@[simp] theorem Dev.setMsix_cis (d : Dev) (v : Tbl MsixEnt) : (d.setMsix v).cis = d.cis := rfl
@[simp] theorem Dev.setMsix_gauges (d : Dev) (v : Tbl MsixEnt) : (d.setMsix v).gauges = d.gauges := rfl
@[simp] theorem Dev.setMsix_gaugeReports (d : Dev) (v : Tbl MsixEnt) : (d.setMsix v).gaugeReports = d.gaugeReports := rfl
@[simp] theorem Dev.setMsix_cfls (d : Dev) (v : Tbl MsixEnt) : (d.setMsix v).cfls = d.cfls := rfl
@[simp] theorem Dev.setMsix_cflElems (d : Dev) (v : Tbl MsixEnt) : (d.setMsix v).cflElems = d.cflElems := rfl
@[simp] theorem Dev.setMsix_sec (d : Dev) (v : Tbl MsixEnt) : (d.setMsix v).sec = d.sec := rfl
@[simp] theorem Dev.setMsix_power (d : Dev) (v : Tbl MsixEnt) : (d.setMsix v).power = d.power := rfl
@[simp] theorem Dev.setMsix_wakes (d : Dev) (v : Tbl MsixEnt) : (d.setMsix v).wakes = d.wakes := rfl
@[simp] theorem Dev.setMsix_serves (d : Dev) (v : Tbl MsixEnt) : (d.setMsix v).serves = d.serves := rfl
@[simp] theorem Dev.setMsix_tenants (d : Dev) (v : Tbl MsixEnt) : (d.setMsix v).tenants = d.tenants := rfl
@[simp] theorem Dev.setMsix_reqs (d : Dev) (v : Tbl MsixEnt) : (d.setMsix v).reqs = d.reqs := rfl
@[simp] theorem Dev.setMsix_nextReq (d : Dev) (v : Tbl MsixEnt) : (d.setMsix v).nextReq = d.nextReq := rfl
@[simp] theorem Dev.setMsix_ofts (d : Dev) (v : Tbl MsixEnt) : (d.setMsix v).ofts = d.ofts := rfl
@[simp] theorem Dev.setMsix_oftInsts (d : Dev) (v : Tbl MsixEnt) : (d.setMsix v).oftInsts = d.oftInsts := rfl
@[simp] theorem Dev.setMsix_oftTimes (d : Dev) (v : Tbl MsixEnt) : (d.setMsix v).oftTimes = d.oftTimes := rfl
@[simp] theorem Dev.setGates_time (d : Dev) (v : Tbl Gate) : (d.setGates v).time = d.time := rfl
@[simp] theorem Dev.setGates_out (d : Dev) (v : Tbl Gate) : (d.setGates v).out = d.out := rfl
@[simp] theorem Dev.setGates_draws (d : Dev) (v : Tbl Gate) : (d.setGates v).draws = d.draws := rfl
@[simp] theorem Dev.setGates_regs (d : Dev) (v : Tbl Gate) : (d.setGates v).regs = d.regs := rfl
@[simp] theorem Dev.setGates_ports (d : Dev) (v : Tbl Gate) : (d.setGates v).ports = d.ports := rfl
@[simp] theorem Dev.setGates_rings (d : Dev) (v : Tbl Gate) : (d.setGates v).rings = d.rings := rfl
@[simp] theorem Dev.setGates_errs (d : Dev) (v : Tbl Gate) : (d.setGates v).errs = d.errs := rfl
@[simp] theorem Dev.setGates_orders (d : Dev) (v : Tbl Gate) : (d.setGates v).orders = d.orders := rfl
@[simp] theorem Dev.setGates_sluices (d : Dev) (v : Tbl Gate) : (d.setGates v).sluices = d.sluices := rfl
@[simp] theorem Dev.setGates_msix (d : Dev) (v : Tbl Gate) : (d.setGates v).msix = d.msix := rfl
@[simp] theorem Dev.setGates_gates (d : Dev) (v : Tbl Gate) : (d.setGates v).gates = v := rfl
@[simp] theorem Dev.setGates_waits (d : Dev) (v : Tbl Gate) : (d.setGates v).waits = d.waits := rfl
@[simp] theorem Dev.setGates_canal (d : Dev) (v : Tbl Gate) : (d.setGates v).canal = d.canal := rfl
@[simp] theorem Dev.setGates_ctxs (d : Dev) (v : Tbl Gate) : (d.setGates v).ctxs = d.ctxs := rfl
@[simp] theorem Dev.setGates_sched (d : Dev) (v : Tbl Gate) : (d.setGates v).sched = d.sched := rfl
@[simp] theorem Dev.setGates_survey (d : Dev) (v : Tbl Gate) : (d.setGates v).survey = d.survey := rfl
@[simp] theorem Dev.setGates_dists (d : Dev) (v : Tbl Gate) : (d.setGates v).dists = d.dists := rfl
@[simp] theorem Dev.setGates_devs (d : Dev) (v : Tbl Gate) : (d.setGates v).devs = d.devs := rfl
@[simp] theorem Dev.setGates_cxl (d : Dev) (v : Tbl Gate) : (d.setGates v).cxl = d.cxl := rfl
@[simp] theorem Dev.setGates_cache (d : Dev) (v : Tbl Gate) : (d.setGates v).cache = d.cache := rfl
@[simp] theorem Dev.setGates_lines (d : Dev) (v : Tbl Gate) : (d.setGates v).lines = d.lines := rfl
@[simp] theorem Dev.setGates_mem (d : Dev) (v : Tbl Gate) : (d.setGates v).mem = d.mem := rfl
@[simp] theorem Dev.setGates_bad (d : Dev) (v : Tbl Gate) : (d.setGates v).bad = d.bad := rfl
@[simp] theorem Dev.setGates_memFaults (d : Dev) (v : Tbl Gate) : (d.setGates v).memFaults = d.memFaults := rfl
@[simp] theorem Dev.setGates_cores (d : Dev) (v : Tbl Gate) : (d.setGates v).cores = d.cores := rfl
@[simp] theorem Dev.setGates_fields (d : Dev) (v : Tbl Gate) : (d.setGates v).fields = d.fields := rfl
@[simp] theorem Dev.setGates_saves (d : Dev) (v : Tbl Gate) : (d.setGates v).saves = d.saves := rfl
@[simp] theorem Dev.setGates_startup (d : Dev) (v : Tbl Gate) : (d.setGates v).startup = d.startup := rfl
@[simp] theorem Dev.setGates_units (d : Dev) (v : Tbl Gate) : (d.setGates v).units = d.units := rfl
@[simp] theorem Dev.setGates_silt (d : Dev) (v : Tbl Gate) : (d.setGates v).silt = d.silt := rfl
@[simp] theorem Dev.setGates_lkk (d : Dev) (v : Tbl Gate) : (d.setGates v).lkk = d.lkk := rfl
@[simp] theorem Dev.setGates_flumes (d : Dev) (v : Tbl Gate) : (d.setGates v).flumes = d.flumes := rfl
@[simp] theorem Dev.setGates_divs (d : Dev) (v : Tbl Gate) : (d.setGates v).divs = d.divs := rfl
@[simp] theorem Dev.setGates_divPins (d : Dev) (v : Tbl Gate) : (d.setGates v).divPins = d.divPins := rfl
@[simp] theorem Dev.setGates_claims (d : Dev) (v : Tbl Gate) : (d.setGates v).claims = d.claims := rfl
@[simp] theorem Dev.setGates_steps (d : Dev) (v : Tbl Gate) : (d.setGates v).steps = d.steps := rfl
@[simp] theorem Dev.setGates_parts (d : Dev) (v : Tbl Gate) : (d.setGates v).parts = d.parts := rfl
@[simp] theorem Dev.setGates_cis (d : Dev) (v : Tbl Gate) : (d.setGates v).cis = d.cis := rfl
@[simp] theorem Dev.setGates_gauges (d : Dev) (v : Tbl Gate) : (d.setGates v).gauges = d.gauges := rfl
@[simp] theorem Dev.setGates_gaugeReports (d : Dev) (v : Tbl Gate) : (d.setGates v).gaugeReports = d.gaugeReports := rfl
@[simp] theorem Dev.setGates_cfls (d : Dev) (v : Tbl Gate) : (d.setGates v).cfls = d.cfls := rfl
@[simp] theorem Dev.setGates_cflElems (d : Dev) (v : Tbl Gate) : (d.setGates v).cflElems = d.cflElems := rfl
@[simp] theorem Dev.setGates_sec (d : Dev) (v : Tbl Gate) : (d.setGates v).sec = d.sec := rfl
@[simp] theorem Dev.setGates_power (d : Dev) (v : Tbl Gate) : (d.setGates v).power = d.power := rfl
@[simp] theorem Dev.setGates_wakes (d : Dev) (v : Tbl Gate) : (d.setGates v).wakes = d.wakes := rfl
@[simp] theorem Dev.setGates_serves (d : Dev) (v : Tbl Gate) : (d.setGates v).serves = d.serves := rfl
@[simp] theorem Dev.setGates_tenants (d : Dev) (v : Tbl Gate) : (d.setGates v).tenants = d.tenants := rfl
@[simp] theorem Dev.setGates_reqs (d : Dev) (v : Tbl Gate) : (d.setGates v).reqs = d.reqs := rfl
@[simp] theorem Dev.setGates_nextReq (d : Dev) (v : Tbl Gate) : (d.setGates v).nextReq = d.nextReq := rfl
@[simp] theorem Dev.setGates_ofts (d : Dev) (v : Tbl Gate) : (d.setGates v).ofts = d.ofts := rfl
@[simp] theorem Dev.setGates_oftInsts (d : Dev) (v : Tbl Gate) : (d.setGates v).oftInsts = d.oftInsts := rfl
@[simp] theorem Dev.setGates_oftTimes (d : Dev) (v : Tbl Gate) : (d.setGates v).oftTimes = d.oftTimes := rfl
@[simp] theorem Dev.setWaits_time (d : Dev) (v : List GateWait) : (d.setWaits v).time = d.time := rfl
@[simp] theorem Dev.setWaits_out (d : Dev) (v : List GateWait) : (d.setWaits v).out = d.out := rfl
@[simp] theorem Dev.setWaits_draws (d : Dev) (v : List GateWait) : (d.setWaits v).draws = d.draws := rfl
@[simp] theorem Dev.setWaits_regs (d : Dev) (v : List GateWait) : (d.setWaits v).regs = d.regs := rfl
@[simp] theorem Dev.setWaits_ports (d : Dev) (v : List GateWait) : (d.setWaits v).ports = d.ports := rfl
@[simp] theorem Dev.setWaits_rings (d : Dev) (v : List GateWait) : (d.setWaits v).rings = d.rings := rfl
@[simp] theorem Dev.setWaits_errs (d : Dev) (v : List GateWait) : (d.setWaits v).errs = d.errs := rfl
@[simp] theorem Dev.setWaits_orders (d : Dev) (v : List GateWait) : (d.setWaits v).orders = d.orders := rfl
@[simp] theorem Dev.setWaits_sluices (d : Dev) (v : List GateWait) : (d.setWaits v).sluices = d.sluices := rfl
@[simp] theorem Dev.setWaits_msix (d : Dev) (v : List GateWait) : (d.setWaits v).msix = d.msix := rfl
@[simp] theorem Dev.setWaits_gates (d : Dev) (v : List GateWait) : (d.setWaits v).gates = d.gates := rfl
@[simp] theorem Dev.setWaits_waits (d : Dev) (v : List GateWait) : (d.setWaits v).waits = v := rfl
@[simp] theorem Dev.setWaits_canal (d : Dev) (v : List GateWait) : (d.setWaits v).canal = d.canal := rfl
@[simp] theorem Dev.setWaits_ctxs (d : Dev) (v : List GateWait) : (d.setWaits v).ctxs = d.ctxs := rfl
@[simp] theorem Dev.setWaits_sched (d : Dev) (v : List GateWait) : (d.setWaits v).sched = d.sched := rfl
@[simp] theorem Dev.setWaits_survey (d : Dev) (v : List GateWait) : (d.setWaits v).survey = d.survey := rfl
@[simp] theorem Dev.setWaits_dists (d : Dev) (v : List GateWait) : (d.setWaits v).dists = d.dists := rfl
@[simp] theorem Dev.setWaits_devs (d : Dev) (v : List GateWait) : (d.setWaits v).devs = d.devs := rfl
@[simp] theorem Dev.setWaits_cxl (d : Dev) (v : List GateWait) : (d.setWaits v).cxl = d.cxl := rfl
@[simp] theorem Dev.setWaits_cache (d : Dev) (v : List GateWait) : (d.setWaits v).cache = d.cache := rfl
@[simp] theorem Dev.setWaits_lines (d : Dev) (v : List GateWait) : (d.setWaits v).lines = d.lines := rfl
@[simp] theorem Dev.setWaits_mem (d : Dev) (v : List GateWait) : (d.setWaits v).mem = d.mem := rfl
@[simp] theorem Dev.setWaits_bad (d : Dev) (v : List GateWait) : (d.setWaits v).bad = d.bad := rfl
@[simp] theorem Dev.setWaits_memFaults (d : Dev) (v : List GateWait) : (d.setWaits v).memFaults = d.memFaults := rfl
@[simp] theorem Dev.setWaits_cores (d : Dev) (v : List GateWait) : (d.setWaits v).cores = d.cores := rfl
@[simp] theorem Dev.setWaits_fields (d : Dev) (v : List GateWait) : (d.setWaits v).fields = d.fields := rfl
@[simp] theorem Dev.setWaits_saves (d : Dev) (v : List GateWait) : (d.setWaits v).saves = d.saves := rfl
@[simp] theorem Dev.setWaits_startup (d : Dev) (v : List GateWait) : (d.setWaits v).startup = d.startup := rfl
@[simp] theorem Dev.setWaits_units (d : Dev) (v : List GateWait) : (d.setWaits v).units = d.units := rfl
@[simp] theorem Dev.setWaits_silt (d : Dev) (v : List GateWait) : (d.setWaits v).silt = d.silt := rfl
@[simp] theorem Dev.setWaits_lkk (d : Dev) (v : List GateWait) : (d.setWaits v).lkk = d.lkk := rfl
@[simp] theorem Dev.setWaits_flumes (d : Dev) (v : List GateWait) : (d.setWaits v).flumes = d.flumes := rfl
@[simp] theorem Dev.setWaits_divs (d : Dev) (v : List GateWait) : (d.setWaits v).divs = d.divs := rfl
@[simp] theorem Dev.setWaits_divPins (d : Dev) (v : List GateWait) : (d.setWaits v).divPins = d.divPins := rfl
@[simp] theorem Dev.setWaits_claims (d : Dev) (v : List GateWait) : (d.setWaits v).claims = d.claims := rfl
@[simp] theorem Dev.setWaits_steps (d : Dev) (v : List GateWait) : (d.setWaits v).steps = d.steps := rfl
@[simp] theorem Dev.setWaits_parts (d : Dev) (v : List GateWait) : (d.setWaits v).parts = d.parts := rfl
@[simp] theorem Dev.setWaits_cis (d : Dev) (v : List GateWait) : (d.setWaits v).cis = d.cis := rfl
@[simp] theorem Dev.setWaits_gauges (d : Dev) (v : List GateWait) : (d.setWaits v).gauges = d.gauges := rfl
@[simp] theorem Dev.setWaits_gaugeReports (d : Dev) (v : List GateWait) : (d.setWaits v).gaugeReports = d.gaugeReports := rfl
@[simp] theorem Dev.setWaits_cfls (d : Dev) (v : List GateWait) : (d.setWaits v).cfls = d.cfls := rfl
@[simp] theorem Dev.setWaits_cflElems (d : Dev) (v : List GateWait) : (d.setWaits v).cflElems = d.cflElems := rfl
@[simp] theorem Dev.setWaits_sec (d : Dev) (v : List GateWait) : (d.setWaits v).sec = d.sec := rfl
@[simp] theorem Dev.setWaits_power (d : Dev) (v : List GateWait) : (d.setWaits v).power = d.power := rfl
@[simp] theorem Dev.setWaits_wakes (d : Dev) (v : List GateWait) : (d.setWaits v).wakes = d.wakes := rfl
@[simp] theorem Dev.setWaits_serves (d : Dev) (v : List GateWait) : (d.setWaits v).serves = d.serves := rfl
@[simp] theorem Dev.setWaits_tenants (d : Dev) (v : List GateWait) : (d.setWaits v).tenants = d.tenants := rfl
@[simp] theorem Dev.setWaits_reqs (d : Dev) (v : List GateWait) : (d.setWaits v).reqs = d.reqs := rfl
@[simp] theorem Dev.setWaits_nextReq (d : Dev) (v : List GateWait) : (d.setWaits v).nextReq = d.nextReq := rfl
@[simp] theorem Dev.setWaits_ofts (d : Dev) (v : List GateWait) : (d.setWaits v).ofts = d.ofts := rfl
@[simp] theorem Dev.setWaits_oftInsts (d : Dev) (v : List GateWait) : (d.setWaits v).oftInsts = d.oftInsts := rfl
@[simp] theorem Dev.setWaits_oftTimes (d : Dev) (v : List GateWait) : (d.setWaits v).oftTimes = d.oftTimes := rfl
@[simp] theorem Dev.setCanal_time (d : Dev) (v : Canal) : (d.setCanal v).time = d.time := rfl
@[simp] theorem Dev.setCanal_out (d : Dev) (v : Canal) : (d.setCanal v).out = d.out := rfl
@[simp] theorem Dev.setCanal_draws (d : Dev) (v : Canal) : (d.setCanal v).draws = d.draws := rfl
@[simp] theorem Dev.setCanal_regs (d : Dev) (v : Canal) : (d.setCanal v).regs = d.regs := rfl
@[simp] theorem Dev.setCanal_ports (d : Dev) (v : Canal) : (d.setCanal v).ports = d.ports := rfl
@[simp] theorem Dev.setCanal_rings (d : Dev) (v : Canal) : (d.setCanal v).rings = d.rings := rfl
@[simp] theorem Dev.setCanal_errs (d : Dev) (v : Canal) : (d.setCanal v).errs = d.errs := rfl
@[simp] theorem Dev.setCanal_orders (d : Dev) (v : Canal) : (d.setCanal v).orders = d.orders := rfl
@[simp] theorem Dev.setCanal_sluices (d : Dev) (v : Canal) : (d.setCanal v).sluices = d.sluices := rfl
@[simp] theorem Dev.setCanal_msix (d : Dev) (v : Canal) : (d.setCanal v).msix = d.msix := rfl
@[simp] theorem Dev.setCanal_gates (d : Dev) (v : Canal) : (d.setCanal v).gates = d.gates := rfl
@[simp] theorem Dev.setCanal_waits (d : Dev) (v : Canal) : (d.setCanal v).waits = d.waits := rfl
@[simp] theorem Dev.setCanal_canal (d : Dev) (v : Canal) : (d.setCanal v).canal = v := rfl
@[simp] theorem Dev.setCanal_ctxs (d : Dev) (v : Canal) : (d.setCanal v).ctxs = d.ctxs := rfl
@[simp] theorem Dev.setCanal_sched (d : Dev) (v : Canal) : (d.setCanal v).sched = d.sched := rfl
@[simp] theorem Dev.setCanal_survey (d : Dev) (v : Canal) : (d.setCanal v).survey = d.survey := rfl
@[simp] theorem Dev.setCanal_dists (d : Dev) (v : Canal) : (d.setCanal v).dists = d.dists := rfl
@[simp] theorem Dev.setCanal_devs (d : Dev) (v : Canal) : (d.setCanal v).devs = d.devs := rfl
@[simp] theorem Dev.setCanal_cxl (d : Dev) (v : Canal) : (d.setCanal v).cxl = d.cxl := rfl
@[simp] theorem Dev.setCanal_cache (d : Dev) (v : Canal) : (d.setCanal v).cache = d.cache := rfl
@[simp] theorem Dev.setCanal_lines (d : Dev) (v : Canal) : (d.setCanal v).lines = d.lines := rfl
@[simp] theorem Dev.setCanal_mem (d : Dev) (v : Canal) : (d.setCanal v).mem = d.mem := rfl
@[simp] theorem Dev.setCanal_bad (d : Dev) (v : Canal) : (d.setCanal v).bad = d.bad := rfl
@[simp] theorem Dev.setCanal_memFaults (d : Dev) (v : Canal) : (d.setCanal v).memFaults = d.memFaults := rfl
@[simp] theorem Dev.setCanal_cores (d : Dev) (v : Canal) : (d.setCanal v).cores = d.cores := rfl
@[simp] theorem Dev.setCanal_fields (d : Dev) (v : Canal) : (d.setCanal v).fields = d.fields := rfl
@[simp] theorem Dev.setCanal_saves (d : Dev) (v : Canal) : (d.setCanal v).saves = d.saves := rfl
@[simp] theorem Dev.setCanal_startup (d : Dev) (v : Canal) : (d.setCanal v).startup = d.startup := rfl
@[simp] theorem Dev.setCanal_units (d : Dev) (v : Canal) : (d.setCanal v).units = d.units := rfl
@[simp] theorem Dev.setCanal_silt (d : Dev) (v : Canal) : (d.setCanal v).silt = d.silt := rfl
@[simp] theorem Dev.setCanal_lkk (d : Dev) (v : Canal) : (d.setCanal v).lkk = d.lkk := rfl
@[simp] theorem Dev.setCanal_flumes (d : Dev) (v : Canal) : (d.setCanal v).flumes = d.flumes := rfl
@[simp] theorem Dev.setCanal_divs (d : Dev) (v : Canal) : (d.setCanal v).divs = d.divs := rfl
@[simp] theorem Dev.setCanal_divPins (d : Dev) (v : Canal) : (d.setCanal v).divPins = d.divPins := rfl
@[simp] theorem Dev.setCanal_claims (d : Dev) (v : Canal) : (d.setCanal v).claims = d.claims := rfl
@[simp] theorem Dev.setCanal_steps (d : Dev) (v : Canal) : (d.setCanal v).steps = d.steps := rfl
@[simp] theorem Dev.setCanal_parts (d : Dev) (v : Canal) : (d.setCanal v).parts = d.parts := rfl
@[simp] theorem Dev.setCanal_cis (d : Dev) (v : Canal) : (d.setCanal v).cis = d.cis := rfl
@[simp] theorem Dev.setCanal_gauges (d : Dev) (v : Canal) : (d.setCanal v).gauges = d.gauges := rfl
@[simp] theorem Dev.setCanal_gaugeReports (d : Dev) (v : Canal) : (d.setCanal v).gaugeReports = d.gaugeReports := rfl
@[simp] theorem Dev.setCanal_cfls (d : Dev) (v : Canal) : (d.setCanal v).cfls = d.cfls := rfl
@[simp] theorem Dev.setCanal_cflElems (d : Dev) (v : Canal) : (d.setCanal v).cflElems = d.cflElems := rfl
@[simp] theorem Dev.setCanal_sec (d : Dev) (v : Canal) : (d.setCanal v).sec = d.sec := rfl
@[simp] theorem Dev.setCanal_power (d : Dev) (v : Canal) : (d.setCanal v).power = d.power := rfl
@[simp] theorem Dev.setCanal_wakes (d : Dev) (v : Canal) : (d.setCanal v).wakes = d.wakes := rfl
@[simp] theorem Dev.setCanal_serves (d : Dev) (v : Canal) : (d.setCanal v).serves = d.serves := rfl
@[simp] theorem Dev.setCanal_tenants (d : Dev) (v : Canal) : (d.setCanal v).tenants = d.tenants := rfl
@[simp] theorem Dev.setCanal_reqs (d : Dev) (v : Canal) : (d.setCanal v).reqs = d.reqs := rfl
@[simp] theorem Dev.setCanal_nextReq (d : Dev) (v : Canal) : (d.setCanal v).nextReq = d.nextReq := rfl
@[simp] theorem Dev.setCanal_ofts (d : Dev) (v : Canal) : (d.setCanal v).ofts = d.ofts := rfl
@[simp] theorem Dev.setCanal_oftInsts (d : Dev) (v : Canal) : (d.setCanal v).oftInsts = d.oftInsts := rfl
@[simp] theorem Dev.setCanal_oftTimes (d : Dev) (v : Canal) : (d.setCanal v).oftTimes = d.oftTimes := rfl
@[simp] theorem Dev.setCtxs_time (d : Dev) (v : Tbl Ctx) : (d.setCtxs v).time = d.time := rfl
@[simp] theorem Dev.setCtxs_out (d : Dev) (v : Tbl Ctx) : (d.setCtxs v).out = d.out := rfl
@[simp] theorem Dev.setCtxs_draws (d : Dev) (v : Tbl Ctx) : (d.setCtxs v).draws = d.draws := rfl
@[simp] theorem Dev.setCtxs_regs (d : Dev) (v : Tbl Ctx) : (d.setCtxs v).regs = d.regs := rfl
@[simp] theorem Dev.setCtxs_ports (d : Dev) (v : Tbl Ctx) : (d.setCtxs v).ports = d.ports := rfl
@[simp] theorem Dev.setCtxs_rings (d : Dev) (v : Tbl Ctx) : (d.setCtxs v).rings = d.rings := rfl
@[simp] theorem Dev.setCtxs_errs (d : Dev) (v : Tbl Ctx) : (d.setCtxs v).errs = d.errs := rfl
@[simp] theorem Dev.setCtxs_orders (d : Dev) (v : Tbl Ctx) : (d.setCtxs v).orders = d.orders := rfl
@[simp] theorem Dev.setCtxs_sluices (d : Dev) (v : Tbl Ctx) : (d.setCtxs v).sluices = d.sluices := rfl
@[simp] theorem Dev.setCtxs_msix (d : Dev) (v : Tbl Ctx) : (d.setCtxs v).msix = d.msix := rfl
@[simp] theorem Dev.setCtxs_gates (d : Dev) (v : Tbl Ctx) : (d.setCtxs v).gates = d.gates := rfl
@[simp] theorem Dev.setCtxs_waits (d : Dev) (v : Tbl Ctx) : (d.setCtxs v).waits = d.waits := rfl
@[simp] theorem Dev.setCtxs_canal (d : Dev) (v : Tbl Ctx) : (d.setCtxs v).canal = d.canal := rfl
@[simp] theorem Dev.setCtxs_ctxs (d : Dev) (v : Tbl Ctx) : (d.setCtxs v).ctxs = v := rfl
@[simp] theorem Dev.setCtxs_sched (d : Dev) (v : Tbl Ctx) : (d.setCtxs v).sched = d.sched := rfl
@[simp] theorem Dev.setCtxs_survey (d : Dev) (v : Tbl Ctx) : (d.setCtxs v).survey = d.survey := rfl
@[simp] theorem Dev.setCtxs_dists (d : Dev) (v : Tbl Ctx) : (d.setCtxs v).dists = d.dists := rfl
@[simp] theorem Dev.setCtxs_devs (d : Dev) (v : Tbl Ctx) : (d.setCtxs v).devs = d.devs := rfl
@[simp] theorem Dev.setCtxs_cxl (d : Dev) (v : Tbl Ctx) : (d.setCtxs v).cxl = d.cxl := rfl
@[simp] theorem Dev.setCtxs_cache (d : Dev) (v : Tbl Ctx) : (d.setCtxs v).cache = d.cache := rfl
@[simp] theorem Dev.setCtxs_lines (d : Dev) (v : Tbl Ctx) : (d.setCtxs v).lines = d.lines := rfl
@[simp] theorem Dev.setCtxs_mem (d : Dev) (v : Tbl Ctx) : (d.setCtxs v).mem = d.mem := rfl
@[simp] theorem Dev.setCtxs_bad (d : Dev) (v : Tbl Ctx) : (d.setCtxs v).bad = d.bad := rfl
@[simp] theorem Dev.setCtxs_memFaults (d : Dev) (v : Tbl Ctx) : (d.setCtxs v).memFaults = d.memFaults := rfl
@[simp] theorem Dev.setCtxs_cores (d : Dev) (v : Tbl Ctx) : (d.setCtxs v).cores = d.cores := rfl
@[simp] theorem Dev.setCtxs_fields (d : Dev) (v : Tbl Ctx) : (d.setCtxs v).fields = d.fields := rfl
@[simp] theorem Dev.setCtxs_saves (d : Dev) (v : Tbl Ctx) : (d.setCtxs v).saves = d.saves := rfl
@[simp] theorem Dev.setCtxs_startup (d : Dev) (v : Tbl Ctx) : (d.setCtxs v).startup = d.startup := rfl
@[simp] theorem Dev.setCtxs_units (d : Dev) (v : Tbl Ctx) : (d.setCtxs v).units = d.units := rfl
@[simp] theorem Dev.setCtxs_silt (d : Dev) (v : Tbl Ctx) : (d.setCtxs v).silt = d.silt := rfl
@[simp] theorem Dev.setCtxs_lkk (d : Dev) (v : Tbl Ctx) : (d.setCtxs v).lkk = d.lkk := rfl
@[simp] theorem Dev.setCtxs_flumes (d : Dev) (v : Tbl Ctx) : (d.setCtxs v).flumes = d.flumes := rfl
@[simp] theorem Dev.setCtxs_divs (d : Dev) (v : Tbl Ctx) : (d.setCtxs v).divs = d.divs := rfl
@[simp] theorem Dev.setCtxs_divPins (d : Dev) (v : Tbl Ctx) : (d.setCtxs v).divPins = d.divPins := rfl
@[simp] theorem Dev.setCtxs_claims (d : Dev) (v : Tbl Ctx) : (d.setCtxs v).claims = d.claims := rfl
@[simp] theorem Dev.setCtxs_steps (d : Dev) (v : Tbl Ctx) : (d.setCtxs v).steps = d.steps := rfl
@[simp] theorem Dev.setCtxs_parts (d : Dev) (v : Tbl Ctx) : (d.setCtxs v).parts = d.parts := rfl
@[simp] theorem Dev.setCtxs_cis (d : Dev) (v : Tbl Ctx) : (d.setCtxs v).cis = d.cis := rfl
@[simp] theorem Dev.setCtxs_gauges (d : Dev) (v : Tbl Ctx) : (d.setCtxs v).gauges = d.gauges := rfl
@[simp] theorem Dev.setCtxs_gaugeReports (d : Dev) (v : Tbl Ctx) : (d.setCtxs v).gaugeReports = d.gaugeReports := rfl
@[simp] theorem Dev.setCtxs_cfls (d : Dev) (v : Tbl Ctx) : (d.setCtxs v).cfls = d.cfls := rfl
@[simp] theorem Dev.setCtxs_cflElems (d : Dev) (v : Tbl Ctx) : (d.setCtxs v).cflElems = d.cflElems := rfl
@[simp] theorem Dev.setCtxs_sec (d : Dev) (v : Tbl Ctx) : (d.setCtxs v).sec = d.sec := rfl
@[simp] theorem Dev.setCtxs_power (d : Dev) (v : Tbl Ctx) : (d.setCtxs v).power = d.power := rfl
@[simp] theorem Dev.setCtxs_wakes (d : Dev) (v : Tbl Ctx) : (d.setCtxs v).wakes = d.wakes := rfl
@[simp] theorem Dev.setCtxs_serves (d : Dev) (v : Tbl Ctx) : (d.setCtxs v).serves = d.serves := rfl
@[simp] theorem Dev.setCtxs_tenants (d : Dev) (v : Tbl Ctx) : (d.setCtxs v).tenants = d.tenants := rfl
@[simp] theorem Dev.setCtxs_reqs (d : Dev) (v : Tbl Ctx) : (d.setCtxs v).reqs = d.reqs := rfl
@[simp] theorem Dev.setCtxs_nextReq (d : Dev) (v : Tbl Ctx) : (d.setCtxs v).nextReq = d.nextReq := rfl
@[simp] theorem Dev.setCtxs_ofts (d : Dev) (v : Tbl Ctx) : (d.setCtxs v).ofts = d.ofts := rfl
@[simp] theorem Dev.setCtxs_oftInsts (d : Dev) (v : Tbl Ctx) : (d.setCtxs v).oftInsts = d.oftInsts := rfl
@[simp] theorem Dev.setCtxs_oftTimes (d : Dev) (v : Tbl Ctx) : (d.setCtxs v).oftTimes = d.oftTimes := rfl
@[simp] theorem Dev.setSched_time (d : Dev) (v : Sched) : (d.setSched v).time = d.time := rfl
@[simp] theorem Dev.setSched_out (d : Dev) (v : Sched) : (d.setSched v).out = d.out := rfl
@[simp] theorem Dev.setSched_draws (d : Dev) (v : Sched) : (d.setSched v).draws = d.draws := rfl
@[simp] theorem Dev.setSched_regs (d : Dev) (v : Sched) : (d.setSched v).regs = d.regs := rfl
@[simp] theorem Dev.setSched_ports (d : Dev) (v : Sched) : (d.setSched v).ports = d.ports := rfl
@[simp] theorem Dev.setSched_rings (d : Dev) (v : Sched) : (d.setSched v).rings = d.rings := rfl
@[simp] theorem Dev.setSched_errs (d : Dev) (v : Sched) : (d.setSched v).errs = d.errs := rfl
@[simp] theorem Dev.setSched_orders (d : Dev) (v : Sched) : (d.setSched v).orders = d.orders := rfl
@[simp] theorem Dev.setSched_sluices (d : Dev) (v : Sched) : (d.setSched v).sluices = d.sluices := rfl
@[simp] theorem Dev.setSched_msix (d : Dev) (v : Sched) : (d.setSched v).msix = d.msix := rfl
@[simp] theorem Dev.setSched_gates (d : Dev) (v : Sched) : (d.setSched v).gates = d.gates := rfl
@[simp] theorem Dev.setSched_waits (d : Dev) (v : Sched) : (d.setSched v).waits = d.waits := rfl
@[simp] theorem Dev.setSched_canal (d : Dev) (v : Sched) : (d.setSched v).canal = d.canal := rfl
@[simp] theorem Dev.setSched_ctxs (d : Dev) (v : Sched) : (d.setSched v).ctxs = d.ctxs := rfl
@[simp] theorem Dev.setSched_sched (d : Dev) (v : Sched) : (d.setSched v).sched = v := rfl
@[simp] theorem Dev.setSched_survey (d : Dev) (v : Sched) : (d.setSched v).survey = d.survey := rfl
@[simp] theorem Dev.setSched_dists (d : Dev) (v : Sched) : (d.setSched v).dists = d.dists := rfl
@[simp] theorem Dev.setSched_devs (d : Dev) (v : Sched) : (d.setSched v).devs = d.devs := rfl
@[simp] theorem Dev.setSched_cxl (d : Dev) (v : Sched) : (d.setSched v).cxl = d.cxl := rfl
@[simp] theorem Dev.setSched_cache (d : Dev) (v : Sched) : (d.setSched v).cache = d.cache := rfl
@[simp] theorem Dev.setSched_lines (d : Dev) (v : Sched) : (d.setSched v).lines = d.lines := rfl
@[simp] theorem Dev.setSched_mem (d : Dev) (v : Sched) : (d.setSched v).mem = d.mem := rfl
@[simp] theorem Dev.setSched_bad (d : Dev) (v : Sched) : (d.setSched v).bad = d.bad := rfl
@[simp] theorem Dev.setSched_memFaults (d : Dev) (v : Sched) : (d.setSched v).memFaults = d.memFaults := rfl
@[simp] theorem Dev.setSched_cores (d : Dev) (v : Sched) : (d.setSched v).cores = d.cores := rfl
@[simp] theorem Dev.setSched_fields (d : Dev) (v : Sched) : (d.setSched v).fields = d.fields := rfl
@[simp] theorem Dev.setSched_saves (d : Dev) (v : Sched) : (d.setSched v).saves = d.saves := rfl
@[simp] theorem Dev.setSched_startup (d : Dev) (v : Sched) : (d.setSched v).startup = d.startup := rfl
@[simp] theorem Dev.setSched_units (d : Dev) (v : Sched) : (d.setSched v).units = d.units := rfl
@[simp] theorem Dev.setSched_silt (d : Dev) (v : Sched) : (d.setSched v).silt = d.silt := rfl
@[simp] theorem Dev.setSched_lkk (d : Dev) (v : Sched) : (d.setSched v).lkk = d.lkk := rfl
@[simp] theorem Dev.setSched_flumes (d : Dev) (v : Sched) : (d.setSched v).flumes = d.flumes := rfl
@[simp] theorem Dev.setSched_divs (d : Dev) (v : Sched) : (d.setSched v).divs = d.divs := rfl
@[simp] theorem Dev.setSched_divPins (d : Dev) (v : Sched) : (d.setSched v).divPins = d.divPins := rfl
@[simp] theorem Dev.setSched_claims (d : Dev) (v : Sched) : (d.setSched v).claims = d.claims := rfl
@[simp] theorem Dev.setSched_steps (d : Dev) (v : Sched) : (d.setSched v).steps = d.steps := rfl
@[simp] theorem Dev.setSched_parts (d : Dev) (v : Sched) : (d.setSched v).parts = d.parts := rfl
@[simp] theorem Dev.setSched_cis (d : Dev) (v : Sched) : (d.setSched v).cis = d.cis := rfl
@[simp] theorem Dev.setSched_gauges (d : Dev) (v : Sched) : (d.setSched v).gauges = d.gauges := rfl
@[simp] theorem Dev.setSched_gaugeReports (d : Dev) (v : Sched) : (d.setSched v).gaugeReports = d.gaugeReports := rfl
@[simp] theorem Dev.setSched_cfls (d : Dev) (v : Sched) : (d.setSched v).cfls = d.cfls := rfl
@[simp] theorem Dev.setSched_cflElems (d : Dev) (v : Sched) : (d.setSched v).cflElems = d.cflElems := rfl
@[simp] theorem Dev.setSched_sec (d : Dev) (v : Sched) : (d.setSched v).sec = d.sec := rfl
@[simp] theorem Dev.setSched_power (d : Dev) (v : Sched) : (d.setSched v).power = d.power := rfl
@[simp] theorem Dev.setSched_wakes (d : Dev) (v : Sched) : (d.setSched v).wakes = d.wakes := rfl
@[simp] theorem Dev.setSched_serves (d : Dev) (v : Sched) : (d.setSched v).serves = d.serves := rfl
@[simp] theorem Dev.setSched_tenants (d : Dev) (v : Sched) : (d.setSched v).tenants = d.tenants := rfl
@[simp] theorem Dev.setSched_reqs (d : Dev) (v : Sched) : (d.setSched v).reqs = d.reqs := rfl
@[simp] theorem Dev.setSched_nextReq (d : Dev) (v : Sched) : (d.setSched v).nextReq = d.nextReq := rfl
@[simp] theorem Dev.setSched_ofts (d : Dev) (v : Sched) : (d.setSched v).ofts = d.ofts := rfl
@[simp] theorem Dev.setSched_oftInsts (d : Dev) (v : Sched) : (d.setSched v).oftInsts = d.oftInsts := rfl
@[simp] theorem Dev.setSched_oftTimes (d : Dev) (v : Sched) : (d.setSched v).oftTimes = d.oftTimes := rfl
@[simp] theorem Dev.setSurvey_time (d : Dev) (v : Survey) : (d.setSurvey v).time = d.time := rfl
@[simp] theorem Dev.setSurvey_out (d : Dev) (v : Survey) : (d.setSurvey v).out = d.out := rfl
@[simp] theorem Dev.setSurvey_draws (d : Dev) (v : Survey) : (d.setSurvey v).draws = d.draws := rfl
@[simp] theorem Dev.setSurvey_regs (d : Dev) (v : Survey) : (d.setSurvey v).regs = d.regs := rfl
@[simp] theorem Dev.setSurvey_ports (d : Dev) (v : Survey) : (d.setSurvey v).ports = d.ports := rfl
@[simp] theorem Dev.setSurvey_rings (d : Dev) (v : Survey) : (d.setSurvey v).rings = d.rings := rfl
@[simp] theorem Dev.setSurvey_errs (d : Dev) (v : Survey) : (d.setSurvey v).errs = d.errs := rfl
@[simp] theorem Dev.setSurvey_orders (d : Dev) (v : Survey) : (d.setSurvey v).orders = d.orders := rfl
@[simp] theorem Dev.setSurvey_sluices (d : Dev) (v : Survey) : (d.setSurvey v).sluices = d.sluices := rfl
@[simp] theorem Dev.setSurvey_msix (d : Dev) (v : Survey) : (d.setSurvey v).msix = d.msix := rfl
@[simp] theorem Dev.setSurvey_gates (d : Dev) (v : Survey) : (d.setSurvey v).gates = d.gates := rfl
@[simp] theorem Dev.setSurvey_waits (d : Dev) (v : Survey) : (d.setSurvey v).waits = d.waits := rfl
@[simp] theorem Dev.setSurvey_canal (d : Dev) (v : Survey) : (d.setSurvey v).canal = d.canal := rfl
@[simp] theorem Dev.setSurvey_ctxs (d : Dev) (v : Survey) : (d.setSurvey v).ctxs = d.ctxs := rfl
@[simp] theorem Dev.setSurvey_sched (d : Dev) (v : Survey) : (d.setSurvey v).sched = d.sched := rfl
@[simp] theorem Dev.setSurvey_survey (d : Dev) (v : Survey) : (d.setSurvey v).survey = v := rfl
@[simp] theorem Dev.setSurvey_dists (d : Dev) (v : Survey) : (d.setSurvey v).dists = d.dists := rfl
@[simp] theorem Dev.setSurvey_devs (d : Dev) (v : Survey) : (d.setSurvey v).devs = d.devs := rfl
@[simp] theorem Dev.setSurvey_cxl (d : Dev) (v : Survey) : (d.setSurvey v).cxl = d.cxl := rfl
@[simp] theorem Dev.setSurvey_cache (d : Dev) (v : Survey) : (d.setSurvey v).cache = d.cache := rfl
@[simp] theorem Dev.setSurvey_lines (d : Dev) (v : Survey) : (d.setSurvey v).lines = d.lines := rfl
@[simp] theorem Dev.setSurvey_mem (d : Dev) (v : Survey) : (d.setSurvey v).mem = d.mem := rfl
@[simp] theorem Dev.setSurvey_bad (d : Dev) (v : Survey) : (d.setSurvey v).bad = d.bad := rfl
@[simp] theorem Dev.setSurvey_memFaults (d : Dev) (v : Survey) : (d.setSurvey v).memFaults = d.memFaults := rfl
@[simp] theorem Dev.setSurvey_cores (d : Dev) (v : Survey) : (d.setSurvey v).cores = d.cores := rfl
@[simp] theorem Dev.setSurvey_fields (d : Dev) (v : Survey) : (d.setSurvey v).fields = d.fields := rfl
@[simp] theorem Dev.setSurvey_saves (d : Dev) (v : Survey) : (d.setSurvey v).saves = d.saves := rfl
@[simp] theorem Dev.setSurvey_startup (d : Dev) (v : Survey) : (d.setSurvey v).startup = d.startup := rfl
@[simp] theorem Dev.setSurvey_units (d : Dev) (v : Survey) : (d.setSurvey v).units = d.units := rfl
@[simp] theorem Dev.setSurvey_silt (d : Dev) (v : Survey) : (d.setSurvey v).silt = d.silt := rfl
@[simp] theorem Dev.setSurvey_lkk (d : Dev) (v : Survey) : (d.setSurvey v).lkk = d.lkk := rfl
@[simp] theorem Dev.setSurvey_flumes (d : Dev) (v : Survey) : (d.setSurvey v).flumes = d.flumes := rfl
@[simp] theorem Dev.setSurvey_divs (d : Dev) (v : Survey) : (d.setSurvey v).divs = d.divs := rfl
@[simp] theorem Dev.setSurvey_divPins (d : Dev) (v : Survey) : (d.setSurvey v).divPins = d.divPins := rfl
@[simp] theorem Dev.setSurvey_claims (d : Dev) (v : Survey) : (d.setSurvey v).claims = d.claims := rfl
@[simp] theorem Dev.setSurvey_steps (d : Dev) (v : Survey) : (d.setSurvey v).steps = d.steps := rfl
@[simp] theorem Dev.setSurvey_parts (d : Dev) (v : Survey) : (d.setSurvey v).parts = d.parts := rfl
@[simp] theorem Dev.setSurvey_cis (d : Dev) (v : Survey) : (d.setSurvey v).cis = d.cis := rfl
@[simp] theorem Dev.setSurvey_gauges (d : Dev) (v : Survey) : (d.setSurvey v).gauges = d.gauges := rfl
@[simp] theorem Dev.setSurvey_gaugeReports (d : Dev) (v : Survey) : (d.setSurvey v).gaugeReports = d.gaugeReports := rfl
@[simp] theorem Dev.setSurvey_cfls (d : Dev) (v : Survey) : (d.setSurvey v).cfls = d.cfls := rfl
@[simp] theorem Dev.setSurvey_cflElems (d : Dev) (v : Survey) : (d.setSurvey v).cflElems = d.cflElems := rfl
@[simp] theorem Dev.setSurvey_sec (d : Dev) (v : Survey) : (d.setSurvey v).sec = d.sec := rfl
@[simp] theorem Dev.setSurvey_power (d : Dev) (v : Survey) : (d.setSurvey v).power = d.power := rfl
@[simp] theorem Dev.setSurvey_wakes (d : Dev) (v : Survey) : (d.setSurvey v).wakes = d.wakes := rfl
@[simp] theorem Dev.setSurvey_serves (d : Dev) (v : Survey) : (d.setSurvey v).serves = d.serves := rfl
@[simp] theorem Dev.setSurvey_tenants (d : Dev) (v : Survey) : (d.setSurvey v).tenants = d.tenants := rfl
@[simp] theorem Dev.setSurvey_reqs (d : Dev) (v : Survey) : (d.setSurvey v).reqs = d.reqs := rfl
@[simp] theorem Dev.setSurvey_nextReq (d : Dev) (v : Survey) : (d.setSurvey v).nextReq = d.nextReq := rfl
@[simp] theorem Dev.setSurvey_ofts (d : Dev) (v : Survey) : (d.setSurvey v).ofts = d.ofts := rfl
@[simp] theorem Dev.setSurvey_oftInsts (d : Dev) (v : Survey) : (d.setSurvey v).oftInsts = d.oftInsts := rfl
@[simp] theorem Dev.setSurvey_oftTimes (d : Dev) (v : Survey) : (d.setSurvey v).oftTimes = d.oftTimes := rfl
@[simp] theorem Dev.setDists_time (d : Dev) (v : Tbl Dist) : (d.setDists v).time = d.time := rfl
@[simp] theorem Dev.setDists_out (d : Dev) (v : Tbl Dist) : (d.setDists v).out = d.out := rfl
@[simp] theorem Dev.setDists_draws (d : Dev) (v : Tbl Dist) : (d.setDists v).draws = d.draws := rfl
@[simp] theorem Dev.setDists_regs (d : Dev) (v : Tbl Dist) : (d.setDists v).regs = d.regs := rfl
@[simp] theorem Dev.setDists_ports (d : Dev) (v : Tbl Dist) : (d.setDists v).ports = d.ports := rfl
@[simp] theorem Dev.setDists_rings (d : Dev) (v : Tbl Dist) : (d.setDists v).rings = d.rings := rfl
@[simp] theorem Dev.setDists_errs (d : Dev) (v : Tbl Dist) : (d.setDists v).errs = d.errs := rfl
@[simp] theorem Dev.setDists_orders (d : Dev) (v : Tbl Dist) : (d.setDists v).orders = d.orders := rfl
@[simp] theorem Dev.setDists_sluices (d : Dev) (v : Tbl Dist) : (d.setDists v).sluices = d.sluices := rfl
@[simp] theorem Dev.setDists_msix (d : Dev) (v : Tbl Dist) : (d.setDists v).msix = d.msix := rfl
@[simp] theorem Dev.setDists_gates (d : Dev) (v : Tbl Dist) : (d.setDists v).gates = d.gates := rfl
@[simp] theorem Dev.setDists_waits (d : Dev) (v : Tbl Dist) : (d.setDists v).waits = d.waits := rfl
@[simp] theorem Dev.setDists_canal (d : Dev) (v : Tbl Dist) : (d.setDists v).canal = d.canal := rfl
@[simp] theorem Dev.setDists_ctxs (d : Dev) (v : Tbl Dist) : (d.setDists v).ctxs = d.ctxs := rfl
@[simp] theorem Dev.setDists_sched (d : Dev) (v : Tbl Dist) : (d.setDists v).sched = d.sched := rfl
@[simp] theorem Dev.setDists_survey (d : Dev) (v : Tbl Dist) : (d.setDists v).survey = d.survey := rfl
@[simp] theorem Dev.setDists_dists (d : Dev) (v : Tbl Dist) : (d.setDists v).dists = v := rfl
@[simp] theorem Dev.setDists_devs (d : Dev) (v : Tbl Dist) : (d.setDists v).devs = d.devs := rfl
@[simp] theorem Dev.setDists_cxl (d : Dev) (v : Tbl Dist) : (d.setDists v).cxl = d.cxl := rfl
@[simp] theorem Dev.setDists_cache (d : Dev) (v : Tbl Dist) : (d.setDists v).cache = d.cache := rfl
@[simp] theorem Dev.setDists_lines (d : Dev) (v : Tbl Dist) : (d.setDists v).lines = d.lines := rfl
@[simp] theorem Dev.setDists_mem (d : Dev) (v : Tbl Dist) : (d.setDists v).mem = d.mem := rfl
@[simp] theorem Dev.setDists_bad (d : Dev) (v : Tbl Dist) : (d.setDists v).bad = d.bad := rfl
@[simp] theorem Dev.setDists_memFaults (d : Dev) (v : Tbl Dist) : (d.setDists v).memFaults = d.memFaults := rfl
@[simp] theorem Dev.setDists_cores (d : Dev) (v : Tbl Dist) : (d.setDists v).cores = d.cores := rfl
@[simp] theorem Dev.setDists_fields (d : Dev) (v : Tbl Dist) : (d.setDists v).fields = d.fields := rfl
@[simp] theorem Dev.setDists_saves (d : Dev) (v : Tbl Dist) : (d.setDists v).saves = d.saves := rfl
@[simp] theorem Dev.setDists_startup (d : Dev) (v : Tbl Dist) : (d.setDists v).startup = d.startup := rfl
@[simp] theorem Dev.setDists_units (d : Dev) (v : Tbl Dist) : (d.setDists v).units = d.units := rfl
@[simp] theorem Dev.setDists_silt (d : Dev) (v : Tbl Dist) : (d.setDists v).silt = d.silt := rfl
@[simp] theorem Dev.setDists_lkk (d : Dev) (v : Tbl Dist) : (d.setDists v).lkk = d.lkk := rfl
@[simp] theorem Dev.setDists_flumes (d : Dev) (v : Tbl Dist) : (d.setDists v).flumes = d.flumes := rfl
@[simp] theorem Dev.setDists_divs (d : Dev) (v : Tbl Dist) : (d.setDists v).divs = d.divs := rfl
@[simp] theorem Dev.setDists_divPins (d : Dev) (v : Tbl Dist) : (d.setDists v).divPins = d.divPins := rfl
@[simp] theorem Dev.setDists_claims (d : Dev) (v : Tbl Dist) : (d.setDists v).claims = d.claims := rfl
@[simp] theorem Dev.setDists_steps (d : Dev) (v : Tbl Dist) : (d.setDists v).steps = d.steps := rfl
@[simp] theorem Dev.setDists_parts (d : Dev) (v : Tbl Dist) : (d.setDists v).parts = d.parts := rfl
@[simp] theorem Dev.setDists_cis (d : Dev) (v : Tbl Dist) : (d.setDists v).cis = d.cis := rfl
@[simp] theorem Dev.setDists_gauges (d : Dev) (v : Tbl Dist) : (d.setDists v).gauges = d.gauges := rfl
@[simp] theorem Dev.setDists_gaugeReports (d : Dev) (v : Tbl Dist) : (d.setDists v).gaugeReports = d.gaugeReports := rfl
@[simp] theorem Dev.setDists_cfls (d : Dev) (v : Tbl Dist) : (d.setDists v).cfls = d.cfls := rfl
@[simp] theorem Dev.setDists_cflElems (d : Dev) (v : Tbl Dist) : (d.setDists v).cflElems = d.cflElems := rfl
@[simp] theorem Dev.setDists_sec (d : Dev) (v : Tbl Dist) : (d.setDists v).sec = d.sec := rfl
@[simp] theorem Dev.setDists_power (d : Dev) (v : Tbl Dist) : (d.setDists v).power = d.power := rfl
@[simp] theorem Dev.setDists_wakes (d : Dev) (v : Tbl Dist) : (d.setDists v).wakes = d.wakes := rfl
@[simp] theorem Dev.setDists_serves (d : Dev) (v : Tbl Dist) : (d.setDists v).serves = d.serves := rfl
@[simp] theorem Dev.setDists_tenants (d : Dev) (v : Tbl Dist) : (d.setDists v).tenants = d.tenants := rfl
@[simp] theorem Dev.setDists_reqs (d : Dev) (v : Tbl Dist) : (d.setDists v).reqs = d.reqs := rfl
@[simp] theorem Dev.setDists_nextReq (d : Dev) (v : Tbl Dist) : (d.setDists v).nextReq = d.nextReq := rfl
@[simp] theorem Dev.setDists_ofts (d : Dev) (v : Tbl Dist) : (d.setDists v).ofts = d.ofts := rfl
@[simp] theorem Dev.setDists_oftInsts (d : Dev) (v : Tbl Dist) : (d.setDists v).oftInsts = d.oftInsts := rfl
@[simp] theorem Dev.setDists_oftTimes (d : Dev) (v : Tbl Dist) : (d.setDists v).oftTimes = d.oftTimes := rfl
@[simp] theorem Dev.setDevs_time (d : Dev) (v : Tbl MemDev) : (d.setDevs v).time = d.time := rfl
@[simp] theorem Dev.setDevs_out (d : Dev) (v : Tbl MemDev) : (d.setDevs v).out = d.out := rfl
@[simp] theorem Dev.setDevs_draws (d : Dev) (v : Tbl MemDev) : (d.setDevs v).draws = d.draws := rfl
@[simp] theorem Dev.setDevs_regs (d : Dev) (v : Tbl MemDev) : (d.setDevs v).regs = d.regs := rfl
@[simp] theorem Dev.setDevs_ports (d : Dev) (v : Tbl MemDev) : (d.setDevs v).ports = d.ports := rfl
@[simp] theorem Dev.setDevs_rings (d : Dev) (v : Tbl MemDev) : (d.setDevs v).rings = d.rings := rfl
@[simp] theorem Dev.setDevs_errs (d : Dev) (v : Tbl MemDev) : (d.setDevs v).errs = d.errs := rfl
@[simp] theorem Dev.setDevs_orders (d : Dev) (v : Tbl MemDev) : (d.setDevs v).orders = d.orders := rfl
@[simp] theorem Dev.setDevs_sluices (d : Dev) (v : Tbl MemDev) : (d.setDevs v).sluices = d.sluices := rfl
@[simp] theorem Dev.setDevs_msix (d : Dev) (v : Tbl MemDev) : (d.setDevs v).msix = d.msix := rfl
@[simp] theorem Dev.setDevs_gates (d : Dev) (v : Tbl MemDev) : (d.setDevs v).gates = d.gates := rfl
@[simp] theorem Dev.setDevs_waits (d : Dev) (v : Tbl MemDev) : (d.setDevs v).waits = d.waits := rfl
@[simp] theorem Dev.setDevs_canal (d : Dev) (v : Tbl MemDev) : (d.setDevs v).canal = d.canal := rfl
@[simp] theorem Dev.setDevs_ctxs (d : Dev) (v : Tbl MemDev) : (d.setDevs v).ctxs = d.ctxs := rfl
@[simp] theorem Dev.setDevs_sched (d : Dev) (v : Tbl MemDev) : (d.setDevs v).sched = d.sched := rfl
@[simp] theorem Dev.setDevs_survey (d : Dev) (v : Tbl MemDev) : (d.setDevs v).survey = d.survey := rfl
@[simp] theorem Dev.setDevs_dists (d : Dev) (v : Tbl MemDev) : (d.setDevs v).dists = d.dists := rfl
@[simp] theorem Dev.setDevs_devs (d : Dev) (v : Tbl MemDev) : (d.setDevs v).devs = v := rfl
@[simp] theorem Dev.setDevs_cxl (d : Dev) (v : Tbl MemDev) : (d.setDevs v).cxl = d.cxl := rfl
@[simp] theorem Dev.setDevs_cache (d : Dev) (v : Tbl MemDev) : (d.setDevs v).cache = d.cache := rfl
@[simp] theorem Dev.setDevs_lines (d : Dev) (v : Tbl MemDev) : (d.setDevs v).lines = d.lines := rfl
@[simp] theorem Dev.setDevs_mem (d : Dev) (v : Tbl MemDev) : (d.setDevs v).mem = d.mem := rfl
@[simp] theorem Dev.setDevs_bad (d : Dev) (v : Tbl MemDev) : (d.setDevs v).bad = d.bad := rfl
@[simp] theorem Dev.setDevs_memFaults (d : Dev) (v : Tbl MemDev) : (d.setDevs v).memFaults = d.memFaults := rfl
@[simp] theorem Dev.setDevs_cores (d : Dev) (v : Tbl MemDev) : (d.setDevs v).cores = d.cores := rfl
@[simp] theorem Dev.setDevs_fields (d : Dev) (v : Tbl MemDev) : (d.setDevs v).fields = d.fields := rfl
@[simp] theorem Dev.setDevs_saves (d : Dev) (v : Tbl MemDev) : (d.setDevs v).saves = d.saves := rfl
@[simp] theorem Dev.setDevs_startup (d : Dev) (v : Tbl MemDev) : (d.setDevs v).startup = d.startup := rfl
@[simp] theorem Dev.setDevs_units (d : Dev) (v : Tbl MemDev) : (d.setDevs v).units = d.units := rfl
@[simp] theorem Dev.setDevs_silt (d : Dev) (v : Tbl MemDev) : (d.setDevs v).silt = d.silt := rfl
@[simp] theorem Dev.setDevs_lkk (d : Dev) (v : Tbl MemDev) : (d.setDevs v).lkk = d.lkk := rfl
@[simp] theorem Dev.setDevs_flumes (d : Dev) (v : Tbl MemDev) : (d.setDevs v).flumes = d.flumes := rfl
@[simp] theorem Dev.setDevs_divs (d : Dev) (v : Tbl MemDev) : (d.setDevs v).divs = d.divs := rfl
@[simp] theorem Dev.setDevs_divPins (d : Dev) (v : Tbl MemDev) : (d.setDevs v).divPins = d.divPins := rfl
@[simp] theorem Dev.setDevs_claims (d : Dev) (v : Tbl MemDev) : (d.setDevs v).claims = d.claims := rfl
@[simp] theorem Dev.setDevs_steps (d : Dev) (v : Tbl MemDev) : (d.setDevs v).steps = d.steps := rfl
@[simp] theorem Dev.setDevs_parts (d : Dev) (v : Tbl MemDev) : (d.setDevs v).parts = d.parts := rfl
@[simp] theorem Dev.setDevs_cis (d : Dev) (v : Tbl MemDev) : (d.setDevs v).cis = d.cis := rfl
@[simp] theorem Dev.setDevs_gauges (d : Dev) (v : Tbl MemDev) : (d.setDevs v).gauges = d.gauges := rfl
@[simp] theorem Dev.setDevs_gaugeReports (d : Dev) (v : Tbl MemDev) : (d.setDevs v).gaugeReports = d.gaugeReports := rfl
@[simp] theorem Dev.setDevs_cfls (d : Dev) (v : Tbl MemDev) : (d.setDevs v).cfls = d.cfls := rfl
@[simp] theorem Dev.setDevs_cflElems (d : Dev) (v : Tbl MemDev) : (d.setDevs v).cflElems = d.cflElems := rfl
@[simp] theorem Dev.setDevs_sec (d : Dev) (v : Tbl MemDev) : (d.setDevs v).sec = d.sec := rfl
@[simp] theorem Dev.setDevs_power (d : Dev) (v : Tbl MemDev) : (d.setDevs v).power = d.power := rfl
@[simp] theorem Dev.setDevs_wakes (d : Dev) (v : Tbl MemDev) : (d.setDevs v).wakes = d.wakes := rfl
@[simp] theorem Dev.setDevs_serves (d : Dev) (v : Tbl MemDev) : (d.setDevs v).serves = d.serves := rfl
@[simp] theorem Dev.setDevs_tenants (d : Dev) (v : Tbl MemDev) : (d.setDevs v).tenants = d.tenants := rfl
@[simp] theorem Dev.setDevs_reqs (d : Dev) (v : Tbl MemDev) : (d.setDevs v).reqs = d.reqs := rfl
@[simp] theorem Dev.setDevs_nextReq (d : Dev) (v : Tbl MemDev) : (d.setDevs v).nextReq = d.nextReq := rfl
@[simp] theorem Dev.setDevs_ofts (d : Dev) (v : Tbl MemDev) : (d.setDevs v).ofts = d.ofts := rfl
@[simp] theorem Dev.setDevs_oftInsts (d : Dev) (v : Tbl MemDev) : (d.setDevs v).oftInsts = d.oftInsts := rfl
@[simp] theorem Dev.setDevs_oftTimes (d : Dev) (v : Tbl MemDev) : (d.setDevs v).oftTimes = d.oftTimes := rfl
@[simp] theorem Dev.setCxl_time (d : Dev) (v : Tbl CxlPort) : (d.setCxl v).time = d.time := rfl
@[simp] theorem Dev.setCxl_out (d : Dev) (v : Tbl CxlPort) : (d.setCxl v).out = d.out := rfl
@[simp] theorem Dev.setCxl_draws (d : Dev) (v : Tbl CxlPort) : (d.setCxl v).draws = d.draws := rfl
@[simp] theorem Dev.setCxl_regs (d : Dev) (v : Tbl CxlPort) : (d.setCxl v).regs = d.regs := rfl
@[simp] theorem Dev.setCxl_ports (d : Dev) (v : Tbl CxlPort) : (d.setCxl v).ports = d.ports := rfl
@[simp] theorem Dev.setCxl_rings (d : Dev) (v : Tbl CxlPort) : (d.setCxl v).rings = d.rings := rfl
@[simp] theorem Dev.setCxl_errs (d : Dev) (v : Tbl CxlPort) : (d.setCxl v).errs = d.errs := rfl
@[simp] theorem Dev.setCxl_orders (d : Dev) (v : Tbl CxlPort) : (d.setCxl v).orders = d.orders := rfl
@[simp] theorem Dev.setCxl_sluices (d : Dev) (v : Tbl CxlPort) : (d.setCxl v).sluices = d.sluices := rfl
@[simp] theorem Dev.setCxl_msix (d : Dev) (v : Tbl CxlPort) : (d.setCxl v).msix = d.msix := rfl
@[simp] theorem Dev.setCxl_gates (d : Dev) (v : Tbl CxlPort) : (d.setCxl v).gates = d.gates := rfl
@[simp] theorem Dev.setCxl_waits (d : Dev) (v : Tbl CxlPort) : (d.setCxl v).waits = d.waits := rfl
@[simp] theorem Dev.setCxl_canal (d : Dev) (v : Tbl CxlPort) : (d.setCxl v).canal = d.canal := rfl
@[simp] theorem Dev.setCxl_ctxs (d : Dev) (v : Tbl CxlPort) : (d.setCxl v).ctxs = d.ctxs := rfl
@[simp] theorem Dev.setCxl_sched (d : Dev) (v : Tbl CxlPort) : (d.setCxl v).sched = d.sched := rfl
@[simp] theorem Dev.setCxl_survey (d : Dev) (v : Tbl CxlPort) : (d.setCxl v).survey = d.survey := rfl
@[simp] theorem Dev.setCxl_dists (d : Dev) (v : Tbl CxlPort) : (d.setCxl v).dists = d.dists := rfl
@[simp] theorem Dev.setCxl_devs (d : Dev) (v : Tbl CxlPort) : (d.setCxl v).devs = d.devs := rfl
@[simp] theorem Dev.setCxl_cxl (d : Dev) (v : Tbl CxlPort) : (d.setCxl v).cxl = v := rfl
@[simp] theorem Dev.setCxl_cache (d : Dev) (v : Tbl CxlPort) : (d.setCxl v).cache = d.cache := rfl
@[simp] theorem Dev.setCxl_lines (d : Dev) (v : Tbl CxlPort) : (d.setCxl v).lines = d.lines := rfl
@[simp] theorem Dev.setCxl_mem (d : Dev) (v : Tbl CxlPort) : (d.setCxl v).mem = d.mem := rfl
@[simp] theorem Dev.setCxl_bad (d : Dev) (v : Tbl CxlPort) : (d.setCxl v).bad = d.bad := rfl
@[simp] theorem Dev.setCxl_memFaults (d : Dev) (v : Tbl CxlPort) : (d.setCxl v).memFaults = d.memFaults := rfl
@[simp] theorem Dev.setCxl_cores (d : Dev) (v : Tbl CxlPort) : (d.setCxl v).cores = d.cores := rfl
@[simp] theorem Dev.setCxl_fields (d : Dev) (v : Tbl CxlPort) : (d.setCxl v).fields = d.fields := rfl
@[simp] theorem Dev.setCxl_saves (d : Dev) (v : Tbl CxlPort) : (d.setCxl v).saves = d.saves := rfl
@[simp] theorem Dev.setCxl_startup (d : Dev) (v : Tbl CxlPort) : (d.setCxl v).startup = d.startup := rfl
@[simp] theorem Dev.setCxl_units (d : Dev) (v : Tbl CxlPort) : (d.setCxl v).units = d.units := rfl
@[simp] theorem Dev.setCxl_silt (d : Dev) (v : Tbl CxlPort) : (d.setCxl v).silt = d.silt := rfl
@[simp] theorem Dev.setCxl_lkk (d : Dev) (v : Tbl CxlPort) : (d.setCxl v).lkk = d.lkk := rfl
@[simp] theorem Dev.setCxl_flumes (d : Dev) (v : Tbl CxlPort) : (d.setCxl v).flumes = d.flumes := rfl
@[simp] theorem Dev.setCxl_divs (d : Dev) (v : Tbl CxlPort) : (d.setCxl v).divs = d.divs := rfl
@[simp] theorem Dev.setCxl_divPins (d : Dev) (v : Tbl CxlPort) : (d.setCxl v).divPins = d.divPins := rfl
@[simp] theorem Dev.setCxl_claims (d : Dev) (v : Tbl CxlPort) : (d.setCxl v).claims = d.claims := rfl
@[simp] theorem Dev.setCxl_steps (d : Dev) (v : Tbl CxlPort) : (d.setCxl v).steps = d.steps := rfl
@[simp] theorem Dev.setCxl_parts (d : Dev) (v : Tbl CxlPort) : (d.setCxl v).parts = d.parts := rfl
@[simp] theorem Dev.setCxl_cis (d : Dev) (v : Tbl CxlPort) : (d.setCxl v).cis = d.cis := rfl
@[simp] theorem Dev.setCxl_gauges (d : Dev) (v : Tbl CxlPort) : (d.setCxl v).gauges = d.gauges := rfl
@[simp] theorem Dev.setCxl_gaugeReports (d : Dev) (v : Tbl CxlPort) : (d.setCxl v).gaugeReports = d.gaugeReports := rfl
@[simp] theorem Dev.setCxl_cfls (d : Dev) (v : Tbl CxlPort) : (d.setCxl v).cfls = d.cfls := rfl
@[simp] theorem Dev.setCxl_cflElems (d : Dev) (v : Tbl CxlPort) : (d.setCxl v).cflElems = d.cflElems := rfl
@[simp] theorem Dev.setCxl_sec (d : Dev) (v : Tbl CxlPort) : (d.setCxl v).sec = d.sec := rfl
@[simp] theorem Dev.setCxl_power (d : Dev) (v : Tbl CxlPort) : (d.setCxl v).power = d.power := rfl
@[simp] theorem Dev.setCxl_wakes (d : Dev) (v : Tbl CxlPort) : (d.setCxl v).wakes = d.wakes := rfl
@[simp] theorem Dev.setCxl_serves (d : Dev) (v : Tbl CxlPort) : (d.setCxl v).serves = d.serves := rfl
@[simp] theorem Dev.setCxl_tenants (d : Dev) (v : Tbl CxlPort) : (d.setCxl v).tenants = d.tenants := rfl
@[simp] theorem Dev.setCxl_reqs (d : Dev) (v : Tbl CxlPort) : (d.setCxl v).reqs = d.reqs := rfl
@[simp] theorem Dev.setCxl_nextReq (d : Dev) (v : Tbl CxlPort) : (d.setCxl v).nextReq = d.nextReq := rfl
@[simp] theorem Dev.setCxl_ofts (d : Dev) (v : Tbl CxlPort) : (d.setCxl v).ofts = d.ofts := rfl
@[simp] theorem Dev.setCxl_oftInsts (d : Dev) (v : Tbl CxlPort) : (d.setCxl v).oftInsts = d.oftInsts := rfl
@[simp] theorem Dev.setCxl_oftTimes (d : Dev) (v : Tbl CxlPort) : (d.setCxl v).oftTimes = d.oftTimes := rfl
@[simp] theorem Dev.setCache_time (d : Dev) (v : Tbl CacheEnt) : (d.setCache v).time = d.time := rfl
@[simp] theorem Dev.setCache_out (d : Dev) (v : Tbl CacheEnt) : (d.setCache v).out = d.out := rfl
@[simp] theorem Dev.setCache_draws (d : Dev) (v : Tbl CacheEnt) : (d.setCache v).draws = d.draws := rfl
@[simp] theorem Dev.setCache_regs (d : Dev) (v : Tbl CacheEnt) : (d.setCache v).regs = d.regs := rfl
@[simp] theorem Dev.setCache_ports (d : Dev) (v : Tbl CacheEnt) : (d.setCache v).ports = d.ports := rfl
@[simp] theorem Dev.setCache_rings (d : Dev) (v : Tbl CacheEnt) : (d.setCache v).rings = d.rings := rfl
@[simp] theorem Dev.setCache_errs (d : Dev) (v : Tbl CacheEnt) : (d.setCache v).errs = d.errs := rfl
@[simp] theorem Dev.setCache_orders (d : Dev) (v : Tbl CacheEnt) : (d.setCache v).orders = d.orders := rfl
@[simp] theorem Dev.setCache_sluices (d : Dev) (v : Tbl CacheEnt) : (d.setCache v).sluices = d.sluices := rfl
@[simp] theorem Dev.setCache_msix (d : Dev) (v : Tbl CacheEnt) : (d.setCache v).msix = d.msix := rfl
@[simp] theorem Dev.setCache_gates (d : Dev) (v : Tbl CacheEnt) : (d.setCache v).gates = d.gates := rfl
@[simp] theorem Dev.setCache_waits (d : Dev) (v : Tbl CacheEnt) : (d.setCache v).waits = d.waits := rfl
@[simp] theorem Dev.setCache_canal (d : Dev) (v : Tbl CacheEnt) : (d.setCache v).canal = d.canal := rfl
@[simp] theorem Dev.setCache_ctxs (d : Dev) (v : Tbl CacheEnt) : (d.setCache v).ctxs = d.ctxs := rfl
@[simp] theorem Dev.setCache_sched (d : Dev) (v : Tbl CacheEnt) : (d.setCache v).sched = d.sched := rfl
@[simp] theorem Dev.setCache_survey (d : Dev) (v : Tbl CacheEnt) : (d.setCache v).survey = d.survey := rfl
@[simp] theorem Dev.setCache_dists (d : Dev) (v : Tbl CacheEnt) : (d.setCache v).dists = d.dists := rfl
@[simp] theorem Dev.setCache_devs (d : Dev) (v : Tbl CacheEnt) : (d.setCache v).devs = d.devs := rfl
@[simp] theorem Dev.setCache_cxl (d : Dev) (v : Tbl CacheEnt) : (d.setCache v).cxl = d.cxl := rfl
@[simp] theorem Dev.setCache_cache (d : Dev) (v : Tbl CacheEnt) : (d.setCache v).cache = v := rfl
@[simp] theorem Dev.setCache_lines (d : Dev) (v : Tbl CacheEnt) : (d.setCache v).lines = d.lines := rfl
@[simp] theorem Dev.setCache_mem (d : Dev) (v : Tbl CacheEnt) : (d.setCache v).mem = d.mem := rfl
@[simp] theorem Dev.setCache_bad (d : Dev) (v : Tbl CacheEnt) : (d.setCache v).bad = d.bad := rfl
@[simp] theorem Dev.setCache_memFaults (d : Dev) (v : Tbl CacheEnt) : (d.setCache v).memFaults = d.memFaults := rfl
@[simp] theorem Dev.setCache_cores (d : Dev) (v : Tbl CacheEnt) : (d.setCache v).cores = d.cores := rfl
@[simp] theorem Dev.setCache_fields (d : Dev) (v : Tbl CacheEnt) : (d.setCache v).fields = d.fields := rfl
@[simp] theorem Dev.setCache_saves (d : Dev) (v : Tbl CacheEnt) : (d.setCache v).saves = d.saves := rfl
@[simp] theorem Dev.setCache_startup (d : Dev) (v : Tbl CacheEnt) : (d.setCache v).startup = d.startup := rfl
@[simp] theorem Dev.setCache_units (d : Dev) (v : Tbl CacheEnt) : (d.setCache v).units = d.units := rfl
@[simp] theorem Dev.setCache_silt (d : Dev) (v : Tbl CacheEnt) : (d.setCache v).silt = d.silt := rfl
@[simp] theorem Dev.setCache_lkk (d : Dev) (v : Tbl CacheEnt) : (d.setCache v).lkk = d.lkk := rfl
@[simp] theorem Dev.setCache_flumes (d : Dev) (v : Tbl CacheEnt) : (d.setCache v).flumes = d.flumes := rfl
@[simp] theorem Dev.setCache_divs (d : Dev) (v : Tbl CacheEnt) : (d.setCache v).divs = d.divs := rfl
@[simp] theorem Dev.setCache_divPins (d : Dev) (v : Tbl CacheEnt) : (d.setCache v).divPins = d.divPins := rfl
@[simp] theorem Dev.setCache_claims (d : Dev) (v : Tbl CacheEnt) : (d.setCache v).claims = d.claims := rfl
@[simp] theorem Dev.setCache_steps (d : Dev) (v : Tbl CacheEnt) : (d.setCache v).steps = d.steps := rfl
@[simp] theorem Dev.setCache_parts (d : Dev) (v : Tbl CacheEnt) : (d.setCache v).parts = d.parts := rfl
@[simp] theorem Dev.setCache_cis (d : Dev) (v : Tbl CacheEnt) : (d.setCache v).cis = d.cis := rfl
@[simp] theorem Dev.setCache_gauges (d : Dev) (v : Tbl CacheEnt) : (d.setCache v).gauges = d.gauges := rfl
@[simp] theorem Dev.setCache_gaugeReports (d : Dev) (v : Tbl CacheEnt) : (d.setCache v).gaugeReports = d.gaugeReports := rfl
@[simp] theorem Dev.setCache_cfls (d : Dev) (v : Tbl CacheEnt) : (d.setCache v).cfls = d.cfls := rfl
@[simp] theorem Dev.setCache_cflElems (d : Dev) (v : Tbl CacheEnt) : (d.setCache v).cflElems = d.cflElems := rfl
@[simp] theorem Dev.setCache_sec (d : Dev) (v : Tbl CacheEnt) : (d.setCache v).sec = d.sec := rfl
@[simp] theorem Dev.setCache_power (d : Dev) (v : Tbl CacheEnt) : (d.setCache v).power = d.power := rfl
@[simp] theorem Dev.setCache_wakes (d : Dev) (v : Tbl CacheEnt) : (d.setCache v).wakes = d.wakes := rfl
@[simp] theorem Dev.setCache_serves (d : Dev) (v : Tbl CacheEnt) : (d.setCache v).serves = d.serves := rfl
@[simp] theorem Dev.setCache_tenants (d : Dev) (v : Tbl CacheEnt) : (d.setCache v).tenants = d.tenants := rfl
@[simp] theorem Dev.setCache_reqs (d : Dev) (v : Tbl CacheEnt) : (d.setCache v).reqs = d.reqs := rfl
@[simp] theorem Dev.setCache_nextReq (d : Dev) (v : Tbl CacheEnt) : (d.setCache v).nextReq = d.nextReq := rfl
@[simp] theorem Dev.setCache_ofts (d : Dev) (v : Tbl CacheEnt) : (d.setCache v).ofts = d.ofts := rfl
@[simp] theorem Dev.setCache_oftInsts (d : Dev) (v : Tbl CacheEnt) : (d.setCache v).oftInsts = d.oftInsts := rfl
@[simp] theorem Dev.setCache_oftTimes (d : Dev) (v : Tbl CacheEnt) : (d.setCache v).oftTimes = d.oftTimes := rfl
@[simp] theorem Dev.setLines_time (d : Dev) (v : Tbl (List (Nat × Nat))) : (d.setLines v).time = d.time := rfl
@[simp] theorem Dev.setLines_out (d : Dev) (v : Tbl (List (Nat × Nat))) : (d.setLines v).out = d.out := rfl
@[simp] theorem Dev.setLines_draws (d : Dev) (v : Tbl (List (Nat × Nat))) : (d.setLines v).draws = d.draws := rfl
@[simp] theorem Dev.setLines_regs (d : Dev) (v : Tbl (List (Nat × Nat))) : (d.setLines v).regs = d.regs := rfl
@[simp] theorem Dev.setLines_ports (d : Dev) (v : Tbl (List (Nat × Nat))) : (d.setLines v).ports = d.ports := rfl
@[simp] theorem Dev.setLines_rings (d : Dev) (v : Tbl (List (Nat × Nat))) : (d.setLines v).rings = d.rings := rfl
@[simp] theorem Dev.setLines_errs (d : Dev) (v : Tbl (List (Nat × Nat))) : (d.setLines v).errs = d.errs := rfl
@[simp] theorem Dev.setLines_orders (d : Dev) (v : Tbl (List (Nat × Nat))) : (d.setLines v).orders = d.orders := rfl
@[simp] theorem Dev.setLines_sluices (d : Dev) (v : Tbl (List (Nat × Nat))) : (d.setLines v).sluices = d.sluices := rfl
@[simp] theorem Dev.setLines_msix (d : Dev) (v : Tbl (List (Nat × Nat))) : (d.setLines v).msix = d.msix := rfl
@[simp] theorem Dev.setLines_gates (d : Dev) (v : Tbl (List (Nat × Nat))) : (d.setLines v).gates = d.gates := rfl
@[simp] theorem Dev.setLines_waits (d : Dev) (v : Tbl (List (Nat × Nat))) : (d.setLines v).waits = d.waits := rfl
@[simp] theorem Dev.setLines_canal (d : Dev) (v : Tbl (List (Nat × Nat))) : (d.setLines v).canal = d.canal := rfl
@[simp] theorem Dev.setLines_ctxs (d : Dev) (v : Tbl (List (Nat × Nat))) : (d.setLines v).ctxs = d.ctxs := rfl
@[simp] theorem Dev.setLines_sched (d : Dev) (v : Tbl (List (Nat × Nat))) : (d.setLines v).sched = d.sched := rfl
@[simp] theorem Dev.setLines_survey (d : Dev) (v : Tbl (List (Nat × Nat))) : (d.setLines v).survey = d.survey := rfl
@[simp] theorem Dev.setLines_dists (d : Dev) (v : Tbl (List (Nat × Nat))) : (d.setLines v).dists = d.dists := rfl
@[simp] theorem Dev.setLines_devs (d : Dev) (v : Tbl (List (Nat × Nat))) : (d.setLines v).devs = d.devs := rfl
@[simp] theorem Dev.setLines_cxl (d : Dev) (v : Tbl (List (Nat × Nat))) : (d.setLines v).cxl = d.cxl := rfl
@[simp] theorem Dev.setLines_cache (d : Dev) (v : Tbl (List (Nat × Nat))) : (d.setLines v).cache = d.cache := rfl
@[simp] theorem Dev.setLines_lines (d : Dev) (v : Tbl (List (Nat × Nat))) : (d.setLines v).lines = v := rfl
@[simp] theorem Dev.setLines_mem (d : Dev) (v : Tbl (List (Nat × Nat))) : (d.setLines v).mem = d.mem := rfl
@[simp] theorem Dev.setLines_bad (d : Dev) (v : Tbl (List (Nat × Nat))) : (d.setLines v).bad = d.bad := rfl
@[simp] theorem Dev.setLines_memFaults (d : Dev) (v : Tbl (List (Nat × Nat))) : (d.setLines v).memFaults = d.memFaults := rfl
@[simp] theorem Dev.setLines_cores (d : Dev) (v : Tbl (List (Nat × Nat))) : (d.setLines v).cores = d.cores := rfl
@[simp] theorem Dev.setLines_fields (d : Dev) (v : Tbl (List (Nat × Nat))) : (d.setLines v).fields = d.fields := rfl
@[simp] theorem Dev.setLines_saves (d : Dev) (v : Tbl (List (Nat × Nat))) : (d.setLines v).saves = d.saves := rfl
@[simp] theorem Dev.setLines_startup (d : Dev) (v : Tbl (List (Nat × Nat))) : (d.setLines v).startup = d.startup := rfl
@[simp] theorem Dev.setLines_units (d : Dev) (v : Tbl (List (Nat × Nat))) : (d.setLines v).units = d.units := rfl
@[simp] theorem Dev.setLines_silt (d : Dev) (v : Tbl (List (Nat × Nat))) : (d.setLines v).silt = d.silt := rfl
@[simp] theorem Dev.setLines_lkk (d : Dev) (v : Tbl (List (Nat × Nat))) : (d.setLines v).lkk = d.lkk := rfl
@[simp] theorem Dev.setLines_flumes (d : Dev) (v : Tbl (List (Nat × Nat))) : (d.setLines v).flumes = d.flumes := rfl
@[simp] theorem Dev.setLines_divs (d : Dev) (v : Tbl (List (Nat × Nat))) : (d.setLines v).divs = d.divs := rfl
@[simp] theorem Dev.setLines_divPins (d : Dev) (v : Tbl (List (Nat × Nat))) : (d.setLines v).divPins = d.divPins := rfl
@[simp] theorem Dev.setLines_claims (d : Dev) (v : Tbl (List (Nat × Nat))) : (d.setLines v).claims = d.claims := rfl
@[simp] theorem Dev.setLines_steps (d : Dev) (v : Tbl (List (Nat × Nat))) : (d.setLines v).steps = d.steps := rfl
@[simp] theorem Dev.setLines_parts (d : Dev) (v : Tbl (List (Nat × Nat))) : (d.setLines v).parts = d.parts := rfl
@[simp] theorem Dev.setLines_cis (d : Dev) (v : Tbl (List (Nat × Nat))) : (d.setLines v).cis = d.cis := rfl
@[simp] theorem Dev.setLines_gauges (d : Dev) (v : Tbl (List (Nat × Nat))) : (d.setLines v).gauges = d.gauges := rfl
@[simp] theorem Dev.setLines_gaugeReports (d : Dev) (v : Tbl (List (Nat × Nat))) : (d.setLines v).gaugeReports = d.gaugeReports := rfl
@[simp] theorem Dev.setLines_cfls (d : Dev) (v : Tbl (List (Nat × Nat))) : (d.setLines v).cfls = d.cfls := rfl
@[simp] theorem Dev.setLines_cflElems (d : Dev) (v : Tbl (List (Nat × Nat))) : (d.setLines v).cflElems = d.cflElems := rfl
@[simp] theorem Dev.setLines_sec (d : Dev) (v : Tbl (List (Nat × Nat))) : (d.setLines v).sec = d.sec := rfl
@[simp] theorem Dev.setLines_power (d : Dev) (v : Tbl (List (Nat × Nat))) : (d.setLines v).power = d.power := rfl
@[simp] theorem Dev.setLines_wakes (d : Dev) (v : Tbl (List (Nat × Nat))) : (d.setLines v).wakes = d.wakes := rfl
@[simp] theorem Dev.setLines_serves (d : Dev) (v : Tbl (List (Nat × Nat))) : (d.setLines v).serves = d.serves := rfl
@[simp] theorem Dev.setLines_tenants (d : Dev) (v : Tbl (List (Nat × Nat))) : (d.setLines v).tenants = d.tenants := rfl
@[simp] theorem Dev.setLines_reqs (d : Dev) (v : Tbl (List (Nat × Nat))) : (d.setLines v).reqs = d.reqs := rfl
@[simp] theorem Dev.setLines_nextReq (d : Dev) (v : Tbl (List (Nat × Nat))) : (d.setLines v).nextReq = d.nextReq := rfl
@[simp] theorem Dev.setLines_ofts (d : Dev) (v : Tbl (List (Nat × Nat))) : (d.setLines v).ofts = d.ofts := rfl
@[simp] theorem Dev.setLines_oftInsts (d : Dev) (v : Tbl (List (Nat × Nat))) : (d.setLines v).oftInsts = d.oftInsts := rfl
@[simp] theorem Dev.setLines_oftTimes (d : Dev) (v : Tbl (List (Nat × Nat))) : (d.setLines v).oftTimes = d.oftTimes := rfl
@[simp] theorem Dev.setMem_time (d : Dev) (v : List Host.Cell) : (d.setMem v).time = d.time := rfl
@[simp] theorem Dev.setMem_out (d : Dev) (v : List Host.Cell) : (d.setMem v).out = d.out := rfl
@[simp] theorem Dev.setMem_draws (d : Dev) (v : List Host.Cell) : (d.setMem v).draws = d.draws := rfl
@[simp] theorem Dev.setMem_regs (d : Dev) (v : List Host.Cell) : (d.setMem v).regs = d.regs := rfl
@[simp] theorem Dev.setMem_ports (d : Dev) (v : List Host.Cell) : (d.setMem v).ports = d.ports := rfl
@[simp] theorem Dev.setMem_rings (d : Dev) (v : List Host.Cell) : (d.setMem v).rings = d.rings := rfl
@[simp] theorem Dev.setMem_errs (d : Dev) (v : List Host.Cell) : (d.setMem v).errs = d.errs := rfl
@[simp] theorem Dev.setMem_orders (d : Dev) (v : List Host.Cell) : (d.setMem v).orders = d.orders := rfl
@[simp] theorem Dev.setMem_sluices (d : Dev) (v : List Host.Cell) : (d.setMem v).sluices = d.sluices := rfl
@[simp] theorem Dev.setMem_msix (d : Dev) (v : List Host.Cell) : (d.setMem v).msix = d.msix := rfl
@[simp] theorem Dev.setMem_gates (d : Dev) (v : List Host.Cell) : (d.setMem v).gates = d.gates := rfl
@[simp] theorem Dev.setMem_waits (d : Dev) (v : List Host.Cell) : (d.setMem v).waits = d.waits := rfl
@[simp] theorem Dev.setMem_canal (d : Dev) (v : List Host.Cell) : (d.setMem v).canal = d.canal := rfl
@[simp] theorem Dev.setMem_ctxs (d : Dev) (v : List Host.Cell) : (d.setMem v).ctxs = d.ctxs := rfl
@[simp] theorem Dev.setMem_sched (d : Dev) (v : List Host.Cell) : (d.setMem v).sched = d.sched := rfl
@[simp] theorem Dev.setMem_survey (d : Dev) (v : List Host.Cell) : (d.setMem v).survey = d.survey := rfl
@[simp] theorem Dev.setMem_dists (d : Dev) (v : List Host.Cell) : (d.setMem v).dists = d.dists := rfl
@[simp] theorem Dev.setMem_devs (d : Dev) (v : List Host.Cell) : (d.setMem v).devs = d.devs := rfl
@[simp] theorem Dev.setMem_cxl (d : Dev) (v : List Host.Cell) : (d.setMem v).cxl = d.cxl := rfl
@[simp] theorem Dev.setMem_cache (d : Dev) (v : List Host.Cell) : (d.setMem v).cache = d.cache := rfl
@[simp] theorem Dev.setMem_lines (d : Dev) (v : List Host.Cell) : (d.setMem v).lines = d.lines := rfl
@[simp] theorem Dev.setMem_mem (d : Dev) (v : List Host.Cell) : (d.setMem v).mem = v := rfl
@[simp] theorem Dev.setMem_bad (d : Dev) (v : List Host.Cell) : (d.setMem v).bad = d.bad := rfl
@[simp] theorem Dev.setMem_memFaults (d : Dev) (v : List Host.Cell) : (d.setMem v).memFaults = d.memFaults := rfl
@[simp] theorem Dev.setMem_cores (d : Dev) (v : List Host.Cell) : (d.setMem v).cores = d.cores := rfl
@[simp] theorem Dev.setMem_fields (d : Dev) (v : List Host.Cell) : (d.setMem v).fields = d.fields := rfl
@[simp] theorem Dev.setMem_saves (d : Dev) (v : List Host.Cell) : (d.setMem v).saves = d.saves := rfl
@[simp] theorem Dev.setMem_startup (d : Dev) (v : List Host.Cell) : (d.setMem v).startup = d.startup := rfl
@[simp] theorem Dev.setMem_units (d : Dev) (v : List Host.Cell) : (d.setMem v).units = d.units := rfl
@[simp] theorem Dev.setMem_silt (d : Dev) (v : List Host.Cell) : (d.setMem v).silt = d.silt := rfl
@[simp] theorem Dev.setMem_lkk (d : Dev) (v : List Host.Cell) : (d.setMem v).lkk = d.lkk := rfl
@[simp] theorem Dev.setMem_flumes (d : Dev) (v : List Host.Cell) : (d.setMem v).flumes = d.flumes := rfl
@[simp] theorem Dev.setMem_divs (d : Dev) (v : List Host.Cell) : (d.setMem v).divs = d.divs := rfl
@[simp] theorem Dev.setMem_divPins (d : Dev) (v : List Host.Cell) : (d.setMem v).divPins = d.divPins := rfl
@[simp] theorem Dev.setMem_claims (d : Dev) (v : List Host.Cell) : (d.setMem v).claims = d.claims := rfl
@[simp] theorem Dev.setMem_steps (d : Dev) (v : List Host.Cell) : (d.setMem v).steps = d.steps := rfl
@[simp] theorem Dev.setMem_parts (d : Dev) (v : List Host.Cell) : (d.setMem v).parts = d.parts := rfl
@[simp] theorem Dev.setMem_cis (d : Dev) (v : List Host.Cell) : (d.setMem v).cis = d.cis := rfl
@[simp] theorem Dev.setMem_gauges (d : Dev) (v : List Host.Cell) : (d.setMem v).gauges = d.gauges := rfl
@[simp] theorem Dev.setMem_gaugeReports (d : Dev) (v : List Host.Cell) : (d.setMem v).gaugeReports = d.gaugeReports := rfl
@[simp] theorem Dev.setMem_cfls (d : Dev) (v : List Host.Cell) : (d.setMem v).cfls = d.cfls := rfl
@[simp] theorem Dev.setMem_cflElems (d : Dev) (v : List Host.Cell) : (d.setMem v).cflElems = d.cflElems := rfl
@[simp] theorem Dev.setMem_sec (d : Dev) (v : List Host.Cell) : (d.setMem v).sec = d.sec := rfl
@[simp] theorem Dev.setMem_power (d : Dev) (v : List Host.Cell) : (d.setMem v).power = d.power := rfl
@[simp] theorem Dev.setMem_wakes (d : Dev) (v : List Host.Cell) : (d.setMem v).wakes = d.wakes := rfl
@[simp] theorem Dev.setMem_serves (d : Dev) (v : List Host.Cell) : (d.setMem v).serves = d.serves := rfl
@[simp] theorem Dev.setMem_tenants (d : Dev) (v : List Host.Cell) : (d.setMem v).tenants = d.tenants := rfl
@[simp] theorem Dev.setMem_reqs (d : Dev) (v : List Host.Cell) : (d.setMem v).reqs = d.reqs := rfl
@[simp] theorem Dev.setMem_nextReq (d : Dev) (v : List Host.Cell) : (d.setMem v).nextReq = d.nextReq := rfl
@[simp] theorem Dev.setMem_ofts (d : Dev) (v : List Host.Cell) : (d.setMem v).ofts = d.ofts := rfl
@[simp] theorem Dev.setMem_oftInsts (d : Dev) (v : List Host.Cell) : (d.setMem v).oftInsts = d.oftInsts := rfl
@[simp] theorem Dev.setMem_oftTimes (d : Dev) (v : List Host.Cell) : (d.setMem v).oftTimes = d.oftTimes := rfl
@[simp] theorem Dev.setBad_time (d : Dev) (v : List Nat) : (d.setBad v).time = d.time := rfl
@[simp] theorem Dev.setBad_out (d : Dev) (v : List Nat) : (d.setBad v).out = d.out := rfl
@[simp] theorem Dev.setBad_draws (d : Dev) (v : List Nat) : (d.setBad v).draws = d.draws := rfl
@[simp] theorem Dev.setBad_regs (d : Dev) (v : List Nat) : (d.setBad v).regs = d.regs := rfl
@[simp] theorem Dev.setBad_ports (d : Dev) (v : List Nat) : (d.setBad v).ports = d.ports := rfl
@[simp] theorem Dev.setBad_rings (d : Dev) (v : List Nat) : (d.setBad v).rings = d.rings := rfl
@[simp] theorem Dev.setBad_errs (d : Dev) (v : List Nat) : (d.setBad v).errs = d.errs := rfl
@[simp] theorem Dev.setBad_orders (d : Dev) (v : List Nat) : (d.setBad v).orders = d.orders := rfl
@[simp] theorem Dev.setBad_sluices (d : Dev) (v : List Nat) : (d.setBad v).sluices = d.sluices := rfl
@[simp] theorem Dev.setBad_msix (d : Dev) (v : List Nat) : (d.setBad v).msix = d.msix := rfl
@[simp] theorem Dev.setBad_gates (d : Dev) (v : List Nat) : (d.setBad v).gates = d.gates := rfl
@[simp] theorem Dev.setBad_waits (d : Dev) (v : List Nat) : (d.setBad v).waits = d.waits := rfl
@[simp] theorem Dev.setBad_canal (d : Dev) (v : List Nat) : (d.setBad v).canal = d.canal := rfl
@[simp] theorem Dev.setBad_ctxs (d : Dev) (v : List Nat) : (d.setBad v).ctxs = d.ctxs := rfl
@[simp] theorem Dev.setBad_sched (d : Dev) (v : List Nat) : (d.setBad v).sched = d.sched := rfl
@[simp] theorem Dev.setBad_survey (d : Dev) (v : List Nat) : (d.setBad v).survey = d.survey := rfl
@[simp] theorem Dev.setBad_dists (d : Dev) (v : List Nat) : (d.setBad v).dists = d.dists := rfl
@[simp] theorem Dev.setBad_devs (d : Dev) (v : List Nat) : (d.setBad v).devs = d.devs := rfl
@[simp] theorem Dev.setBad_cxl (d : Dev) (v : List Nat) : (d.setBad v).cxl = d.cxl := rfl
@[simp] theorem Dev.setBad_cache (d : Dev) (v : List Nat) : (d.setBad v).cache = d.cache := rfl
@[simp] theorem Dev.setBad_lines (d : Dev) (v : List Nat) : (d.setBad v).lines = d.lines := rfl
@[simp] theorem Dev.setBad_mem (d : Dev) (v : List Nat) : (d.setBad v).mem = d.mem := rfl
@[simp] theorem Dev.setBad_bad (d : Dev) (v : List Nat) : (d.setBad v).bad = v := rfl
@[simp] theorem Dev.setBad_memFaults (d : Dev) (v : List Nat) : (d.setBad v).memFaults = d.memFaults := rfl
@[simp] theorem Dev.setBad_cores (d : Dev) (v : List Nat) : (d.setBad v).cores = d.cores := rfl
@[simp] theorem Dev.setBad_fields (d : Dev) (v : List Nat) : (d.setBad v).fields = d.fields := rfl
@[simp] theorem Dev.setBad_saves (d : Dev) (v : List Nat) : (d.setBad v).saves = d.saves := rfl
@[simp] theorem Dev.setBad_startup (d : Dev) (v : List Nat) : (d.setBad v).startup = d.startup := rfl
@[simp] theorem Dev.setBad_units (d : Dev) (v : List Nat) : (d.setBad v).units = d.units := rfl
@[simp] theorem Dev.setBad_silt (d : Dev) (v : List Nat) : (d.setBad v).silt = d.silt := rfl
@[simp] theorem Dev.setBad_lkk (d : Dev) (v : List Nat) : (d.setBad v).lkk = d.lkk := rfl
@[simp] theorem Dev.setBad_flumes (d : Dev) (v : List Nat) : (d.setBad v).flumes = d.flumes := rfl
@[simp] theorem Dev.setBad_divs (d : Dev) (v : List Nat) : (d.setBad v).divs = d.divs := rfl
@[simp] theorem Dev.setBad_divPins (d : Dev) (v : List Nat) : (d.setBad v).divPins = d.divPins := rfl
@[simp] theorem Dev.setBad_claims (d : Dev) (v : List Nat) : (d.setBad v).claims = d.claims := rfl
@[simp] theorem Dev.setBad_steps (d : Dev) (v : List Nat) : (d.setBad v).steps = d.steps := rfl
@[simp] theorem Dev.setBad_parts (d : Dev) (v : List Nat) : (d.setBad v).parts = d.parts := rfl
@[simp] theorem Dev.setBad_cis (d : Dev) (v : List Nat) : (d.setBad v).cis = d.cis := rfl
@[simp] theorem Dev.setBad_gauges (d : Dev) (v : List Nat) : (d.setBad v).gauges = d.gauges := rfl
@[simp] theorem Dev.setBad_gaugeReports (d : Dev) (v : List Nat) : (d.setBad v).gaugeReports = d.gaugeReports := rfl
@[simp] theorem Dev.setBad_cfls (d : Dev) (v : List Nat) : (d.setBad v).cfls = d.cfls := rfl
@[simp] theorem Dev.setBad_cflElems (d : Dev) (v : List Nat) : (d.setBad v).cflElems = d.cflElems := rfl
@[simp] theorem Dev.setBad_sec (d : Dev) (v : List Nat) : (d.setBad v).sec = d.sec := rfl
@[simp] theorem Dev.setBad_power (d : Dev) (v : List Nat) : (d.setBad v).power = d.power := rfl
@[simp] theorem Dev.setBad_wakes (d : Dev) (v : List Nat) : (d.setBad v).wakes = d.wakes := rfl
@[simp] theorem Dev.setBad_serves (d : Dev) (v : List Nat) : (d.setBad v).serves = d.serves := rfl
@[simp] theorem Dev.setBad_tenants (d : Dev) (v : List Nat) : (d.setBad v).tenants = d.tenants := rfl
@[simp] theorem Dev.setBad_reqs (d : Dev) (v : List Nat) : (d.setBad v).reqs = d.reqs := rfl
@[simp] theorem Dev.setBad_nextReq (d : Dev) (v : List Nat) : (d.setBad v).nextReq = d.nextReq := rfl
@[simp] theorem Dev.setBad_ofts (d : Dev) (v : List Nat) : (d.setBad v).ofts = d.ofts := rfl
@[simp] theorem Dev.setBad_oftInsts (d : Dev) (v : List Nat) : (d.setBad v).oftInsts = d.oftInsts := rfl
@[simp] theorem Dev.setBad_oftTimes (d : Dev) (v : List Nat) : (d.setBad v).oftTimes = d.oftTimes := rfl
@[simp] theorem Dev.setMemFaults_time (d : Dev) (v : List MemFault) : (d.setMemFaults v).time = d.time := rfl
@[simp] theorem Dev.setMemFaults_out (d : Dev) (v : List MemFault) : (d.setMemFaults v).out = d.out := rfl
@[simp] theorem Dev.setMemFaults_draws (d : Dev) (v : List MemFault) : (d.setMemFaults v).draws = d.draws := rfl
@[simp] theorem Dev.setMemFaults_regs (d : Dev) (v : List MemFault) : (d.setMemFaults v).regs = d.regs := rfl
@[simp] theorem Dev.setMemFaults_ports (d : Dev) (v : List MemFault) : (d.setMemFaults v).ports = d.ports := rfl
@[simp] theorem Dev.setMemFaults_rings (d : Dev) (v : List MemFault) : (d.setMemFaults v).rings = d.rings := rfl
@[simp] theorem Dev.setMemFaults_errs (d : Dev) (v : List MemFault) : (d.setMemFaults v).errs = d.errs := rfl
@[simp] theorem Dev.setMemFaults_orders (d : Dev) (v : List MemFault) : (d.setMemFaults v).orders = d.orders := rfl
@[simp] theorem Dev.setMemFaults_sluices (d : Dev) (v : List MemFault) : (d.setMemFaults v).sluices = d.sluices := rfl
@[simp] theorem Dev.setMemFaults_msix (d : Dev) (v : List MemFault) : (d.setMemFaults v).msix = d.msix := rfl
@[simp] theorem Dev.setMemFaults_gates (d : Dev) (v : List MemFault) : (d.setMemFaults v).gates = d.gates := rfl
@[simp] theorem Dev.setMemFaults_waits (d : Dev) (v : List MemFault) : (d.setMemFaults v).waits = d.waits := rfl
@[simp] theorem Dev.setMemFaults_canal (d : Dev) (v : List MemFault) : (d.setMemFaults v).canal = d.canal := rfl
@[simp] theorem Dev.setMemFaults_ctxs (d : Dev) (v : List MemFault) : (d.setMemFaults v).ctxs = d.ctxs := rfl
@[simp] theorem Dev.setMemFaults_sched (d : Dev) (v : List MemFault) : (d.setMemFaults v).sched = d.sched := rfl
@[simp] theorem Dev.setMemFaults_survey (d : Dev) (v : List MemFault) : (d.setMemFaults v).survey = d.survey := rfl
@[simp] theorem Dev.setMemFaults_dists (d : Dev) (v : List MemFault) : (d.setMemFaults v).dists = d.dists := rfl
@[simp] theorem Dev.setMemFaults_devs (d : Dev) (v : List MemFault) : (d.setMemFaults v).devs = d.devs := rfl
@[simp] theorem Dev.setMemFaults_cxl (d : Dev) (v : List MemFault) : (d.setMemFaults v).cxl = d.cxl := rfl
@[simp] theorem Dev.setMemFaults_cache (d : Dev) (v : List MemFault) : (d.setMemFaults v).cache = d.cache := rfl
@[simp] theorem Dev.setMemFaults_lines (d : Dev) (v : List MemFault) : (d.setMemFaults v).lines = d.lines := rfl
@[simp] theorem Dev.setMemFaults_mem (d : Dev) (v : List MemFault) : (d.setMemFaults v).mem = d.mem := rfl
@[simp] theorem Dev.setMemFaults_bad (d : Dev) (v : List MemFault) : (d.setMemFaults v).bad = d.bad := rfl
@[simp] theorem Dev.setMemFaults_memFaults (d : Dev) (v : List MemFault) : (d.setMemFaults v).memFaults = v := rfl
@[simp] theorem Dev.setMemFaults_cores (d : Dev) (v : List MemFault) : (d.setMemFaults v).cores = d.cores := rfl
@[simp] theorem Dev.setMemFaults_fields (d : Dev) (v : List MemFault) : (d.setMemFaults v).fields = d.fields := rfl
@[simp] theorem Dev.setMemFaults_saves (d : Dev) (v : List MemFault) : (d.setMemFaults v).saves = d.saves := rfl
@[simp] theorem Dev.setMemFaults_startup (d : Dev) (v : List MemFault) : (d.setMemFaults v).startup = d.startup := rfl
@[simp] theorem Dev.setMemFaults_units (d : Dev) (v : List MemFault) : (d.setMemFaults v).units = d.units := rfl
@[simp] theorem Dev.setMemFaults_silt (d : Dev) (v : List MemFault) : (d.setMemFaults v).silt = d.silt := rfl
@[simp] theorem Dev.setMemFaults_lkk (d : Dev) (v : List MemFault) : (d.setMemFaults v).lkk = d.lkk := rfl
@[simp] theorem Dev.setMemFaults_flumes (d : Dev) (v : List MemFault) : (d.setMemFaults v).flumes = d.flumes := rfl
@[simp] theorem Dev.setMemFaults_divs (d : Dev) (v : List MemFault) : (d.setMemFaults v).divs = d.divs := rfl
@[simp] theorem Dev.setMemFaults_divPins (d : Dev) (v : List MemFault) : (d.setMemFaults v).divPins = d.divPins := rfl
@[simp] theorem Dev.setMemFaults_claims (d : Dev) (v : List MemFault) : (d.setMemFaults v).claims = d.claims := rfl
@[simp] theorem Dev.setMemFaults_steps (d : Dev) (v : List MemFault) : (d.setMemFaults v).steps = d.steps := rfl
@[simp] theorem Dev.setMemFaults_parts (d : Dev) (v : List MemFault) : (d.setMemFaults v).parts = d.parts := rfl
@[simp] theorem Dev.setMemFaults_cis (d : Dev) (v : List MemFault) : (d.setMemFaults v).cis = d.cis := rfl
@[simp] theorem Dev.setMemFaults_gauges (d : Dev) (v : List MemFault) : (d.setMemFaults v).gauges = d.gauges := rfl
@[simp] theorem Dev.setMemFaults_gaugeReports (d : Dev) (v : List MemFault) : (d.setMemFaults v).gaugeReports = d.gaugeReports := rfl
@[simp] theorem Dev.setMemFaults_cfls (d : Dev) (v : List MemFault) : (d.setMemFaults v).cfls = d.cfls := rfl
@[simp] theorem Dev.setMemFaults_cflElems (d : Dev) (v : List MemFault) : (d.setMemFaults v).cflElems = d.cflElems := rfl
@[simp] theorem Dev.setMemFaults_sec (d : Dev) (v : List MemFault) : (d.setMemFaults v).sec = d.sec := rfl
@[simp] theorem Dev.setMemFaults_power (d : Dev) (v : List MemFault) : (d.setMemFaults v).power = d.power := rfl
@[simp] theorem Dev.setMemFaults_wakes (d : Dev) (v : List MemFault) : (d.setMemFaults v).wakes = d.wakes := rfl
@[simp] theorem Dev.setMemFaults_serves (d : Dev) (v : List MemFault) : (d.setMemFaults v).serves = d.serves := rfl
@[simp] theorem Dev.setMemFaults_tenants (d : Dev) (v : List MemFault) : (d.setMemFaults v).tenants = d.tenants := rfl
@[simp] theorem Dev.setMemFaults_reqs (d : Dev) (v : List MemFault) : (d.setMemFaults v).reqs = d.reqs := rfl
@[simp] theorem Dev.setMemFaults_nextReq (d : Dev) (v : List MemFault) : (d.setMemFaults v).nextReq = d.nextReq := rfl
@[simp] theorem Dev.setMemFaults_ofts (d : Dev) (v : List MemFault) : (d.setMemFaults v).ofts = d.ofts := rfl
@[simp] theorem Dev.setMemFaults_oftInsts (d : Dev) (v : List MemFault) : (d.setMemFaults v).oftInsts = d.oftInsts := rfl
@[simp] theorem Dev.setMemFaults_oftTimes (d : Dev) (v : List MemFault) : (d.setMemFaults v).oftTimes = d.oftTimes := rfl
@[simp] theorem Dev.setCores_time (d : Dev) (v : Tbl Core) : (d.setCores v).time = d.time := rfl
@[simp] theorem Dev.setCores_out (d : Dev) (v : Tbl Core) : (d.setCores v).out = d.out := rfl
@[simp] theorem Dev.setCores_draws (d : Dev) (v : Tbl Core) : (d.setCores v).draws = d.draws := rfl
@[simp] theorem Dev.setCores_regs (d : Dev) (v : Tbl Core) : (d.setCores v).regs = d.regs := rfl
@[simp] theorem Dev.setCores_ports (d : Dev) (v : Tbl Core) : (d.setCores v).ports = d.ports := rfl
@[simp] theorem Dev.setCores_rings (d : Dev) (v : Tbl Core) : (d.setCores v).rings = d.rings := rfl
@[simp] theorem Dev.setCores_errs (d : Dev) (v : Tbl Core) : (d.setCores v).errs = d.errs := rfl
@[simp] theorem Dev.setCores_orders (d : Dev) (v : Tbl Core) : (d.setCores v).orders = d.orders := rfl
@[simp] theorem Dev.setCores_sluices (d : Dev) (v : Tbl Core) : (d.setCores v).sluices = d.sluices := rfl
@[simp] theorem Dev.setCores_msix (d : Dev) (v : Tbl Core) : (d.setCores v).msix = d.msix := rfl
@[simp] theorem Dev.setCores_gates (d : Dev) (v : Tbl Core) : (d.setCores v).gates = d.gates := rfl
@[simp] theorem Dev.setCores_waits (d : Dev) (v : Tbl Core) : (d.setCores v).waits = d.waits := rfl
@[simp] theorem Dev.setCores_canal (d : Dev) (v : Tbl Core) : (d.setCores v).canal = d.canal := rfl
@[simp] theorem Dev.setCores_ctxs (d : Dev) (v : Tbl Core) : (d.setCores v).ctxs = d.ctxs := rfl
@[simp] theorem Dev.setCores_sched (d : Dev) (v : Tbl Core) : (d.setCores v).sched = d.sched := rfl
@[simp] theorem Dev.setCores_survey (d : Dev) (v : Tbl Core) : (d.setCores v).survey = d.survey := rfl
@[simp] theorem Dev.setCores_dists (d : Dev) (v : Tbl Core) : (d.setCores v).dists = d.dists := rfl
@[simp] theorem Dev.setCores_devs (d : Dev) (v : Tbl Core) : (d.setCores v).devs = d.devs := rfl
@[simp] theorem Dev.setCores_cxl (d : Dev) (v : Tbl Core) : (d.setCores v).cxl = d.cxl := rfl
@[simp] theorem Dev.setCores_cache (d : Dev) (v : Tbl Core) : (d.setCores v).cache = d.cache := rfl
@[simp] theorem Dev.setCores_lines (d : Dev) (v : Tbl Core) : (d.setCores v).lines = d.lines := rfl
@[simp] theorem Dev.setCores_mem (d : Dev) (v : Tbl Core) : (d.setCores v).mem = d.mem := rfl
@[simp] theorem Dev.setCores_bad (d : Dev) (v : Tbl Core) : (d.setCores v).bad = d.bad := rfl
@[simp] theorem Dev.setCores_memFaults (d : Dev) (v : Tbl Core) : (d.setCores v).memFaults = d.memFaults := rfl
@[simp] theorem Dev.setCores_cores (d : Dev) (v : Tbl Core) : (d.setCores v).cores = v := rfl
@[simp] theorem Dev.setCores_fields (d : Dev) (v : Tbl Core) : (d.setCores v).fields = d.fields := rfl
@[simp] theorem Dev.setCores_saves (d : Dev) (v : Tbl Core) : (d.setCores v).saves = d.saves := rfl
@[simp] theorem Dev.setCores_startup (d : Dev) (v : Tbl Core) : (d.setCores v).startup = d.startup := rfl
@[simp] theorem Dev.setCores_units (d : Dev) (v : Tbl Core) : (d.setCores v).units = d.units := rfl
@[simp] theorem Dev.setCores_silt (d : Dev) (v : Tbl Core) : (d.setCores v).silt = d.silt := rfl
@[simp] theorem Dev.setCores_lkk (d : Dev) (v : Tbl Core) : (d.setCores v).lkk = d.lkk := rfl
@[simp] theorem Dev.setCores_flumes (d : Dev) (v : Tbl Core) : (d.setCores v).flumes = d.flumes := rfl
@[simp] theorem Dev.setCores_divs (d : Dev) (v : Tbl Core) : (d.setCores v).divs = d.divs := rfl
@[simp] theorem Dev.setCores_divPins (d : Dev) (v : Tbl Core) : (d.setCores v).divPins = d.divPins := rfl
@[simp] theorem Dev.setCores_claims (d : Dev) (v : Tbl Core) : (d.setCores v).claims = d.claims := rfl
@[simp] theorem Dev.setCores_steps (d : Dev) (v : Tbl Core) : (d.setCores v).steps = d.steps := rfl
@[simp] theorem Dev.setCores_parts (d : Dev) (v : Tbl Core) : (d.setCores v).parts = d.parts := rfl
@[simp] theorem Dev.setCores_cis (d : Dev) (v : Tbl Core) : (d.setCores v).cis = d.cis := rfl
@[simp] theorem Dev.setCores_gauges (d : Dev) (v : Tbl Core) : (d.setCores v).gauges = d.gauges := rfl
@[simp] theorem Dev.setCores_gaugeReports (d : Dev) (v : Tbl Core) : (d.setCores v).gaugeReports = d.gaugeReports := rfl
@[simp] theorem Dev.setCores_cfls (d : Dev) (v : Tbl Core) : (d.setCores v).cfls = d.cfls := rfl
@[simp] theorem Dev.setCores_cflElems (d : Dev) (v : Tbl Core) : (d.setCores v).cflElems = d.cflElems := rfl
@[simp] theorem Dev.setCores_sec (d : Dev) (v : Tbl Core) : (d.setCores v).sec = d.sec := rfl
@[simp] theorem Dev.setCores_power (d : Dev) (v : Tbl Core) : (d.setCores v).power = d.power := rfl
@[simp] theorem Dev.setCores_wakes (d : Dev) (v : Tbl Core) : (d.setCores v).wakes = d.wakes := rfl
@[simp] theorem Dev.setCores_serves (d : Dev) (v : Tbl Core) : (d.setCores v).serves = d.serves := rfl
@[simp] theorem Dev.setCores_tenants (d : Dev) (v : Tbl Core) : (d.setCores v).tenants = d.tenants := rfl
@[simp] theorem Dev.setCores_reqs (d : Dev) (v : Tbl Core) : (d.setCores v).reqs = d.reqs := rfl
@[simp] theorem Dev.setCores_nextReq (d : Dev) (v : Tbl Core) : (d.setCores v).nextReq = d.nextReq := rfl
@[simp] theorem Dev.setCores_ofts (d : Dev) (v : Tbl Core) : (d.setCores v).ofts = d.ofts := rfl
@[simp] theorem Dev.setCores_oftInsts (d : Dev) (v : Tbl Core) : (d.setCores v).oftInsts = d.oftInsts := rfl
@[simp] theorem Dev.setCores_oftTimes (d : Dev) (v : Tbl Core) : (d.setCores v).oftTimes = d.oftTimes := rfl
@[simp] theorem Dev.setFields_time (d : Dev) (v : Tbl Field) : (d.setFields v).time = d.time := rfl
@[simp] theorem Dev.setFields_out (d : Dev) (v : Tbl Field) : (d.setFields v).out = d.out := rfl
@[simp] theorem Dev.setFields_draws (d : Dev) (v : Tbl Field) : (d.setFields v).draws = d.draws := rfl
@[simp] theorem Dev.setFields_regs (d : Dev) (v : Tbl Field) : (d.setFields v).regs = d.regs := rfl
@[simp] theorem Dev.setFields_ports (d : Dev) (v : Tbl Field) : (d.setFields v).ports = d.ports := rfl
@[simp] theorem Dev.setFields_rings (d : Dev) (v : Tbl Field) : (d.setFields v).rings = d.rings := rfl
@[simp] theorem Dev.setFields_errs (d : Dev) (v : Tbl Field) : (d.setFields v).errs = d.errs := rfl
@[simp] theorem Dev.setFields_orders (d : Dev) (v : Tbl Field) : (d.setFields v).orders = d.orders := rfl
@[simp] theorem Dev.setFields_sluices (d : Dev) (v : Tbl Field) : (d.setFields v).sluices = d.sluices := rfl
@[simp] theorem Dev.setFields_msix (d : Dev) (v : Tbl Field) : (d.setFields v).msix = d.msix := rfl
@[simp] theorem Dev.setFields_gates (d : Dev) (v : Tbl Field) : (d.setFields v).gates = d.gates := rfl
@[simp] theorem Dev.setFields_waits (d : Dev) (v : Tbl Field) : (d.setFields v).waits = d.waits := rfl
@[simp] theorem Dev.setFields_canal (d : Dev) (v : Tbl Field) : (d.setFields v).canal = d.canal := rfl
@[simp] theorem Dev.setFields_ctxs (d : Dev) (v : Tbl Field) : (d.setFields v).ctxs = d.ctxs := rfl
@[simp] theorem Dev.setFields_sched (d : Dev) (v : Tbl Field) : (d.setFields v).sched = d.sched := rfl
@[simp] theorem Dev.setFields_survey (d : Dev) (v : Tbl Field) : (d.setFields v).survey = d.survey := rfl
@[simp] theorem Dev.setFields_dists (d : Dev) (v : Tbl Field) : (d.setFields v).dists = d.dists := rfl
@[simp] theorem Dev.setFields_devs (d : Dev) (v : Tbl Field) : (d.setFields v).devs = d.devs := rfl
@[simp] theorem Dev.setFields_cxl (d : Dev) (v : Tbl Field) : (d.setFields v).cxl = d.cxl := rfl
@[simp] theorem Dev.setFields_cache (d : Dev) (v : Tbl Field) : (d.setFields v).cache = d.cache := rfl
@[simp] theorem Dev.setFields_lines (d : Dev) (v : Tbl Field) : (d.setFields v).lines = d.lines := rfl
@[simp] theorem Dev.setFields_mem (d : Dev) (v : Tbl Field) : (d.setFields v).mem = d.mem := rfl
@[simp] theorem Dev.setFields_bad (d : Dev) (v : Tbl Field) : (d.setFields v).bad = d.bad := rfl
@[simp] theorem Dev.setFields_memFaults (d : Dev) (v : Tbl Field) : (d.setFields v).memFaults = d.memFaults := rfl
@[simp] theorem Dev.setFields_cores (d : Dev) (v : Tbl Field) : (d.setFields v).cores = d.cores := rfl
@[simp] theorem Dev.setFields_fields (d : Dev) (v : Tbl Field) : (d.setFields v).fields = v := rfl
@[simp] theorem Dev.setFields_saves (d : Dev) (v : Tbl Field) : (d.setFields v).saves = d.saves := rfl
@[simp] theorem Dev.setFields_startup (d : Dev) (v : Tbl Field) : (d.setFields v).startup = d.startup := rfl
@[simp] theorem Dev.setFields_units (d : Dev) (v : Tbl Field) : (d.setFields v).units = d.units := rfl
@[simp] theorem Dev.setFields_silt (d : Dev) (v : Tbl Field) : (d.setFields v).silt = d.silt := rfl
@[simp] theorem Dev.setFields_lkk (d : Dev) (v : Tbl Field) : (d.setFields v).lkk = d.lkk := rfl
@[simp] theorem Dev.setFields_flumes (d : Dev) (v : Tbl Field) : (d.setFields v).flumes = d.flumes := rfl
@[simp] theorem Dev.setFields_divs (d : Dev) (v : Tbl Field) : (d.setFields v).divs = d.divs := rfl
@[simp] theorem Dev.setFields_divPins (d : Dev) (v : Tbl Field) : (d.setFields v).divPins = d.divPins := rfl
@[simp] theorem Dev.setFields_claims (d : Dev) (v : Tbl Field) : (d.setFields v).claims = d.claims := rfl
@[simp] theorem Dev.setFields_steps (d : Dev) (v : Tbl Field) : (d.setFields v).steps = d.steps := rfl
@[simp] theorem Dev.setFields_parts (d : Dev) (v : Tbl Field) : (d.setFields v).parts = d.parts := rfl
@[simp] theorem Dev.setFields_cis (d : Dev) (v : Tbl Field) : (d.setFields v).cis = d.cis := rfl
@[simp] theorem Dev.setFields_gauges (d : Dev) (v : Tbl Field) : (d.setFields v).gauges = d.gauges := rfl
@[simp] theorem Dev.setFields_gaugeReports (d : Dev) (v : Tbl Field) : (d.setFields v).gaugeReports = d.gaugeReports := rfl
@[simp] theorem Dev.setFields_cfls (d : Dev) (v : Tbl Field) : (d.setFields v).cfls = d.cfls := rfl
@[simp] theorem Dev.setFields_cflElems (d : Dev) (v : Tbl Field) : (d.setFields v).cflElems = d.cflElems := rfl
@[simp] theorem Dev.setFields_sec (d : Dev) (v : Tbl Field) : (d.setFields v).sec = d.sec := rfl
@[simp] theorem Dev.setFields_power (d : Dev) (v : Tbl Field) : (d.setFields v).power = d.power := rfl
@[simp] theorem Dev.setFields_wakes (d : Dev) (v : Tbl Field) : (d.setFields v).wakes = d.wakes := rfl
@[simp] theorem Dev.setFields_serves (d : Dev) (v : Tbl Field) : (d.setFields v).serves = d.serves := rfl
@[simp] theorem Dev.setFields_tenants (d : Dev) (v : Tbl Field) : (d.setFields v).tenants = d.tenants := rfl
@[simp] theorem Dev.setFields_reqs (d : Dev) (v : Tbl Field) : (d.setFields v).reqs = d.reqs := rfl
@[simp] theorem Dev.setFields_nextReq (d : Dev) (v : Tbl Field) : (d.setFields v).nextReq = d.nextReq := rfl
@[simp] theorem Dev.setFields_ofts (d : Dev) (v : Tbl Field) : (d.setFields v).ofts = d.ofts := rfl
@[simp] theorem Dev.setFields_oftInsts (d : Dev) (v : Tbl Field) : (d.setFields v).oftInsts = d.oftInsts := rfl
@[simp] theorem Dev.setFields_oftTimes (d : Dev) (v : Tbl Field) : (d.setFields v).oftTimes = d.oftTimes := rfl
@[simp] theorem Dev.setSaves_time (d : Dev) (v : List SaveRec) : (d.setSaves v).time = d.time := rfl
@[simp] theorem Dev.setSaves_out (d : Dev) (v : List SaveRec) : (d.setSaves v).out = d.out := rfl
@[simp] theorem Dev.setSaves_draws (d : Dev) (v : List SaveRec) : (d.setSaves v).draws = d.draws := rfl
@[simp] theorem Dev.setSaves_regs (d : Dev) (v : List SaveRec) : (d.setSaves v).regs = d.regs := rfl
@[simp] theorem Dev.setSaves_ports (d : Dev) (v : List SaveRec) : (d.setSaves v).ports = d.ports := rfl
@[simp] theorem Dev.setSaves_rings (d : Dev) (v : List SaveRec) : (d.setSaves v).rings = d.rings := rfl
@[simp] theorem Dev.setSaves_errs (d : Dev) (v : List SaveRec) : (d.setSaves v).errs = d.errs := rfl
@[simp] theorem Dev.setSaves_orders (d : Dev) (v : List SaveRec) : (d.setSaves v).orders = d.orders := rfl
@[simp] theorem Dev.setSaves_sluices (d : Dev) (v : List SaveRec) : (d.setSaves v).sluices = d.sluices := rfl
@[simp] theorem Dev.setSaves_msix (d : Dev) (v : List SaveRec) : (d.setSaves v).msix = d.msix := rfl
@[simp] theorem Dev.setSaves_gates (d : Dev) (v : List SaveRec) : (d.setSaves v).gates = d.gates := rfl
@[simp] theorem Dev.setSaves_waits (d : Dev) (v : List SaveRec) : (d.setSaves v).waits = d.waits := rfl
@[simp] theorem Dev.setSaves_canal (d : Dev) (v : List SaveRec) : (d.setSaves v).canal = d.canal := rfl
@[simp] theorem Dev.setSaves_ctxs (d : Dev) (v : List SaveRec) : (d.setSaves v).ctxs = d.ctxs := rfl
@[simp] theorem Dev.setSaves_sched (d : Dev) (v : List SaveRec) : (d.setSaves v).sched = d.sched := rfl
@[simp] theorem Dev.setSaves_survey (d : Dev) (v : List SaveRec) : (d.setSaves v).survey = d.survey := rfl
@[simp] theorem Dev.setSaves_dists (d : Dev) (v : List SaveRec) : (d.setSaves v).dists = d.dists := rfl
@[simp] theorem Dev.setSaves_devs (d : Dev) (v : List SaveRec) : (d.setSaves v).devs = d.devs := rfl
@[simp] theorem Dev.setSaves_cxl (d : Dev) (v : List SaveRec) : (d.setSaves v).cxl = d.cxl := rfl
@[simp] theorem Dev.setSaves_cache (d : Dev) (v : List SaveRec) : (d.setSaves v).cache = d.cache := rfl
@[simp] theorem Dev.setSaves_lines (d : Dev) (v : List SaveRec) : (d.setSaves v).lines = d.lines := rfl
@[simp] theorem Dev.setSaves_mem (d : Dev) (v : List SaveRec) : (d.setSaves v).mem = d.mem := rfl
@[simp] theorem Dev.setSaves_bad (d : Dev) (v : List SaveRec) : (d.setSaves v).bad = d.bad := rfl
@[simp] theorem Dev.setSaves_memFaults (d : Dev) (v : List SaveRec) : (d.setSaves v).memFaults = d.memFaults := rfl
@[simp] theorem Dev.setSaves_cores (d : Dev) (v : List SaveRec) : (d.setSaves v).cores = d.cores := rfl
@[simp] theorem Dev.setSaves_fields (d : Dev) (v : List SaveRec) : (d.setSaves v).fields = d.fields := rfl
@[simp] theorem Dev.setSaves_saves (d : Dev) (v : List SaveRec) : (d.setSaves v).saves = v := rfl
@[simp] theorem Dev.setSaves_startup (d : Dev) (v : List SaveRec) : (d.setSaves v).startup = d.startup := rfl
@[simp] theorem Dev.setSaves_units (d : Dev) (v : List SaveRec) : (d.setSaves v).units = d.units := rfl
@[simp] theorem Dev.setSaves_silt (d : Dev) (v : List SaveRec) : (d.setSaves v).silt = d.silt := rfl
@[simp] theorem Dev.setSaves_lkk (d : Dev) (v : List SaveRec) : (d.setSaves v).lkk = d.lkk := rfl
@[simp] theorem Dev.setSaves_flumes (d : Dev) (v : List SaveRec) : (d.setSaves v).flumes = d.flumes := rfl
@[simp] theorem Dev.setSaves_divs (d : Dev) (v : List SaveRec) : (d.setSaves v).divs = d.divs := rfl
@[simp] theorem Dev.setSaves_divPins (d : Dev) (v : List SaveRec) : (d.setSaves v).divPins = d.divPins := rfl
@[simp] theorem Dev.setSaves_claims (d : Dev) (v : List SaveRec) : (d.setSaves v).claims = d.claims := rfl
@[simp] theorem Dev.setSaves_steps (d : Dev) (v : List SaveRec) : (d.setSaves v).steps = d.steps := rfl
@[simp] theorem Dev.setSaves_parts (d : Dev) (v : List SaveRec) : (d.setSaves v).parts = d.parts := rfl
@[simp] theorem Dev.setSaves_cis (d : Dev) (v : List SaveRec) : (d.setSaves v).cis = d.cis := rfl
@[simp] theorem Dev.setSaves_gauges (d : Dev) (v : List SaveRec) : (d.setSaves v).gauges = d.gauges := rfl
@[simp] theorem Dev.setSaves_gaugeReports (d : Dev) (v : List SaveRec) : (d.setSaves v).gaugeReports = d.gaugeReports := rfl
@[simp] theorem Dev.setSaves_cfls (d : Dev) (v : List SaveRec) : (d.setSaves v).cfls = d.cfls := rfl
@[simp] theorem Dev.setSaves_cflElems (d : Dev) (v : List SaveRec) : (d.setSaves v).cflElems = d.cflElems := rfl
@[simp] theorem Dev.setSaves_sec (d : Dev) (v : List SaveRec) : (d.setSaves v).sec = d.sec := rfl
@[simp] theorem Dev.setSaves_power (d : Dev) (v : List SaveRec) : (d.setSaves v).power = d.power := rfl
@[simp] theorem Dev.setSaves_wakes (d : Dev) (v : List SaveRec) : (d.setSaves v).wakes = d.wakes := rfl
@[simp] theorem Dev.setSaves_serves (d : Dev) (v : List SaveRec) : (d.setSaves v).serves = d.serves := rfl
@[simp] theorem Dev.setSaves_tenants (d : Dev) (v : List SaveRec) : (d.setSaves v).tenants = d.tenants := rfl
@[simp] theorem Dev.setSaves_reqs (d : Dev) (v : List SaveRec) : (d.setSaves v).reqs = d.reqs := rfl
@[simp] theorem Dev.setSaves_nextReq (d : Dev) (v : List SaveRec) : (d.setSaves v).nextReq = d.nextReq := rfl
@[simp] theorem Dev.setSaves_ofts (d : Dev) (v : List SaveRec) : (d.setSaves v).ofts = d.ofts := rfl
@[simp] theorem Dev.setSaves_oftInsts (d : Dev) (v : List SaveRec) : (d.setSaves v).oftInsts = d.oftInsts := rfl
@[simp] theorem Dev.setSaves_oftTimes (d : Dev) (v : List SaveRec) : (d.setSaves v).oftTimes = d.oftTimes := rfl
@[simp] theorem Dev.setStartup_time (d : Dev) (v : Startup) : (d.setStartup v).time = d.time := rfl
@[simp] theorem Dev.setStartup_out (d : Dev) (v : Startup) : (d.setStartup v).out = d.out := rfl
@[simp] theorem Dev.setStartup_draws (d : Dev) (v : Startup) : (d.setStartup v).draws = d.draws := rfl
@[simp] theorem Dev.setStartup_regs (d : Dev) (v : Startup) : (d.setStartup v).regs = d.regs := rfl
@[simp] theorem Dev.setStartup_ports (d : Dev) (v : Startup) : (d.setStartup v).ports = d.ports := rfl
@[simp] theorem Dev.setStartup_rings (d : Dev) (v : Startup) : (d.setStartup v).rings = d.rings := rfl
@[simp] theorem Dev.setStartup_errs (d : Dev) (v : Startup) : (d.setStartup v).errs = d.errs := rfl
@[simp] theorem Dev.setStartup_orders (d : Dev) (v : Startup) : (d.setStartup v).orders = d.orders := rfl
@[simp] theorem Dev.setStartup_sluices (d : Dev) (v : Startup) : (d.setStartup v).sluices = d.sluices := rfl
@[simp] theorem Dev.setStartup_msix (d : Dev) (v : Startup) : (d.setStartup v).msix = d.msix := rfl
@[simp] theorem Dev.setStartup_gates (d : Dev) (v : Startup) : (d.setStartup v).gates = d.gates := rfl
@[simp] theorem Dev.setStartup_waits (d : Dev) (v : Startup) : (d.setStartup v).waits = d.waits := rfl
@[simp] theorem Dev.setStartup_canal (d : Dev) (v : Startup) : (d.setStartup v).canal = d.canal := rfl
@[simp] theorem Dev.setStartup_ctxs (d : Dev) (v : Startup) : (d.setStartup v).ctxs = d.ctxs := rfl
@[simp] theorem Dev.setStartup_sched (d : Dev) (v : Startup) : (d.setStartup v).sched = d.sched := rfl
@[simp] theorem Dev.setStartup_survey (d : Dev) (v : Startup) : (d.setStartup v).survey = d.survey := rfl
@[simp] theorem Dev.setStartup_dists (d : Dev) (v : Startup) : (d.setStartup v).dists = d.dists := rfl
@[simp] theorem Dev.setStartup_devs (d : Dev) (v : Startup) : (d.setStartup v).devs = d.devs := rfl
@[simp] theorem Dev.setStartup_cxl (d : Dev) (v : Startup) : (d.setStartup v).cxl = d.cxl := rfl
@[simp] theorem Dev.setStartup_cache (d : Dev) (v : Startup) : (d.setStartup v).cache = d.cache := rfl
@[simp] theorem Dev.setStartup_lines (d : Dev) (v : Startup) : (d.setStartup v).lines = d.lines := rfl
@[simp] theorem Dev.setStartup_mem (d : Dev) (v : Startup) : (d.setStartup v).mem = d.mem := rfl
@[simp] theorem Dev.setStartup_bad (d : Dev) (v : Startup) : (d.setStartup v).bad = d.bad := rfl
@[simp] theorem Dev.setStartup_memFaults (d : Dev) (v : Startup) : (d.setStartup v).memFaults = d.memFaults := rfl
@[simp] theorem Dev.setStartup_cores (d : Dev) (v : Startup) : (d.setStartup v).cores = d.cores := rfl
@[simp] theorem Dev.setStartup_fields (d : Dev) (v : Startup) : (d.setStartup v).fields = d.fields := rfl
@[simp] theorem Dev.setStartup_saves (d : Dev) (v : Startup) : (d.setStartup v).saves = d.saves := rfl
@[simp] theorem Dev.setStartup_startup (d : Dev) (v : Startup) : (d.setStartup v).startup = v := rfl
@[simp] theorem Dev.setStartup_units (d : Dev) (v : Startup) : (d.setStartup v).units = d.units := rfl
@[simp] theorem Dev.setStartup_silt (d : Dev) (v : Startup) : (d.setStartup v).silt = d.silt := rfl
@[simp] theorem Dev.setStartup_lkk (d : Dev) (v : Startup) : (d.setStartup v).lkk = d.lkk := rfl
@[simp] theorem Dev.setStartup_flumes (d : Dev) (v : Startup) : (d.setStartup v).flumes = d.flumes := rfl
@[simp] theorem Dev.setStartup_divs (d : Dev) (v : Startup) : (d.setStartup v).divs = d.divs := rfl
@[simp] theorem Dev.setStartup_divPins (d : Dev) (v : Startup) : (d.setStartup v).divPins = d.divPins := rfl
@[simp] theorem Dev.setStartup_claims (d : Dev) (v : Startup) : (d.setStartup v).claims = d.claims := rfl
@[simp] theorem Dev.setStartup_steps (d : Dev) (v : Startup) : (d.setStartup v).steps = d.steps := rfl
@[simp] theorem Dev.setStartup_parts (d : Dev) (v : Startup) : (d.setStartup v).parts = d.parts := rfl
@[simp] theorem Dev.setStartup_cis (d : Dev) (v : Startup) : (d.setStartup v).cis = d.cis := rfl
@[simp] theorem Dev.setStartup_gauges (d : Dev) (v : Startup) : (d.setStartup v).gauges = d.gauges := rfl
@[simp] theorem Dev.setStartup_gaugeReports (d : Dev) (v : Startup) : (d.setStartup v).gaugeReports = d.gaugeReports := rfl
@[simp] theorem Dev.setStartup_cfls (d : Dev) (v : Startup) : (d.setStartup v).cfls = d.cfls := rfl
@[simp] theorem Dev.setStartup_cflElems (d : Dev) (v : Startup) : (d.setStartup v).cflElems = d.cflElems := rfl
@[simp] theorem Dev.setStartup_sec (d : Dev) (v : Startup) : (d.setStartup v).sec = d.sec := rfl
@[simp] theorem Dev.setStartup_power (d : Dev) (v : Startup) : (d.setStartup v).power = d.power := rfl
@[simp] theorem Dev.setStartup_wakes (d : Dev) (v : Startup) : (d.setStartup v).wakes = d.wakes := rfl
@[simp] theorem Dev.setStartup_serves (d : Dev) (v : Startup) : (d.setStartup v).serves = d.serves := rfl
@[simp] theorem Dev.setStartup_tenants (d : Dev) (v : Startup) : (d.setStartup v).tenants = d.tenants := rfl
@[simp] theorem Dev.setStartup_reqs (d : Dev) (v : Startup) : (d.setStartup v).reqs = d.reqs := rfl
@[simp] theorem Dev.setStartup_nextReq (d : Dev) (v : Startup) : (d.setStartup v).nextReq = d.nextReq := rfl
@[simp] theorem Dev.setStartup_ofts (d : Dev) (v : Startup) : (d.setStartup v).ofts = d.ofts := rfl
@[simp] theorem Dev.setStartup_oftInsts (d : Dev) (v : Startup) : (d.setStartup v).oftInsts = d.oftInsts := rfl
@[simp] theorem Dev.setStartup_oftTimes (d : Dev) (v : Startup) : (d.setStartup v).oftTimes = d.oftTimes := rfl
@[simp] theorem Dev.setUnits_time (d : Dev) (v : Tbl RasUnit) : (d.setUnits v).time = d.time := rfl
@[simp] theorem Dev.setUnits_out (d : Dev) (v : Tbl RasUnit) : (d.setUnits v).out = d.out := rfl
@[simp] theorem Dev.setUnits_draws (d : Dev) (v : Tbl RasUnit) : (d.setUnits v).draws = d.draws := rfl
@[simp] theorem Dev.setUnits_regs (d : Dev) (v : Tbl RasUnit) : (d.setUnits v).regs = d.regs := rfl
@[simp] theorem Dev.setUnits_ports (d : Dev) (v : Tbl RasUnit) : (d.setUnits v).ports = d.ports := rfl
@[simp] theorem Dev.setUnits_rings (d : Dev) (v : Tbl RasUnit) : (d.setUnits v).rings = d.rings := rfl
@[simp] theorem Dev.setUnits_errs (d : Dev) (v : Tbl RasUnit) : (d.setUnits v).errs = d.errs := rfl
@[simp] theorem Dev.setUnits_orders (d : Dev) (v : Tbl RasUnit) : (d.setUnits v).orders = d.orders := rfl
@[simp] theorem Dev.setUnits_sluices (d : Dev) (v : Tbl RasUnit) : (d.setUnits v).sluices = d.sluices := rfl
@[simp] theorem Dev.setUnits_msix (d : Dev) (v : Tbl RasUnit) : (d.setUnits v).msix = d.msix := rfl
@[simp] theorem Dev.setUnits_gates (d : Dev) (v : Tbl RasUnit) : (d.setUnits v).gates = d.gates := rfl
@[simp] theorem Dev.setUnits_waits (d : Dev) (v : Tbl RasUnit) : (d.setUnits v).waits = d.waits := rfl
@[simp] theorem Dev.setUnits_canal (d : Dev) (v : Tbl RasUnit) : (d.setUnits v).canal = d.canal := rfl
@[simp] theorem Dev.setUnits_ctxs (d : Dev) (v : Tbl RasUnit) : (d.setUnits v).ctxs = d.ctxs := rfl
@[simp] theorem Dev.setUnits_sched (d : Dev) (v : Tbl RasUnit) : (d.setUnits v).sched = d.sched := rfl
@[simp] theorem Dev.setUnits_survey (d : Dev) (v : Tbl RasUnit) : (d.setUnits v).survey = d.survey := rfl
@[simp] theorem Dev.setUnits_dists (d : Dev) (v : Tbl RasUnit) : (d.setUnits v).dists = d.dists := rfl
@[simp] theorem Dev.setUnits_devs (d : Dev) (v : Tbl RasUnit) : (d.setUnits v).devs = d.devs := rfl
@[simp] theorem Dev.setUnits_cxl (d : Dev) (v : Tbl RasUnit) : (d.setUnits v).cxl = d.cxl := rfl
@[simp] theorem Dev.setUnits_cache (d : Dev) (v : Tbl RasUnit) : (d.setUnits v).cache = d.cache := rfl
@[simp] theorem Dev.setUnits_lines (d : Dev) (v : Tbl RasUnit) : (d.setUnits v).lines = d.lines := rfl
@[simp] theorem Dev.setUnits_mem (d : Dev) (v : Tbl RasUnit) : (d.setUnits v).mem = d.mem := rfl
@[simp] theorem Dev.setUnits_bad (d : Dev) (v : Tbl RasUnit) : (d.setUnits v).bad = d.bad := rfl
@[simp] theorem Dev.setUnits_memFaults (d : Dev) (v : Tbl RasUnit) : (d.setUnits v).memFaults = d.memFaults := rfl
@[simp] theorem Dev.setUnits_cores (d : Dev) (v : Tbl RasUnit) : (d.setUnits v).cores = d.cores := rfl
@[simp] theorem Dev.setUnits_fields (d : Dev) (v : Tbl RasUnit) : (d.setUnits v).fields = d.fields := rfl
@[simp] theorem Dev.setUnits_saves (d : Dev) (v : Tbl RasUnit) : (d.setUnits v).saves = d.saves := rfl
@[simp] theorem Dev.setUnits_startup (d : Dev) (v : Tbl RasUnit) : (d.setUnits v).startup = d.startup := rfl
@[simp] theorem Dev.setUnits_units (d : Dev) (v : Tbl RasUnit) : (d.setUnits v).units = v := rfl
@[simp] theorem Dev.setUnits_silt (d : Dev) (v : Tbl RasUnit) : (d.setUnits v).silt = d.silt := rfl
@[simp] theorem Dev.setUnits_lkk (d : Dev) (v : Tbl RasUnit) : (d.setUnits v).lkk = d.lkk := rfl
@[simp] theorem Dev.setUnits_flumes (d : Dev) (v : Tbl RasUnit) : (d.setUnits v).flumes = d.flumes := rfl
@[simp] theorem Dev.setUnits_divs (d : Dev) (v : Tbl RasUnit) : (d.setUnits v).divs = d.divs := rfl
@[simp] theorem Dev.setUnits_divPins (d : Dev) (v : Tbl RasUnit) : (d.setUnits v).divPins = d.divPins := rfl
@[simp] theorem Dev.setUnits_claims (d : Dev) (v : Tbl RasUnit) : (d.setUnits v).claims = d.claims := rfl
@[simp] theorem Dev.setUnits_steps (d : Dev) (v : Tbl RasUnit) : (d.setUnits v).steps = d.steps := rfl
@[simp] theorem Dev.setUnits_parts (d : Dev) (v : Tbl RasUnit) : (d.setUnits v).parts = d.parts := rfl
@[simp] theorem Dev.setUnits_cis (d : Dev) (v : Tbl RasUnit) : (d.setUnits v).cis = d.cis := rfl
@[simp] theorem Dev.setUnits_gauges (d : Dev) (v : Tbl RasUnit) : (d.setUnits v).gauges = d.gauges := rfl
@[simp] theorem Dev.setUnits_gaugeReports (d : Dev) (v : Tbl RasUnit) : (d.setUnits v).gaugeReports = d.gaugeReports := rfl
@[simp] theorem Dev.setUnits_cfls (d : Dev) (v : Tbl RasUnit) : (d.setUnits v).cfls = d.cfls := rfl
@[simp] theorem Dev.setUnits_cflElems (d : Dev) (v : Tbl RasUnit) : (d.setUnits v).cflElems = d.cflElems := rfl
@[simp] theorem Dev.setUnits_sec (d : Dev) (v : Tbl RasUnit) : (d.setUnits v).sec = d.sec := rfl
@[simp] theorem Dev.setUnits_power (d : Dev) (v : Tbl RasUnit) : (d.setUnits v).power = d.power := rfl
@[simp] theorem Dev.setUnits_wakes (d : Dev) (v : Tbl RasUnit) : (d.setUnits v).wakes = d.wakes := rfl
@[simp] theorem Dev.setUnits_serves (d : Dev) (v : Tbl RasUnit) : (d.setUnits v).serves = d.serves := rfl
@[simp] theorem Dev.setUnits_tenants (d : Dev) (v : Tbl RasUnit) : (d.setUnits v).tenants = d.tenants := rfl
@[simp] theorem Dev.setUnits_reqs (d : Dev) (v : Tbl RasUnit) : (d.setUnits v).reqs = d.reqs := rfl
@[simp] theorem Dev.setUnits_nextReq (d : Dev) (v : Tbl RasUnit) : (d.setUnits v).nextReq = d.nextReq := rfl
@[simp] theorem Dev.setUnits_ofts (d : Dev) (v : Tbl RasUnit) : (d.setUnits v).ofts = d.ofts := rfl
@[simp] theorem Dev.setUnits_oftInsts (d : Dev) (v : Tbl RasUnit) : (d.setUnits v).oftInsts = d.oftInsts := rfl
@[simp] theorem Dev.setUnits_oftTimes (d : Dev) (v : Tbl RasUnit) : (d.setUnits v).oftTimes = d.oftTimes := rfl
@[simp] theorem Dev.setSilt_time (d : Dev) (v : Silt) : (d.setSilt v).time = d.time := rfl
@[simp] theorem Dev.setSilt_out (d : Dev) (v : Silt) : (d.setSilt v).out = d.out := rfl
@[simp] theorem Dev.setSilt_draws (d : Dev) (v : Silt) : (d.setSilt v).draws = d.draws := rfl
@[simp] theorem Dev.setSilt_regs (d : Dev) (v : Silt) : (d.setSilt v).regs = d.regs := rfl
@[simp] theorem Dev.setSilt_ports (d : Dev) (v : Silt) : (d.setSilt v).ports = d.ports := rfl
@[simp] theorem Dev.setSilt_rings (d : Dev) (v : Silt) : (d.setSilt v).rings = d.rings := rfl
@[simp] theorem Dev.setSilt_errs (d : Dev) (v : Silt) : (d.setSilt v).errs = d.errs := rfl
@[simp] theorem Dev.setSilt_orders (d : Dev) (v : Silt) : (d.setSilt v).orders = d.orders := rfl
@[simp] theorem Dev.setSilt_sluices (d : Dev) (v : Silt) : (d.setSilt v).sluices = d.sluices := rfl
@[simp] theorem Dev.setSilt_msix (d : Dev) (v : Silt) : (d.setSilt v).msix = d.msix := rfl
@[simp] theorem Dev.setSilt_gates (d : Dev) (v : Silt) : (d.setSilt v).gates = d.gates := rfl
@[simp] theorem Dev.setSilt_waits (d : Dev) (v : Silt) : (d.setSilt v).waits = d.waits := rfl
@[simp] theorem Dev.setSilt_canal (d : Dev) (v : Silt) : (d.setSilt v).canal = d.canal := rfl
@[simp] theorem Dev.setSilt_ctxs (d : Dev) (v : Silt) : (d.setSilt v).ctxs = d.ctxs := rfl
@[simp] theorem Dev.setSilt_sched (d : Dev) (v : Silt) : (d.setSilt v).sched = d.sched := rfl
@[simp] theorem Dev.setSilt_survey (d : Dev) (v : Silt) : (d.setSilt v).survey = d.survey := rfl
@[simp] theorem Dev.setSilt_dists (d : Dev) (v : Silt) : (d.setSilt v).dists = d.dists := rfl
@[simp] theorem Dev.setSilt_devs (d : Dev) (v : Silt) : (d.setSilt v).devs = d.devs := rfl
@[simp] theorem Dev.setSilt_cxl (d : Dev) (v : Silt) : (d.setSilt v).cxl = d.cxl := rfl
@[simp] theorem Dev.setSilt_cache (d : Dev) (v : Silt) : (d.setSilt v).cache = d.cache := rfl
@[simp] theorem Dev.setSilt_lines (d : Dev) (v : Silt) : (d.setSilt v).lines = d.lines := rfl
@[simp] theorem Dev.setSilt_mem (d : Dev) (v : Silt) : (d.setSilt v).mem = d.mem := rfl
@[simp] theorem Dev.setSilt_bad (d : Dev) (v : Silt) : (d.setSilt v).bad = d.bad := rfl
@[simp] theorem Dev.setSilt_memFaults (d : Dev) (v : Silt) : (d.setSilt v).memFaults = d.memFaults := rfl
@[simp] theorem Dev.setSilt_cores (d : Dev) (v : Silt) : (d.setSilt v).cores = d.cores := rfl
@[simp] theorem Dev.setSilt_fields (d : Dev) (v : Silt) : (d.setSilt v).fields = d.fields := rfl
@[simp] theorem Dev.setSilt_saves (d : Dev) (v : Silt) : (d.setSilt v).saves = d.saves := rfl
@[simp] theorem Dev.setSilt_startup (d : Dev) (v : Silt) : (d.setSilt v).startup = d.startup := rfl
@[simp] theorem Dev.setSilt_units (d : Dev) (v : Silt) : (d.setSilt v).units = d.units := rfl
@[simp] theorem Dev.setSilt_silt (d : Dev) (v : Silt) : (d.setSilt v).silt = v := rfl
@[simp] theorem Dev.setSilt_lkk (d : Dev) (v : Silt) : (d.setSilt v).lkk = d.lkk := rfl
@[simp] theorem Dev.setSilt_flumes (d : Dev) (v : Silt) : (d.setSilt v).flumes = d.flumes := rfl
@[simp] theorem Dev.setSilt_divs (d : Dev) (v : Silt) : (d.setSilt v).divs = d.divs := rfl
@[simp] theorem Dev.setSilt_divPins (d : Dev) (v : Silt) : (d.setSilt v).divPins = d.divPins := rfl
@[simp] theorem Dev.setSilt_claims (d : Dev) (v : Silt) : (d.setSilt v).claims = d.claims := rfl
@[simp] theorem Dev.setSilt_steps (d : Dev) (v : Silt) : (d.setSilt v).steps = d.steps := rfl
@[simp] theorem Dev.setSilt_parts (d : Dev) (v : Silt) : (d.setSilt v).parts = d.parts := rfl
@[simp] theorem Dev.setSilt_cis (d : Dev) (v : Silt) : (d.setSilt v).cis = d.cis := rfl
@[simp] theorem Dev.setSilt_gauges (d : Dev) (v : Silt) : (d.setSilt v).gauges = d.gauges := rfl
@[simp] theorem Dev.setSilt_gaugeReports (d : Dev) (v : Silt) : (d.setSilt v).gaugeReports = d.gaugeReports := rfl
@[simp] theorem Dev.setSilt_cfls (d : Dev) (v : Silt) : (d.setSilt v).cfls = d.cfls := rfl
@[simp] theorem Dev.setSilt_cflElems (d : Dev) (v : Silt) : (d.setSilt v).cflElems = d.cflElems := rfl
@[simp] theorem Dev.setSilt_sec (d : Dev) (v : Silt) : (d.setSilt v).sec = d.sec := rfl
@[simp] theorem Dev.setSilt_power (d : Dev) (v : Silt) : (d.setSilt v).power = d.power := rfl
@[simp] theorem Dev.setSilt_wakes (d : Dev) (v : Silt) : (d.setSilt v).wakes = d.wakes := rfl
@[simp] theorem Dev.setSilt_serves (d : Dev) (v : Silt) : (d.setSilt v).serves = d.serves := rfl
@[simp] theorem Dev.setSilt_tenants (d : Dev) (v : Silt) : (d.setSilt v).tenants = d.tenants := rfl
@[simp] theorem Dev.setSilt_reqs (d : Dev) (v : Silt) : (d.setSilt v).reqs = d.reqs := rfl
@[simp] theorem Dev.setSilt_nextReq (d : Dev) (v : Silt) : (d.setSilt v).nextReq = d.nextReq := rfl
@[simp] theorem Dev.setSilt_ofts (d : Dev) (v : Silt) : (d.setSilt v).ofts = d.ofts := rfl
@[simp] theorem Dev.setSilt_oftInsts (d : Dev) (v : Silt) : (d.setSilt v).oftInsts = d.oftInsts := rfl
@[simp] theorem Dev.setSilt_oftTimes (d : Dev) (v : Silt) : (d.setSilt v).oftTimes = d.oftTimes := rfl
@[simp] theorem Dev.setLkk_time (d : Dev) (v : Lkk) : (d.setLkk v).time = d.time := rfl
@[simp] theorem Dev.setLkk_out (d : Dev) (v : Lkk) : (d.setLkk v).out = d.out := rfl
@[simp] theorem Dev.setLkk_draws (d : Dev) (v : Lkk) : (d.setLkk v).draws = d.draws := rfl
@[simp] theorem Dev.setLkk_regs (d : Dev) (v : Lkk) : (d.setLkk v).regs = d.regs := rfl
@[simp] theorem Dev.setLkk_ports (d : Dev) (v : Lkk) : (d.setLkk v).ports = d.ports := rfl
@[simp] theorem Dev.setLkk_rings (d : Dev) (v : Lkk) : (d.setLkk v).rings = d.rings := rfl
@[simp] theorem Dev.setLkk_errs (d : Dev) (v : Lkk) : (d.setLkk v).errs = d.errs := rfl
@[simp] theorem Dev.setLkk_orders (d : Dev) (v : Lkk) : (d.setLkk v).orders = d.orders := rfl
@[simp] theorem Dev.setLkk_sluices (d : Dev) (v : Lkk) : (d.setLkk v).sluices = d.sluices := rfl
@[simp] theorem Dev.setLkk_msix (d : Dev) (v : Lkk) : (d.setLkk v).msix = d.msix := rfl
@[simp] theorem Dev.setLkk_gates (d : Dev) (v : Lkk) : (d.setLkk v).gates = d.gates := rfl
@[simp] theorem Dev.setLkk_waits (d : Dev) (v : Lkk) : (d.setLkk v).waits = d.waits := rfl
@[simp] theorem Dev.setLkk_canal (d : Dev) (v : Lkk) : (d.setLkk v).canal = d.canal := rfl
@[simp] theorem Dev.setLkk_ctxs (d : Dev) (v : Lkk) : (d.setLkk v).ctxs = d.ctxs := rfl
@[simp] theorem Dev.setLkk_sched (d : Dev) (v : Lkk) : (d.setLkk v).sched = d.sched := rfl
@[simp] theorem Dev.setLkk_survey (d : Dev) (v : Lkk) : (d.setLkk v).survey = d.survey := rfl
@[simp] theorem Dev.setLkk_dists (d : Dev) (v : Lkk) : (d.setLkk v).dists = d.dists := rfl
@[simp] theorem Dev.setLkk_devs (d : Dev) (v : Lkk) : (d.setLkk v).devs = d.devs := rfl
@[simp] theorem Dev.setLkk_cxl (d : Dev) (v : Lkk) : (d.setLkk v).cxl = d.cxl := rfl
@[simp] theorem Dev.setLkk_cache (d : Dev) (v : Lkk) : (d.setLkk v).cache = d.cache := rfl
@[simp] theorem Dev.setLkk_lines (d : Dev) (v : Lkk) : (d.setLkk v).lines = d.lines := rfl
@[simp] theorem Dev.setLkk_mem (d : Dev) (v : Lkk) : (d.setLkk v).mem = d.mem := rfl
@[simp] theorem Dev.setLkk_bad (d : Dev) (v : Lkk) : (d.setLkk v).bad = d.bad := rfl
@[simp] theorem Dev.setLkk_memFaults (d : Dev) (v : Lkk) : (d.setLkk v).memFaults = d.memFaults := rfl
@[simp] theorem Dev.setLkk_cores (d : Dev) (v : Lkk) : (d.setLkk v).cores = d.cores := rfl
@[simp] theorem Dev.setLkk_fields (d : Dev) (v : Lkk) : (d.setLkk v).fields = d.fields := rfl
@[simp] theorem Dev.setLkk_saves (d : Dev) (v : Lkk) : (d.setLkk v).saves = d.saves := rfl
@[simp] theorem Dev.setLkk_startup (d : Dev) (v : Lkk) : (d.setLkk v).startup = d.startup := rfl
@[simp] theorem Dev.setLkk_units (d : Dev) (v : Lkk) : (d.setLkk v).units = d.units := rfl
@[simp] theorem Dev.setLkk_silt (d : Dev) (v : Lkk) : (d.setLkk v).silt = d.silt := rfl
@[simp] theorem Dev.setLkk_lkk (d : Dev) (v : Lkk) : (d.setLkk v).lkk = v := rfl
@[simp] theorem Dev.setLkk_flumes (d : Dev) (v : Lkk) : (d.setLkk v).flumes = d.flumes := rfl
@[simp] theorem Dev.setLkk_divs (d : Dev) (v : Lkk) : (d.setLkk v).divs = d.divs := rfl
@[simp] theorem Dev.setLkk_divPins (d : Dev) (v : Lkk) : (d.setLkk v).divPins = d.divPins := rfl
@[simp] theorem Dev.setLkk_claims (d : Dev) (v : Lkk) : (d.setLkk v).claims = d.claims := rfl
@[simp] theorem Dev.setLkk_steps (d : Dev) (v : Lkk) : (d.setLkk v).steps = d.steps := rfl
@[simp] theorem Dev.setLkk_parts (d : Dev) (v : Lkk) : (d.setLkk v).parts = d.parts := rfl
@[simp] theorem Dev.setLkk_cis (d : Dev) (v : Lkk) : (d.setLkk v).cis = d.cis := rfl
@[simp] theorem Dev.setLkk_gauges (d : Dev) (v : Lkk) : (d.setLkk v).gauges = d.gauges := rfl
@[simp] theorem Dev.setLkk_gaugeReports (d : Dev) (v : Lkk) : (d.setLkk v).gaugeReports = d.gaugeReports := rfl
@[simp] theorem Dev.setLkk_cfls (d : Dev) (v : Lkk) : (d.setLkk v).cfls = d.cfls := rfl
@[simp] theorem Dev.setLkk_cflElems (d : Dev) (v : Lkk) : (d.setLkk v).cflElems = d.cflElems := rfl
@[simp] theorem Dev.setLkk_sec (d : Dev) (v : Lkk) : (d.setLkk v).sec = d.sec := rfl
@[simp] theorem Dev.setLkk_power (d : Dev) (v : Lkk) : (d.setLkk v).power = d.power := rfl
@[simp] theorem Dev.setLkk_wakes (d : Dev) (v : Lkk) : (d.setLkk v).wakes = d.wakes := rfl
@[simp] theorem Dev.setLkk_serves (d : Dev) (v : Lkk) : (d.setLkk v).serves = d.serves := rfl
@[simp] theorem Dev.setLkk_tenants (d : Dev) (v : Lkk) : (d.setLkk v).tenants = d.tenants := rfl
@[simp] theorem Dev.setLkk_reqs (d : Dev) (v : Lkk) : (d.setLkk v).reqs = d.reqs := rfl
@[simp] theorem Dev.setLkk_nextReq (d : Dev) (v : Lkk) : (d.setLkk v).nextReq = d.nextReq := rfl
@[simp] theorem Dev.setLkk_ofts (d : Dev) (v : Lkk) : (d.setLkk v).ofts = d.ofts := rfl
@[simp] theorem Dev.setLkk_oftInsts (d : Dev) (v : Lkk) : (d.setLkk v).oftInsts = d.oftInsts := rfl
@[simp] theorem Dev.setLkk_oftTimes (d : Dev) (v : Lkk) : (d.setLkk v).oftTimes = d.oftTimes := rfl
@[simp] theorem Dev.setFlumes_time (d : Dev) (v : Tbl Flume) : (d.setFlumes v).time = d.time := rfl
@[simp] theorem Dev.setFlumes_out (d : Dev) (v : Tbl Flume) : (d.setFlumes v).out = d.out := rfl
@[simp] theorem Dev.setFlumes_draws (d : Dev) (v : Tbl Flume) : (d.setFlumes v).draws = d.draws := rfl
@[simp] theorem Dev.setFlumes_regs (d : Dev) (v : Tbl Flume) : (d.setFlumes v).regs = d.regs := rfl
@[simp] theorem Dev.setFlumes_ports (d : Dev) (v : Tbl Flume) : (d.setFlumes v).ports = d.ports := rfl
@[simp] theorem Dev.setFlumes_rings (d : Dev) (v : Tbl Flume) : (d.setFlumes v).rings = d.rings := rfl
@[simp] theorem Dev.setFlumes_errs (d : Dev) (v : Tbl Flume) : (d.setFlumes v).errs = d.errs := rfl
@[simp] theorem Dev.setFlumes_orders (d : Dev) (v : Tbl Flume) : (d.setFlumes v).orders = d.orders := rfl
@[simp] theorem Dev.setFlumes_sluices (d : Dev) (v : Tbl Flume) : (d.setFlumes v).sluices = d.sluices := rfl
@[simp] theorem Dev.setFlumes_msix (d : Dev) (v : Tbl Flume) : (d.setFlumes v).msix = d.msix := rfl
@[simp] theorem Dev.setFlumes_gates (d : Dev) (v : Tbl Flume) : (d.setFlumes v).gates = d.gates := rfl
@[simp] theorem Dev.setFlumes_waits (d : Dev) (v : Tbl Flume) : (d.setFlumes v).waits = d.waits := rfl
@[simp] theorem Dev.setFlumes_canal (d : Dev) (v : Tbl Flume) : (d.setFlumes v).canal = d.canal := rfl
@[simp] theorem Dev.setFlumes_ctxs (d : Dev) (v : Tbl Flume) : (d.setFlumes v).ctxs = d.ctxs := rfl
@[simp] theorem Dev.setFlumes_sched (d : Dev) (v : Tbl Flume) : (d.setFlumes v).sched = d.sched := rfl
@[simp] theorem Dev.setFlumes_survey (d : Dev) (v : Tbl Flume) : (d.setFlumes v).survey = d.survey := rfl
@[simp] theorem Dev.setFlumes_dists (d : Dev) (v : Tbl Flume) : (d.setFlumes v).dists = d.dists := rfl
@[simp] theorem Dev.setFlumes_devs (d : Dev) (v : Tbl Flume) : (d.setFlumes v).devs = d.devs := rfl
@[simp] theorem Dev.setFlumes_cxl (d : Dev) (v : Tbl Flume) : (d.setFlumes v).cxl = d.cxl := rfl
@[simp] theorem Dev.setFlumes_cache (d : Dev) (v : Tbl Flume) : (d.setFlumes v).cache = d.cache := rfl
@[simp] theorem Dev.setFlumes_lines (d : Dev) (v : Tbl Flume) : (d.setFlumes v).lines = d.lines := rfl
@[simp] theorem Dev.setFlumes_mem (d : Dev) (v : Tbl Flume) : (d.setFlumes v).mem = d.mem := rfl
@[simp] theorem Dev.setFlumes_bad (d : Dev) (v : Tbl Flume) : (d.setFlumes v).bad = d.bad := rfl
@[simp] theorem Dev.setFlumes_memFaults (d : Dev) (v : Tbl Flume) : (d.setFlumes v).memFaults = d.memFaults := rfl
@[simp] theorem Dev.setFlumes_cores (d : Dev) (v : Tbl Flume) : (d.setFlumes v).cores = d.cores := rfl
@[simp] theorem Dev.setFlumes_fields (d : Dev) (v : Tbl Flume) : (d.setFlumes v).fields = d.fields := rfl
@[simp] theorem Dev.setFlumes_saves (d : Dev) (v : Tbl Flume) : (d.setFlumes v).saves = d.saves := rfl
@[simp] theorem Dev.setFlumes_startup (d : Dev) (v : Tbl Flume) : (d.setFlumes v).startup = d.startup := rfl
@[simp] theorem Dev.setFlumes_units (d : Dev) (v : Tbl Flume) : (d.setFlumes v).units = d.units := rfl
@[simp] theorem Dev.setFlumes_silt (d : Dev) (v : Tbl Flume) : (d.setFlumes v).silt = d.silt := rfl
@[simp] theorem Dev.setFlumes_lkk (d : Dev) (v : Tbl Flume) : (d.setFlumes v).lkk = d.lkk := rfl
@[simp] theorem Dev.setFlumes_flumes (d : Dev) (v : Tbl Flume) : (d.setFlumes v).flumes = v := rfl
@[simp] theorem Dev.setFlumes_divs (d : Dev) (v : Tbl Flume) : (d.setFlumes v).divs = d.divs := rfl
@[simp] theorem Dev.setFlumes_divPins (d : Dev) (v : Tbl Flume) : (d.setFlumes v).divPins = d.divPins := rfl
@[simp] theorem Dev.setFlumes_claims (d : Dev) (v : Tbl Flume) : (d.setFlumes v).claims = d.claims := rfl
@[simp] theorem Dev.setFlumes_steps (d : Dev) (v : Tbl Flume) : (d.setFlumes v).steps = d.steps := rfl
@[simp] theorem Dev.setFlumes_parts (d : Dev) (v : Tbl Flume) : (d.setFlumes v).parts = d.parts := rfl
@[simp] theorem Dev.setFlumes_cis (d : Dev) (v : Tbl Flume) : (d.setFlumes v).cis = d.cis := rfl
@[simp] theorem Dev.setFlumes_gauges (d : Dev) (v : Tbl Flume) : (d.setFlumes v).gauges = d.gauges := rfl
@[simp] theorem Dev.setFlumes_gaugeReports (d : Dev) (v : Tbl Flume) : (d.setFlumes v).gaugeReports = d.gaugeReports := rfl
@[simp] theorem Dev.setFlumes_cfls (d : Dev) (v : Tbl Flume) : (d.setFlumes v).cfls = d.cfls := rfl
@[simp] theorem Dev.setFlumes_cflElems (d : Dev) (v : Tbl Flume) : (d.setFlumes v).cflElems = d.cflElems := rfl
@[simp] theorem Dev.setFlumes_sec (d : Dev) (v : Tbl Flume) : (d.setFlumes v).sec = d.sec := rfl
@[simp] theorem Dev.setFlumes_power (d : Dev) (v : Tbl Flume) : (d.setFlumes v).power = d.power := rfl
@[simp] theorem Dev.setFlumes_wakes (d : Dev) (v : Tbl Flume) : (d.setFlumes v).wakes = d.wakes := rfl
@[simp] theorem Dev.setFlumes_serves (d : Dev) (v : Tbl Flume) : (d.setFlumes v).serves = d.serves := rfl
@[simp] theorem Dev.setFlumes_tenants (d : Dev) (v : Tbl Flume) : (d.setFlumes v).tenants = d.tenants := rfl
@[simp] theorem Dev.setFlumes_reqs (d : Dev) (v : Tbl Flume) : (d.setFlumes v).reqs = d.reqs := rfl
@[simp] theorem Dev.setFlumes_nextReq (d : Dev) (v : Tbl Flume) : (d.setFlumes v).nextReq = d.nextReq := rfl
@[simp] theorem Dev.setFlumes_ofts (d : Dev) (v : Tbl Flume) : (d.setFlumes v).ofts = d.ofts := rfl
@[simp] theorem Dev.setFlumes_oftInsts (d : Dev) (v : Tbl Flume) : (d.setFlumes v).oftInsts = d.oftInsts := rfl
@[simp] theorem Dev.setFlumes_oftTimes (d : Dev) (v : Tbl Flume) : (d.setFlumes v).oftTimes = d.oftTimes := rfl
@[simp] theorem Dev.setDivs_time (d : Dev) (v : Tbl Diversion) : (d.setDivs v).time = d.time := rfl
@[simp] theorem Dev.setDivs_out (d : Dev) (v : Tbl Diversion) : (d.setDivs v).out = d.out := rfl
@[simp] theorem Dev.setDivs_draws (d : Dev) (v : Tbl Diversion) : (d.setDivs v).draws = d.draws := rfl
@[simp] theorem Dev.setDivs_regs (d : Dev) (v : Tbl Diversion) : (d.setDivs v).regs = d.regs := rfl
@[simp] theorem Dev.setDivs_ports (d : Dev) (v : Tbl Diversion) : (d.setDivs v).ports = d.ports := rfl
@[simp] theorem Dev.setDivs_rings (d : Dev) (v : Tbl Diversion) : (d.setDivs v).rings = d.rings := rfl
@[simp] theorem Dev.setDivs_errs (d : Dev) (v : Tbl Diversion) : (d.setDivs v).errs = d.errs := rfl
@[simp] theorem Dev.setDivs_orders (d : Dev) (v : Tbl Diversion) : (d.setDivs v).orders = d.orders := rfl
@[simp] theorem Dev.setDivs_sluices (d : Dev) (v : Tbl Diversion) : (d.setDivs v).sluices = d.sluices := rfl
@[simp] theorem Dev.setDivs_msix (d : Dev) (v : Tbl Diversion) : (d.setDivs v).msix = d.msix := rfl
@[simp] theorem Dev.setDivs_gates (d : Dev) (v : Tbl Diversion) : (d.setDivs v).gates = d.gates := rfl
@[simp] theorem Dev.setDivs_waits (d : Dev) (v : Tbl Diversion) : (d.setDivs v).waits = d.waits := rfl
@[simp] theorem Dev.setDivs_canal (d : Dev) (v : Tbl Diversion) : (d.setDivs v).canal = d.canal := rfl
@[simp] theorem Dev.setDivs_ctxs (d : Dev) (v : Tbl Diversion) : (d.setDivs v).ctxs = d.ctxs := rfl
@[simp] theorem Dev.setDivs_sched (d : Dev) (v : Tbl Diversion) : (d.setDivs v).sched = d.sched := rfl
@[simp] theorem Dev.setDivs_survey (d : Dev) (v : Tbl Diversion) : (d.setDivs v).survey = d.survey := rfl
@[simp] theorem Dev.setDivs_dists (d : Dev) (v : Tbl Diversion) : (d.setDivs v).dists = d.dists := rfl
@[simp] theorem Dev.setDivs_devs (d : Dev) (v : Tbl Diversion) : (d.setDivs v).devs = d.devs := rfl
@[simp] theorem Dev.setDivs_cxl (d : Dev) (v : Tbl Diversion) : (d.setDivs v).cxl = d.cxl := rfl
@[simp] theorem Dev.setDivs_cache (d : Dev) (v : Tbl Diversion) : (d.setDivs v).cache = d.cache := rfl
@[simp] theorem Dev.setDivs_lines (d : Dev) (v : Tbl Diversion) : (d.setDivs v).lines = d.lines := rfl
@[simp] theorem Dev.setDivs_mem (d : Dev) (v : Tbl Diversion) : (d.setDivs v).mem = d.mem := rfl
@[simp] theorem Dev.setDivs_bad (d : Dev) (v : Tbl Diversion) : (d.setDivs v).bad = d.bad := rfl
@[simp] theorem Dev.setDivs_memFaults (d : Dev) (v : Tbl Diversion) : (d.setDivs v).memFaults = d.memFaults := rfl
@[simp] theorem Dev.setDivs_cores (d : Dev) (v : Tbl Diversion) : (d.setDivs v).cores = d.cores := rfl
@[simp] theorem Dev.setDivs_fields (d : Dev) (v : Tbl Diversion) : (d.setDivs v).fields = d.fields := rfl
@[simp] theorem Dev.setDivs_saves (d : Dev) (v : Tbl Diversion) : (d.setDivs v).saves = d.saves := rfl
@[simp] theorem Dev.setDivs_startup (d : Dev) (v : Tbl Diversion) : (d.setDivs v).startup = d.startup := rfl
@[simp] theorem Dev.setDivs_units (d : Dev) (v : Tbl Diversion) : (d.setDivs v).units = d.units := rfl
@[simp] theorem Dev.setDivs_silt (d : Dev) (v : Tbl Diversion) : (d.setDivs v).silt = d.silt := rfl
@[simp] theorem Dev.setDivs_lkk (d : Dev) (v : Tbl Diversion) : (d.setDivs v).lkk = d.lkk := rfl
@[simp] theorem Dev.setDivs_flumes (d : Dev) (v : Tbl Diversion) : (d.setDivs v).flumes = d.flumes := rfl
@[simp] theorem Dev.setDivs_divs (d : Dev) (v : Tbl Diversion) : (d.setDivs v).divs = v := rfl
@[simp] theorem Dev.setDivs_divPins (d : Dev) (v : Tbl Diversion) : (d.setDivs v).divPins = d.divPins := rfl
@[simp] theorem Dev.setDivs_claims (d : Dev) (v : Tbl Diversion) : (d.setDivs v).claims = d.claims := rfl
@[simp] theorem Dev.setDivs_steps (d : Dev) (v : Tbl Diversion) : (d.setDivs v).steps = d.steps := rfl
@[simp] theorem Dev.setDivs_parts (d : Dev) (v : Tbl Diversion) : (d.setDivs v).parts = d.parts := rfl
@[simp] theorem Dev.setDivs_cis (d : Dev) (v : Tbl Diversion) : (d.setDivs v).cis = d.cis := rfl
@[simp] theorem Dev.setDivs_gauges (d : Dev) (v : Tbl Diversion) : (d.setDivs v).gauges = d.gauges := rfl
@[simp] theorem Dev.setDivs_gaugeReports (d : Dev) (v : Tbl Diversion) : (d.setDivs v).gaugeReports = d.gaugeReports := rfl
@[simp] theorem Dev.setDivs_cfls (d : Dev) (v : Tbl Diversion) : (d.setDivs v).cfls = d.cfls := rfl
@[simp] theorem Dev.setDivs_cflElems (d : Dev) (v : Tbl Diversion) : (d.setDivs v).cflElems = d.cflElems := rfl
@[simp] theorem Dev.setDivs_sec (d : Dev) (v : Tbl Diversion) : (d.setDivs v).sec = d.sec := rfl
@[simp] theorem Dev.setDivs_power (d : Dev) (v : Tbl Diversion) : (d.setDivs v).power = d.power := rfl
@[simp] theorem Dev.setDivs_wakes (d : Dev) (v : Tbl Diversion) : (d.setDivs v).wakes = d.wakes := rfl
@[simp] theorem Dev.setDivs_serves (d : Dev) (v : Tbl Diversion) : (d.setDivs v).serves = d.serves := rfl
@[simp] theorem Dev.setDivs_tenants (d : Dev) (v : Tbl Diversion) : (d.setDivs v).tenants = d.tenants := rfl
@[simp] theorem Dev.setDivs_reqs (d : Dev) (v : Tbl Diversion) : (d.setDivs v).reqs = d.reqs := rfl
@[simp] theorem Dev.setDivs_nextReq (d : Dev) (v : Tbl Diversion) : (d.setDivs v).nextReq = d.nextReq := rfl
@[simp] theorem Dev.setDivs_ofts (d : Dev) (v : Tbl Diversion) : (d.setDivs v).ofts = d.ofts := rfl
@[simp] theorem Dev.setDivs_oftInsts (d : Dev) (v : Tbl Diversion) : (d.setDivs v).oftInsts = d.oftInsts := rfl
@[simp] theorem Dev.setDivs_oftTimes (d : Dev) (v : Tbl Diversion) : (d.setDivs v).oftTimes = d.oftTimes := rfl
@[simp] theorem Dev.setDivPins_time (d : Dev) (v : List DivPin) : (d.setDivPins v).time = d.time := rfl
@[simp] theorem Dev.setDivPins_out (d : Dev) (v : List DivPin) : (d.setDivPins v).out = d.out := rfl
@[simp] theorem Dev.setDivPins_draws (d : Dev) (v : List DivPin) : (d.setDivPins v).draws = d.draws := rfl
@[simp] theorem Dev.setDivPins_regs (d : Dev) (v : List DivPin) : (d.setDivPins v).regs = d.regs := rfl
@[simp] theorem Dev.setDivPins_ports (d : Dev) (v : List DivPin) : (d.setDivPins v).ports = d.ports := rfl
@[simp] theorem Dev.setDivPins_rings (d : Dev) (v : List DivPin) : (d.setDivPins v).rings = d.rings := rfl
@[simp] theorem Dev.setDivPins_errs (d : Dev) (v : List DivPin) : (d.setDivPins v).errs = d.errs := rfl
@[simp] theorem Dev.setDivPins_orders (d : Dev) (v : List DivPin) : (d.setDivPins v).orders = d.orders := rfl
@[simp] theorem Dev.setDivPins_sluices (d : Dev) (v : List DivPin) : (d.setDivPins v).sluices = d.sluices := rfl
@[simp] theorem Dev.setDivPins_msix (d : Dev) (v : List DivPin) : (d.setDivPins v).msix = d.msix := rfl
@[simp] theorem Dev.setDivPins_gates (d : Dev) (v : List DivPin) : (d.setDivPins v).gates = d.gates := rfl
@[simp] theorem Dev.setDivPins_waits (d : Dev) (v : List DivPin) : (d.setDivPins v).waits = d.waits := rfl
@[simp] theorem Dev.setDivPins_canal (d : Dev) (v : List DivPin) : (d.setDivPins v).canal = d.canal := rfl
@[simp] theorem Dev.setDivPins_ctxs (d : Dev) (v : List DivPin) : (d.setDivPins v).ctxs = d.ctxs := rfl
@[simp] theorem Dev.setDivPins_sched (d : Dev) (v : List DivPin) : (d.setDivPins v).sched = d.sched := rfl
@[simp] theorem Dev.setDivPins_survey (d : Dev) (v : List DivPin) : (d.setDivPins v).survey = d.survey := rfl
@[simp] theorem Dev.setDivPins_dists (d : Dev) (v : List DivPin) : (d.setDivPins v).dists = d.dists := rfl
@[simp] theorem Dev.setDivPins_devs (d : Dev) (v : List DivPin) : (d.setDivPins v).devs = d.devs := rfl
@[simp] theorem Dev.setDivPins_cxl (d : Dev) (v : List DivPin) : (d.setDivPins v).cxl = d.cxl := rfl
@[simp] theorem Dev.setDivPins_cache (d : Dev) (v : List DivPin) : (d.setDivPins v).cache = d.cache := rfl
@[simp] theorem Dev.setDivPins_lines (d : Dev) (v : List DivPin) : (d.setDivPins v).lines = d.lines := rfl
@[simp] theorem Dev.setDivPins_mem (d : Dev) (v : List DivPin) : (d.setDivPins v).mem = d.mem := rfl
@[simp] theorem Dev.setDivPins_bad (d : Dev) (v : List DivPin) : (d.setDivPins v).bad = d.bad := rfl
@[simp] theorem Dev.setDivPins_memFaults (d : Dev) (v : List DivPin) : (d.setDivPins v).memFaults = d.memFaults := rfl
@[simp] theorem Dev.setDivPins_cores (d : Dev) (v : List DivPin) : (d.setDivPins v).cores = d.cores := rfl
@[simp] theorem Dev.setDivPins_fields (d : Dev) (v : List DivPin) : (d.setDivPins v).fields = d.fields := rfl
@[simp] theorem Dev.setDivPins_saves (d : Dev) (v : List DivPin) : (d.setDivPins v).saves = d.saves := rfl
@[simp] theorem Dev.setDivPins_startup (d : Dev) (v : List DivPin) : (d.setDivPins v).startup = d.startup := rfl
@[simp] theorem Dev.setDivPins_units (d : Dev) (v : List DivPin) : (d.setDivPins v).units = d.units := rfl
@[simp] theorem Dev.setDivPins_silt (d : Dev) (v : List DivPin) : (d.setDivPins v).silt = d.silt := rfl
@[simp] theorem Dev.setDivPins_lkk (d : Dev) (v : List DivPin) : (d.setDivPins v).lkk = d.lkk := rfl
@[simp] theorem Dev.setDivPins_flumes (d : Dev) (v : List DivPin) : (d.setDivPins v).flumes = d.flumes := rfl
@[simp] theorem Dev.setDivPins_divs (d : Dev) (v : List DivPin) : (d.setDivPins v).divs = d.divs := rfl
@[simp] theorem Dev.setDivPins_divPins (d : Dev) (v : List DivPin) : (d.setDivPins v).divPins = v := rfl
@[simp] theorem Dev.setDivPins_claims (d : Dev) (v : List DivPin) : (d.setDivPins v).claims = d.claims := rfl
@[simp] theorem Dev.setDivPins_steps (d : Dev) (v : List DivPin) : (d.setDivPins v).steps = d.steps := rfl
@[simp] theorem Dev.setDivPins_parts (d : Dev) (v : List DivPin) : (d.setDivPins v).parts = d.parts := rfl
@[simp] theorem Dev.setDivPins_cis (d : Dev) (v : List DivPin) : (d.setDivPins v).cis = d.cis := rfl
@[simp] theorem Dev.setDivPins_gauges (d : Dev) (v : List DivPin) : (d.setDivPins v).gauges = d.gauges := rfl
@[simp] theorem Dev.setDivPins_gaugeReports (d : Dev) (v : List DivPin) : (d.setDivPins v).gaugeReports = d.gaugeReports := rfl
@[simp] theorem Dev.setDivPins_cfls (d : Dev) (v : List DivPin) : (d.setDivPins v).cfls = d.cfls := rfl
@[simp] theorem Dev.setDivPins_cflElems (d : Dev) (v : List DivPin) : (d.setDivPins v).cflElems = d.cflElems := rfl
@[simp] theorem Dev.setDivPins_sec (d : Dev) (v : List DivPin) : (d.setDivPins v).sec = d.sec := rfl
@[simp] theorem Dev.setDivPins_power (d : Dev) (v : List DivPin) : (d.setDivPins v).power = d.power := rfl
@[simp] theorem Dev.setDivPins_wakes (d : Dev) (v : List DivPin) : (d.setDivPins v).wakes = d.wakes := rfl
@[simp] theorem Dev.setDivPins_serves (d : Dev) (v : List DivPin) : (d.setDivPins v).serves = d.serves := rfl
@[simp] theorem Dev.setDivPins_tenants (d : Dev) (v : List DivPin) : (d.setDivPins v).tenants = d.tenants := rfl
@[simp] theorem Dev.setDivPins_reqs (d : Dev) (v : List DivPin) : (d.setDivPins v).reqs = d.reqs := rfl
@[simp] theorem Dev.setDivPins_nextReq (d : Dev) (v : List DivPin) : (d.setDivPins v).nextReq = d.nextReq := rfl
@[simp] theorem Dev.setDivPins_ofts (d : Dev) (v : List DivPin) : (d.setDivPins v).ofts = d.ofts := rfl
@[simp] theorem Dev.setDivPins_oftInsts (d : Dev) (v : List DivPin) : (d.setDivPins v).oftInsts = d.oftInsts := rfl
@[simp] theorem Dev.setDivPins_oftTimes (d : Dev) (v : List DivPin) : (d.setDivPins v).oftTimes = d.oftTimes := rfl
@[simp] theorem Dev.setClaims_time (d : Dev) (v : List Claim) : (d.setClaims v).time = d.time := rfl
@[simp] theorem Dev.setClaims_out (d : Dev) (v : List Claim) : (d.setClaims v).out = d.out := rfl
@[simp] theorem Dev.setClaims_draws (d : Dev) (v : List Claim) : (d.setClaims v).draws = d.draws := rfl
@[simp] theorem Dev.setClaims_regs (d : Dev) (v : List Claim) : (d.setClaims v).regs = d.regs := rfl
@[simp] theorem Dev.setClaims_ports (d : Dev) (v : List Claim) : (d.setClaims v).ports = d.ports := rfl
@[simp] theorem Dev.setClaims_rings (d : Dev) (v : List Claim) : (d.setClaims v).rings = d.rings := rfl
@[simp] theorem Dev.setClaims_errs (d : Dev) (v : List Claim) : (d.setClaims v).errs = d.errs := rfl
@[simp] theorem Dev.setClaims_orders (d : Dev) (v : List Claim) : (d.setClaims v).orders = d.orders := rfl
@[simp] theorem Dev.setClaims_sluices (d : Dev) (v : List Claim) : (d.setClaims v).sluices = d.sluices := rfl
@[simp] theorem Dev.setClaims_msix (d : Dev) (v : List Claim) : (d.setClaims v).msix = d.msix := rfl
@[simp] theorem Dev.setClaims_gates (d : Dev) (v : List Claim) : (d.setClaims v).gates = d.gates := rfl
@[simp] theorem Dev.setClaims_waits (d : Dev) (v : List Claim) : (d.setClaims v).waits = d.waits := rfl
@[simp] theorem Dev.setClaims_canal (d : Dev) (v : List Claim) : (d.setClaims v).canal = d.canal := rfl
@[simp] theorem Dev.setClaims_ctxs (d : Dev) (v : List Claim) : (d.setClaims v).ctxs = d.ctxs := rfl
@[simp] theorem Dev.setClaims_sched (d : Dev) (v : List Claim) : (d.setClaims v).sched = d.sched := rfl
@[simp] theorem Dev.setClaims_survey (d : Dev) (v : List Claim) : (d.setClaims v).survey = d.survey := rfl
@[simp] theorem Dev.setClaims_dists (d : Dev) (v : List Claim) : (d.setClaims v).dists = d.dists := rfl
@[simp] theorem Dev.setClaims_devs (d : Dev) (v : List Claim) : (d.setClaims v).devs = d.devs := rfl
@[simp] theorem Dev.setClaims_cxl (d : Dev) (v : List Claim) : (d.setClaims v).cxl = d.cxl := rfl
@[simp] theorem Dev.setClaims_cache (d : Dev) (v : List Claim) : (d.setClaims v).cache = d.cache := rfl
@[simp] theorem Dev.setClaims_lines (d : Dev) (v : List Claim) : (d.setClaims v).lines = d.lines := rfl
@[simp] theorem Dev.setClaims_mem (d : Dev) (v : List Claim) : (d.setClaims v).mem = d.mem := rfl
@[simp] theorem Dev.setClaims_bad (d : Dev) (v : List Claim) : (d.setClaims v).bad = d.bad := rfl
@[simp] theorem Dev.setClaims_memFaults (d : Dev) (v : List Claim) : (d.setClaims v).memFaults = d.memFaults := rfl
@[simp] theorem Dev.setClaims_cores (d : Dev) (v : List Claim) : (d.setClaims v).cores = d.cores := rfl
@[simp] theorem Dev.setClaims_fields (d : Dev) (v : List Claim) : (d.setClaims v).fields = d.fields := rfl
@[simp] theorem Dev.setClaims_saves (d : Dev) (v : List Claim) : (d.setClaims v).saves = d.saves := rfl
@[simp] theorem Dev.setClaims_startup (d : Dev) (v : List Claim) : (d.setClaims v).startup = d.startup := rfl
@[simp] theorem Dev.setClaims_units (d : Dev) (v : List Claim) : (d.setClaims v).units = d.units := rfl
@[simp] theorem Dev.setClaims_silt (d : Dev) (v : List Claim) : (d.setClaims v).silt = d.silt := rfl
@[simp] theorem Dev.setClaims_lkk (d : Dev) (v : List Claim) : (d.setClaims v).lkk = d.lkk := rfl
@[simp] theorem Dev.setClaims_flumes (d : Dev) (v : List Claim) : (d.setClaims v).flumes = d.flumes := rfl
@[simp] theorem Dev.setClaims_divs (d : Dev) (v : List Claim) : (d.setClaims v).divs = d.divs := rfl
@[simp] theorem Dev.setClaims_divPins (d : Dev) (v : List Claim) : (d.setClaims v).divPins = d.divPins := rfl
@[simp] theorem Dev.setClaims_claims (d : Dev) (v : List Claim) : (d.setClaims v).claims = v := rfl
@[simp] theorem Dev.setClaims_steps (d : Dev) (v : List Claim) : (d.setClaims v).steps = d.steps := rfl
@[simp] theorem Dev.setClaims_parts (d : Dev) (v : List Claim) : (d.setClaims v).parts = d.parts := rfl
@[simp] theorem Dev.setClaims_cis (d : Dev) (v : List Claim) : (d.setClaims v).cis = d.cis := rfl
@[simp] theorem Dev.setClaims_gauges (d : Dev) (v : List Claim) : (d.setClaims v).gauges = d.gauges := rfl
@[simp] theorem Dev.setClaims_gaugeReports (d : Dev) (v : List Claim) : (d.setClaims v).gaugeReports = d.gaugeReports := rfl
@[simp] theorem Dev.setClaims_cfls (d : Dev) (v : List Claim) : (d.setClaims v).cfls = d.cfls := rfl
@[simp] theorem Dev.setClaims_cflElems (d : Dev) (v : List Claim) : (d.setClaims v).cflElems = d.cflElems := rfl
@[simp] theorem Dev.setClaims_sec (d : Dev) (v : List Claim) : (d.setClaims v).sec = d.sec := rfl
@[simp] theorem Dev.setClaims_power (d : Dev) (v : List Claim) : (d.setClaims v).power = d.power := rfl
@[simp] theorem Dev.setClaims_wakes (d : Dev) (v : List Claim) : (d.setClaims v).wakes = d.wakes := rfl
@[simp] theorem Dev.setClaims_serves (d : Dev) (v : List Claim) : (d.setClaims v).serves = d.serves := rfl
@[simp] theorem Dev.setClaims_tenants (d : Dev) (v : List Claim) : (d.setClaims v).tenants = d.tenants := rfl
@[simp] theorem Dev.setClaims_reqs (d : Dev) (v : List Claim) : (d.setClaims v).reqs = d.reqs := rfl
@[simp] theorem Dev.setClaims_nextReq (d : Dev) (v : List Claim) : (d.setClaims v).nextReq = d.nextReq := rfl
@[simp] theorem Dev.setClaims_ofts (d : Dev) (v : List Claim) : (d.setClaims v).ofts = d.ofts := rfl
@[simp] theorem Dev.setClaims_oftInsts (d : Dev) (v : List Claim) : (d.setClaims v).oftInsts = d.oftInsts := rfl
@[simp] theorem Dev.setClaims_oftTimes (d : Dev) (v : List Claim) : (d.setClaims v).oftTimes = d.oftTimes := rfl
@[simp] theorem Dev.setSteps_time (d : Dev) (v : List StepOrd) : (d.setSteps v).time = d.time := rfl
@[simp] theorem Dev.setSteps_out (d : Dev) (v : List StepOrd) : (d.setSteps v).out = d.out := rfl
@[simp] theorem Dev.setSteps_draws (d : Dev) (v : List StepOrd) : (d.setSteps v).draws = d.draws := rfl
@[simp] theorem Dev.setSteps_regs (d : Dev) (v : List StepOrd) : (d.setSteps v).regs = d.regs := rfl
@[simp] theorem Dev.setSteps_ports (d : Dev) (v : List StepOrd) : (d.setSteps v).ports = d.ports := rfl
@[simp] theorem Dev.setSteps_rings (d : Dev) (v : List StepOrd) : (d.setSteps v).rings = d.rings := rfl
@[simp] theorem Dev.setSteps_errs (d : Dev) (v : List StepOrd) : (d.setSteps v).errs = d.errs := rfl
@[simp] theorem Dev.setSteps_orders (d : Dev) (v : List StepOrd) : (d.setSteps v).orders = d.orders := rfl
@[simp] theorem Dev.setSteps_sluices (d : Dev) (v : List StepOrd) : (d.setSteps v).sluices = d.sluices := rfl
@[simp] theorem Dev.setSteps_msix (d : Dev) (v : List StepOrd) : (d.setSteps v).msix = d.msix := rfl
@[simp] theorem Dev.setSteps_gates (d : Dev) (v : List StepOrd) : (d.setSteps v).gates = d.gates := rfl
@[simp] theorem Dev.setSteps_waits (d : Dev) (v : List StepOrd) : (d.setSteps v).waits = d.waits := rfl
@[simp] theorem Dev.setSteps_canal (d : Dev) (v : List StepOrd) : (d.setSteps v).canal = d.canal := rfl
@[simp] theorem Dev.setSteps_ctxs (d : Dev) (v : List StepOrd) : (d.setSteps v).ctxs = d.ctxs := rfl
@[simp] theorem Dev.setSteps_sched (d : Dev) (v : List StepOrd) : (d.setSteps v).sched = d.sched := rfl
@[simp] theorem Dev.setSteps_survey (d : Dev) (v : List StepOrd) : (d.setSteps v).survey = d.survey := rfl
@[simp] theorem Dev.setSteps_dists (d : Dev) (v : List StepOrd) : (d.setSteps v).dists = d.dists := rfl
@[simp] theorem Dev.setSteps_devs (d : Dev) (v : List StepOrd) : (d.setSteps v).devs = d.devs := rfl
@[simp] theorem Dev.setSteps_cxl (d : Dev) (v : List StepOrd) : (d.setSteps v).cxl = d.cxl := rfl
@[simp] theorem Dev.setSteps_cache (d : Dev) (v : List StepOrd) : (d.setSteps v).cache = d.cache := rfl
@[simp] theorem Dev.setSteps_lines (d : Dev) (v : List StepOrd) : (d.setSteps v).lines = d.lines := rfl
@[simp] theorem Dev.setSteps_mem (d : Dev) (v : List StepOrd) : (d.setSteps v).mem = d.mem := rfl
@[simp] theorem Dev.setSteps_bad (d : Dev) (v : List StepOrd) : (d.setSteps v).bad = d.bad := rfl
@[simp] theorem Dev.setSteps_memFaults (d : Dev) (v : List StepOrd) : (d.setSteps v).memFaults = d.memFaults := rfl
@[simp] theorem Dev.setSteps_cores (d : Dev) (v : List StepOrd) : (d.setSteps v).cores = d.cores := rfl
@[simp] theorem Dev.setSteps_fields (d : Dev) (v : List StepOrd) : (d.setSteps v).fields = d.fields := rfl
@[simp] theorem Dev.setSteps_saves (d : Dev) (v : List StepOrd) : (d.setSteps v).saves = d.saves := rfl
@[simp] theorem Dev.setSteps_startup (d : Dev) (v : List StepOrd) : (d.setSteps v).startup = d.startup := rfl
@[simp] theorem Dev.setSteps_units (d : Dev) (v : List StepOrd) : (d.setSteps v).units = d.units := rfl
@[simp] theorem Dev.setSteps_silt (d : Dev) (v : List StepOrd) : (d.setSteps v).silt = d.silt := rfl
@[simp] theorem Dev.setSteps_lkk (d : Dev) (v : List StepOrd) : (d.setSteps v).lkk = d.lkk := rfl
@[simp] theorem Dev.setSteps_flumes (d : Dev) (v : List StepOrd) : (d.setSteps v).flumes = d.flumes := rfl
@[simp] theorem Dev.setSteps_divs (d : Dev) (v : List StepOrd) : (d.setSteps v).divs = d.divs := rfl
@[simp] theorem Dev.setSteps_divPins (d : Dev) (v : List StepOrd) : (d.setSteps v).divPins = d.divPins := rfl
@[simp] theorem Dev.setSteps_claims (d : Dev) (v : List StepOrd) : (d.setSteps v).claims = d.claims := rfl
@[simp] theorem Dev.setSteps_steps (d : Dev) (v : List StepOrd) : (d.setSteps v).steps = v := rfl
@[simp] theorem Dev.setSteps_parts (d : Dev) (v : List StepOrd) : (d.setSteps v).parts = d.parts := rfl
@[simp] theorem Dev.setSteps_cis (d : Dev) (v : List StepOrd) : (d.setSteps v).cis = d.cis := rfl
@[simp] theorem Dev.setSteps_gauges (d : Dev) (v : List StepOrd) : (d.setSteps v).gauges = d.gauges := rfl
@[simp] theorem Dev.setSteps_gaugeReports (d : Dev) (v : List StepOrd) : (d.setSteps v).gaugeReports = d.gaugeReports := rfl
@[simp] theorem Dev.setSteps_cfls (d : Dev) (v : List StepOrd) : (d.setSteps v).cfls = d.cfls := rfl
@[simp] theorem Dev.setSteps_cflElems (d : Dev) (v : List StepOrd) : (d.setSteps v).cflElems = d.cflElems := rfl
@[simp] theorem Dev.setSteps_sec (d : Dev) (v : List StepOrd) : (d.setSteps v).sec = d.sec := rfl
@[simp] theorem Dev.setSteps_power (d : Dev) (v : List StepOrd) : (d.setSteps v).power = d.power := rfl
@[simp] theorem Dev.setSteps_wakes (d : Dev) (v : List StepOrd) : (d.setSteps v).wakes = d.wakes := rfl
@[simp] theorem Dev.setSteps_serves (d : Dev) (v : List StepOrd) : (d.setSteps v).serves = d.serves := rfl
@[simp] theorem Dev.setSteps_tenants (d : Dev) (v : List StepOrd) : (d.setSteps v).tenants = d.tenants := rfl
@[simp] theorem Dev.setSteps_reqs (d : Dev) (v : List StepOrd) : (d.setSteps v).reqs = d.reqs := rfl
@[simp] theorem Dev.setSteps_nextReq (d : Dev) (v : List StepOrd) : (d.setSteps v).nextReq = d.nextReq := rfl
@[simp] theorem Dev.setSteps_ofts (d : Dev) (v : List StepOrd) : (d.setSteps v).ofts = d.ofts := rfl
@[simp] theorem Dev.setSteps_oftInsts (d : Dev) (v : List StepOrd) : (d.setSteps v).oftInsts = d.oftInsts := rfl
@[simp] theorem Dev.setSteps_oftTimes (d : Dev) (v : List StepOrd) : (d.setSteps v).oftTimes = d.oftTimes := rfl
@[simp] theorem Dev.setParts_time (d : Dev) (v : List Part) : (d.setParts v).time = d.time := rfl
@[simp] theorem Dev.setParts_out (d : Dev) (v : List Part) : (d.setParts v).out = d.out := rfl
@[simp] theorem Dev.setParts_draws (d : Dev) (v : List Part) : (d.setParts v).draws = d.draws := rfl
@[simp] theorem Dev.setParts_regs (d : Dev) (v : List Part) : (d.setParts v).regs = d.regs := rfl
@[simp] theorem Dev.setParts_ports (d : Dev) (v : List Part) : (d.setParts v).ports = d.ports := rfl
@[simp] theorem Dev.setParts_rings (d : Dev) (v : List Part) : (d.setParts v).rings = d.rings := rfl
@[simp] theorem Dev.setParts_errs (d : Dev) (v : List Part) : (d.setParts v).errs = d.errs := rfl
@[simp] theorem Dev.setParts_orders (d : Dev) (v : List Part) : (d.setParts v).orders = d.orders := rfl
@[simp] theorem Dev.setParts_sluices (d : Dev) (v : List Part) : (d.setParts v).sluices = d.sluices := rfl
@[simp] theorem Dev.setParts_msix (d : Dev) (v : List Part) : (d.setParts v).msix = d.msix := rfl
@[simp] theorem Dev.setParts_gates (d : Dev) (v : List Part) : (d.setParts v).gates = d.gates := rfl
@[simp] theorem Dev.setParts_waits (d : Dev) (v : List Part) : (d.setParts v).waits = d.waits := rfl
@[simp] theorem Dev.setParts_canal (d : Dev) (v : List Part) : (d.setParts v).canal = d.canal := rfl
@[simp] theorem Dev.setParts_ctxs (d : Dev) (v : List Part) : (d.setParts v).ctxs = d.ctxs := rfl
@[simp] theorem Dev.setParts_sched (d : Dev) (v : List Part) : (d.setParts v).sched = d.sched := rfl
@[simp] theorem Dev.setParts_survey (d : Dev) (v : List Part) : (d.setParts v).survey = d.survey := rfl
@[simp] theorem Dev.setParts_dists (d : Dev) (v : List Part) : (d.setParts v).dists = d.dists := rfl
@[simp] theorem Dev.setParts_devs (d : Dev) (v : List Part) : (d.setParts v).devs = d.devs := rfl
@[simp] theorem Dev.setParts_cxl (d : Dev) (v : List Part) : (d.setParts v).cxl = d.cxl := rfl
@[simp] theorem Dev.setParts_cache (d : Dev) (v : List Part) : (d.setParts v).cache = d.cache := rfl
@[simp] theorem Dev.setParts_lines (d : Dev) (v : List Part) : (d.setParts v).lines = d.lines := rfl
@[simp] theorem Dev.setParts_mem (d : Dev) (v : List Part) : (d.setParts v).mem = d.mem := rfl
@[simp] theorem Dev.setParts_bad (d : Dev) (v : List Part) : (d.setParts v).bad = d.bad := rfl
@[simp] theorem Dev.setParts_memFaults (d : Dev) (v : List Part) : (d.setParts v).memFaults = d.memFaults := rfl
@[simp] theorem Dev.setParts_cores (d : Dev) (v : List Part) : (d.setParts v).cores = d.cores := rfl
@[simp] theorem Dev.setParts_fields (d : Dev) (v : List Part) : (d.setParts v).fields = d.fields := rfl
@[simp] theorem Dev.setParts_saves (d : Dev) (v : List Part) : (d.setParts v).saves = d.saves := rfl
@[simp] theorem Dev.setParts_startup (d : Dev) (v : List Part) : (d.setParts v).startup = d.startup := rfl
@[simp] theorem Dev.setParts_units (d : Dev) (v : List Part) : (d.setParts v).units = d.units := rfl
@[simp] theorem Dev.setParts_silt (d : Dev) (v : List Part) : (d.setParts v).silt = d.silt := rfl
@[simp] theorem Dev.setParts_lkk (d : Dev) (v : List Part) : (d.setParts v).lkk = d.lkk := rfl
@[simp] theorem Dev.setParts_flumes (d : Dev) (v : List Part) : (d.setParts v).flumes = d.flumes := rfl
@[simp] theorem Dev.setParts_divs (d : Dev) (v : List Part) : (d.setParts v).divs = d.divs := rfl
@[simp] theorem Dev.setParts_divPins (d : Dev) (v : List Part) : (d.setParts v).divPins = d.divPins := rfl
@[simp] theorem Dev.setParts_claims (d : Dev) (v : List Part) : (d.setParts v).claims = d.claims := rfl
@[simp] theorem Dev.setParts_steps (d : Dev) (v : List Part) : (d.setParts v).steps = d.steps := rfl
@[simp] theorem Dev.setParts_parts (d : Dev) (v : List Part) : (d.setParts v).parts = v := rfl
@[simp] theorem Dev.setParts_cis (d : Dev) (v : List Part) : (d.setParts v).cis = d.cis := rfl
@[simp] theorem Dev.setParts_gauges (d : Dev) (v : List Part) : (d.setParts v).gauges = d.gauges := rfl
@[simp] theorem Dev.setParts_gaugeReports (d : Dev) (v : List Part) : (d.setParts v).gaugeReports = d.gaugeReports := rfl
@[simp] theorem Dev.setParts_cfls (d : Dev) (v : List Part) : (d.setParts v).cfls = d.cfls := rfl
@[simp] theorem Dev.setParts_cflElems (d : Dev) (v : List Part) : (d.setParts v).cflElems = d.cflElems := rfl
@[simp] theorem Dev.setParts_sec (d : Dev) (v : List Part) : (d.setParts v).sec = d.sec := rfl
@[simp] theorem Dev.setParts_power (d : Dev) (v : List Part) : (d.setParts v).power = d.power := rfl
@[simp] theorem Dev.setParts_wakes (d : Dev) (v : List Part) : (d.setParts v).wakes = d.wakes := rfl
@[simp] theorem Dev.setParts_serves (d : Dev) (v : List Part) : (d.setParts v).serves = d.serves := rfl
@[simp] theorem Dev.setParts_tenants (d : Dev) (v : List Part) : (d.setParts v).tenants = d.tenants := rfl
@[simp] theorem Dev.setParts_reqs (d : Dev) (v : List Part) : (d.setParts v).reqs = d.reqs := rfl
@[simp] theorem Dev.setParts_nextReq (d : Dev) (v : List Part) : (d.setParts v).nextReq = d.nextReq := rfl
@[simp] theorem Dev.setParts_ofts (d : Dev) (v : List Part) : (d.setParts v).ofts = d.ofts := rfl
@[simp] theorem Dev.setParts_oftInsts (d : Dev) (v : List Part) : (d.setParts v).oftInsts = d.oftInsts := rfl
@[simp] theorem Dev.setParts_oftTimes (d : Dev) (v : List Part) : (d.setParts v).oftTimes = d.oftTimes := rfl
@[simp] theorem Dev.setCis_time (d : Dev) (v : Tbl Cistern) : (d.setCis v).time = d.time := rfl
@[simp] theorem Dev.setCis_out (d : Dev) (v : Tbl Cistern) : (d.setCis v).out = d.out := rfl
@[simp] theorem Dev.setCis_draws (d : Dev) (v : Tbl Cistern) : (d.setCis v).draws = d.draws := rfl
@[simp] theorem Dev.setCis_regs (d : Dev) (v : Tbl Cistern) : (d.setCis v).regs = d.regs := rfl
@[simp] theorem Dev.setCis_ports (d : Dev) (v : Tbl Cistern) : (d.setCis v).ports = d.ports := rfl
@[simp] theorem Dev.setCis_rings (d : Dev) (v : Tbl Cistern) : (d.setCis v).rings = d.rings := rfl
@[simp] theorem Dev.setCis_errs (d : Dev) (v : Tbl Cistern) : (d.setCis v).errs = d.errs := rfl
@[simp] theorem Dev.setCis_orders (d : Dev) (v : Tbl Cistern) : (d.setCis v).orders = d.orders := rfl
@[simp] theorem Dev.setCis_sluices (d : Dev) (v : Tbl Cistern) : (d.setCis v).sluices = d.sluices := rfl
@[simp] theorem Dev.setCis_msix (d : Dev) (v : Tbl Cistern) : (d.setCis v).msix = d.msix := rfl
@[simp] theorem Dev.setCis_gates (d : Dev) (v : Tbl Cistern) : (d.setCis v).gates = d.gates := rfl
@[simp] theorem Dev.setCis_waits (d : Dev) (v : Tbl Cistern) : (d.setCis v).waits = d.waits := rfl
@[simp] theorem Dev.setCis_canal (d : Dev) (v : Tbl Cistern) : (d.setCis v).canal = d.canal := rfl
@[simp] theorem Dev.setCis_ctxs (d : Dev) (v : Tbl Cistern) : (d.setCis v).ctxs = d.ctxs := rfl
@[simp] theorem Dev.setCis_sched (d : Dev) (v : Tbl Cistern) : (d.setCis v).sched = d.sched := rfl
@[simp] theorem Dev.setCis_survey (d : Dev) (v : Tbl Cistern) : (d.setCis v).survey = d.survey := rfl
@[simp] theorem Dev.setCis_dists (d : Dev) (v : Tbl Cistern) : (d.setCis v).dists = d.dists := rfl
@[simp] theorem Dev.setCis_devs (d : Dev) (v : Tbl Cistern) : (d.setCis v).devs = d.devs := rfl
@[simp] theorem Dev.setCis_cxl (d : Dev) (v : Tbl Cistern) : (d.setCis v).cxl = d.cxl := rfl
@[simp] theorem Dev.setCis_cache (d : Dev) (v : Tbl Cistern) : (d.setCis v).cache = d.cache := rfl
@[simp] theorem Dev.setCis_lines (d : Dev) (v : Tbl Cistern) : (d.setCis v).lines = d.lines := rfl
@[simp] theorem Dev.setCis_mem (d : Dev) (v : Tbl Cistern) : (d.setCis v).mem = d.mem := rfl
@[simp] theorem Dev.setCis_bad (d : Dev) (v : Tbl Cistern) : (d.setCis v).bad = d.bad := rfl
@[simp] theorem Dev.setCis_memFaults (d : Dev) (v : Tbl Cistern) : (d.setCis v).memFaults = d.memFaults := rfl
@[simp] theorem Dev.setCis_cores (d : Dev) (v : Tbl Cistern) : (d.setCis v).cores = d.cores := rfl
@[simp] theorem Dev.setCis_fields (d : Dev) (v : Tbl Cistern) : (d.setCis v).fields = d.fields := rfl
@[simp] theorem Dev.setCis_saves (d : Dev) (v : Tbl Cistern) : (d.setCis v).saves = d.saves := rfl
@[simp] theorem Dev.setCis_startup (d : Dev) (v : Tbl Cistern) : (d.setCis v).startup = d.startup := rfl
@[simp] theorem Dev.setCis_units (d : Dev) (v : Tbl Cistern) : (d.setCis v).units = d.units := rfl
@[simp] theorem Dev.setCis_silt (d : Dev) (v : Tbl Cistern) : (d.setCis v).silt = d.silt := rfl
@[simp] theorem Dev.setCis_lkk (d : Dev) (v : Tbl Cistern) : (d.setCis v).lkk = d.lkk := rfl
@[simp] theorem Dev.setCis_flumes (d : Dev) (v : Tbl Cistern) : (d.setCis v).flumes = d.flumes := rfl
@[simp] theorem Dev.setCis_divs (d : Dev) (v : Tbl Cistern) : (d.setCis v).divs = d.divs := rfl
@[simp] theorem Dev.setCis_divPins (d : Dev) (v : Tbl Cistern) : (d.setCis v).divPins = d.divPins := rfl
@[simp] theorem Dev.setCis_claims (d : Dev) (v : Tbl Cistern) : (d.setCis v).claims = d.claims := rfl
@[simp] theorem Dev.setCis_steps (d : Dev) (v : Tbl Cistern) : (d.setCis v).steps = d.steps := rfl
@[simp] theorem Dev.setCis_parts (d : Dev) (v : Tbl Cistern) : (d.setCis v).parts = d.parts := rfl
@[simp] theorem Dev.setCis_cis (d : Dev) (v : Tbl Cistern) : (d.setCis v).cis = v := rfl
@[simp] theorem Dev.setCis_gauges (d : Dev) (v : Tbl Cistern) : (d.setCis v).gauges = d.gauges := rfl
@[simp] theorem Dev.setCis_gaugeReports (d : Dev) (v : Tbl Cistern) : (d.setCis v).gaugeReports = d.gaugeReports := rfl
@[simp] theorem Dev.setCis_cfls (d : Dev) (v : Tbl Cistern) : (d.setCis v).cfls = d.cfls := rfl
@[simp] theorem Dev.setCis_cflElems (d : Dev) (v : Tbl Cistern) : (d.setCis v).cflElems = d.cflElems := rfl
@[simp] theorem Dev.setCis_sec (d : Dev) (v : Tbl Cistern) : (d.setCis v).sec = d.sec := rfl
@[simp] theorem Dev.setCis_power (d : Dev) (v : Tbl Cistern) : (d.setCis v).power = d.power := rfl
@[simp] theorem Dev.setCis_wakes (d : Dev) (v : Tbl Cistern) : (d.setCis v).wakes = d.wakes := rfl
@[simp] theorem Dev.setCis_serves (d : Dev) (v : Tbl Cistern) : (d.setCis v).serves = d.serves := rfl
@[simp] theorem Dev.setCis_tenants (d : Dev) (v : Tbl Cistern) : (d.setCis v).tenants = d.tenants := rfl
@[simp] theorem Dev.setCis_reqs (d : Dev) (v : Tbl Cistern) : (d.setCis v).reqs = d.reqs := rfl
@[simp] theorem Dev.setCis_nextReq (d : Dev) (v : Tbl Cistern) : (d.setCis v).nextReq = d.nextReq := rfl
@[simp] theorem Dev.setCis_ofts (d : Dev) (v : Tbl Cistern) : (d.setCis v).ofts = d.ofts := rfl
@[simp] theorem Dev.setCis_oftInsts (d : Dev) (v : Tbl Cistern) : (d.setCis v).oftInsts = d.oftInsts := rfl
@[simp] theorem Dev.setCis_oftTimes (d : Dev) (v : Tbl Cistern) : (d.setCis v).oftTimes = d.oftTimes := rfl
@[simp] theorem Dev.setGauges_time (d : Dev) (v : Tbl Gauge) : (d.setGauges v).time = d.time := rfl
@[simp] theorem Dev.setGauges_out (d : Dev) (v : Tbl Gauge) : (d.setGauges v).out = d.out := rfl
@[simp] theorem Dev.setGauges_draws (d : Dev) (v : Tbl Gauge) : (d.setGauges v).draws = d.draws := rfl
@[simp] theorem Dev.setGauges_regs (d : Dev) (v : Tbl Gauge) : (d.setGauges v).regs = d.regs := rfl
@[simp] theorem Dev.setGauges_ports (d : Dev) (v : Tbl Gauge) : (d.setGauges v).ports = d.ports := rfl
@[simp] theorem Dev.setGauges_rings (d : Dev) (v : Tbl Gauge) : (d.setGauges v).rings = d.rings := rfl
@[simp] theorem Dev.setGauges_errs (d : Dev) (v : Tbl Gauge) : (d.setGauges v).errs = d.errs := rfl
@[simp] theorem Dev.setGauges_orders (d : Dev) (v : Tbl Gauge) : (d.setGauges v).orders = d.orders := rfl
@[simp] theorem Dev.setGauges_sluices (d : Dev) (v : Tbl Gauge) : (d.setGauges v).sluices = d.sluices := rfl
@[simp] theorem Dev.setGauges_msix (d : Dev) (v : Tbl Gauge) : (d.setGauges v).msix = d.msix := rfl
@[simp] theorem Dev.setGauges_gates (d : Dev) (v : Tbl Gauge) : (d.setGauges v).gates = d.gates := rfl
@[simp] theorem Dev.setGauges_waits (d : Dev) (v : Tbl Gauge) : (d.setGauges v).waits = d.waits := rfl
@[simp] theorem Dev.setGauges_canal (d : Dev) (v : Tbl Gauge) : (d.setGauges v).canal = d.canal := rfl
@[simp] theorem Dev.setGauges_ctxs (d : Dev) (v : Tbl Gauge) : (d.setGauges v).ctxs = d.ctxs := rfl
@[simp] theorem Dev.setGauges_sched (d : Dev) (v : Tbl Gauge) : (d.setGauges v).sched = d.sched := rfl
@[simp] theorem Dev.setGauges_survey (d : Dev) (v : Tbl Gauge) : (d.setGauges v).survey = d.survey := rfl
@[simp] theorem Dev.setGauges_dists (d : Dev) (v : Tbl Gauge) : (d.setGauges v).dists = d.dists := rfl
@[simp] theorem Dev.setGauges_devs (d : Dev) (v : Tbl Gauge) : (d.setGauges v).devs = d.devs := rfl
@[simp] theorem Dev.setGauges_cxl (d : Dev) (v : Tbl Gauge) : (d.setGauges v).cxl = d.cxl := rfl
@[simp] theorem Dev.setGauges_cache (d : Dev) (v : Tbl Gauge) : (d.setGauges v).cache = d.cache := rfl
@[simp] theorem Dev.setGauges_lines (d : Dev) (v : Tbl Gauge) : (d.setGauges v).lines = d.lines := rfl
@[simp] theorem Dev.setGauges_mem (d : Dev) (v : Tbl Gauge) : (d.setGauges v).mem = d.mem := rfl
@[simp] theorem Dev.setGauges_bad (d : Dev) (v : Tbl Gauge) : (d.setGauges v).bad = d.bad := rfl
@[simp] theorem Dev.setGauges_memFaults (d : Dev) (v : Tbl Gauge) : (d.setGauges v).memFaults = d.memFaults := rfl
@[simp] theorem Dev.setGauges_cores (d : Dev) (v : Tbl Gauge) : (d.setGauges v).cores = d.cores := rfl
@[simp] theorem Dev.setGauges_fields (d : Dev) (v : Tbl Gauge) : (d.setGauges v).fields = d.fields := rfl
@[simp] theorem Dev.setGauges_saves (d : Dev) (v : Tbl Gauge) : (d.setGauges v).saves = d.saves := rfl
@[simp] theorem Dev.setGauges_startup (d : Dev) (v : Tbl Gauge) : (d.setGauges v).startup = d.startup := rfl
@[simp] theorem Dev.setGauges_units (d : Dev) (v : Tbl Gauge) : (d.setGauges v).units = d.units := rfl
@[simp] theorem Dev.setGauges_silt (d : Dev) (v : Tbl Gauge) : (d.setGauges v).silt = d.silt := rfl
@[simp] theorem Dev.setGauges_lkk (d : Dev) (v : Tbl Gauge) : (d.setGauges v).lkk = d.lkk := rfl
@[simp] theorem Dev.setGauges_flumes (d : Dev) (v : Tbl Gauge) : (d.setGauges v).flumes = d.flumes := rfl
@[simp] theorem Dev.setGauges_divs (d : Dev) (v : Tbl Gauge) : (d.setGauges v).divs = d.divs := rfl
@[simp] theorem Dev.setGauges_divPins (d : Dev) (v : Tbl Gauge) : (d.setGauges v).divPins = d.divPins := rfl
@[simp] theorem Dev.setGauges_claims (d : Dev) (v : Tbl Gauge) : (d.setGauges v).claims = d.claims := rfl
@[simp] theorem Dev.setGauges_steps (d : Dev) (v : Tbl Gauge) : (d.setGauges v).steps = d.steps := rfl
@[simp] theorem Dev.setGauges_parts (d : Dev) (v : Tbl Gauge) : (d.setGauges v).parts = d.parts := rfl
@[simp] theorem Dev.setGauges_cis (d : Dev) (v : Tbl Gauge) : (d.setGauges v).cis = d.cis := rfl
@[simp] theorem Dev.setGauges_gauges (d : Dev) (v : Tbl Gauge) : (d.setGauges v).gauges = v := rfl
@[simp] theorem Dev.setGauges_gaugeReports (d : Dev) (v : Tbl Gauge) : (d.setGauges v).gaugeReports = d.gaugeReports := rfl
@[simp] theorem Dev.setGauges_cfls (d : Dev) (v : Tbl Gauge) : (d.setGauges v).cfls = d.cfls := rfl
@[simp] theorem Dev.setGauges_cflElems (d : Dev) (v : Tbl Gauge) : (d.setGauges v).cflElems = d.cflElems := rfl
@[simp] theorem Dev.setGauges_sec (d : Dev) (v : Tbl Gauge) : (d.setGauges v).sec = d.sec := rfl
@[simp] theorem Dev.setGauges_power (d : Dev) (v : Tbl Gauge) : (d.setGauges v).power = d.power := rfl
@[simp] theorem Dev.setGauges_wakes (d : Dev) (v : Tbl Gauge) : (d.setGauges v).wakes = d.wakes := rfl
@[simp] theorem Dev.setGauges_serves (d : Dev) (v : Tbl Gauge) : (d.setGauges v).serves = d.serves := rfl
@[simp] theorem Dev.setGauges_tenants (d : Dev) (v : Tbl Gauge) : (d.setGauges v).tenants = d.tenants := rfl
@[simp] theorem Dev.setGauges_reqs (d : Dev) (v : Tbl Gauge) : (d.setGauges v).reqs = d.reqs := rfl
@[simp] theorem Dev.setGauges_nextReq (d : Dev) (v : Tbl Gauge) : (d.setGauges v).nextReq = d.nextReq := rfl
@[simp] theorem Dev.setGauges_ofts (d : Dev) (v : Tbl Gauge) : (d.setGauges v).ofts = d.ofts := rfl
@[simp] theorem Dev.setGauges_oftInsts (d : Dev) (v : Tbl Gauge) : (d.setGauges v).oftInsts = d.oftInsts := rfl
@[simp] theorem Dev.setGauges_oftTimes (d : Dev) (v : Tbl Gauge) : (d.setGauges v).oftTimes = d.oftTimes := rfl
@[simp] theorem Dev.setGaugeReports_time (d : Dev) (v : List Nat) : (d.setGaugeReports v).time = d.time := rfl
@[simp] theorem Dev.setGaugeReports_out (d : Dev) (v : List Nat) : (d.setGaugeReports v).out = d.out := rfl
@[simp] theorem Dev.setGaugeReports_draws (d : Dev) (v : List Nat) : (d.setGaugeReports v).draws = d.draws := rfl
@[simp] theorem Dev.setGaugeReports_regs (d : Dev) (v : List Nat) : (d.setGaugeReports v).regs = d.regs := rfl
@[simp] theorem Dev.setGaugeReports_ports (d : Dev) (v : List Nat) : (d.setGaugeReports v).ports = d.ports := rfl
@[simp] theorem Dev.setGaugeReports_rings (d : Dev) (v : List Nat) : (d.setGaugeReports v).rings = d.rings := rfl
@[simp] theorem Dev.setGaugeReports_errs (d : Dev) (v : List Nat) : (d.setGaugeReports v).errs = d.errs := rfl
@[simp] theorem Dev.setGaugeReports_orders (d : Dev) (v : List Nat) : (d.setGaugeReports v).orders = d.orders := rfl
@[simp] theorem Dev.setGaugeReports_sluices (d : Dev) (v : List Nat) : (d.setGaugeReports v).sluices = d.sluices := rfl
@[simp] theorem Dev.setGaugeReports_msix (d : Dev) (v : List Nat) : (d.setGaugeReports v).msix = d.msix := rfl
@[simp] theorem Dev.setGaugeReports_gates (d : Dev) (v : List Nat) : (d.setGaugeReports v).gates = d.gates := rfl
@[simp] theorem Dev.setGaugeReports_waits (d : Dev) (v : List Nat) : (d.setGaugeReports v).waits = d.waits := rfl
@[simp] theorem Dev.setGaugeReports_canal (d : Dev) (v : List Nat) : (d.setGaugeReports v).canal = d.canal := rfl
@[simp] theorem Dev.setGaugeReports_ctxs (d : Dev) (v : List Nat) : (d.setGaugeReports v).ctxs = d.ctxs := rfl
@[simp] theorem Dev.setGaugeReports_sched (d : Dev) (v : List Nat) : (d.setGaugeReports v).sched = d.sched := rfl
@[simp] theorem Dev.setGaugeReports_survey (d : Dev) (v : List Nat) : (d.setGaugeReports v).survey = d.survey := rfl
@[simp] theorem Dev.setGaugeReports_dists (d : Dev) (v : List Nat) : (d.setGaugeReports v).dists = d.dists := rfl
@[simp] theorem Dev.setGaugeReports_devs (d : Dev) (v : List Nat) : (d.setGaugeReports v).devs = d.devs := rfl
@[simp] theorem Dev.setGaugeReports_cxl (d : Dev) (v : List Nat) : (d.setGaugeReports v).cxl = d.cxl := rfl
@[simp] theorem Dev.setGaugeReports_cache (d : Dev) (v : List Nat) : (d.setGaugeReports v).cache = d.cache := rfl
@[simp] theorem Dev.setGaugeReports_lines (d : Dev) (v : List Nat) : (d.setGaugeReports v).lines = d.lines := rfl
@[simp] theorem Dev.setGaugeReports_mem (d : Dev) (v : List Nat) : (d.setGaugeReports v).mem = d.mem := rfl
@[simp] theorem Dev.setGaugeReports_bad (d : Dev) (v : List Nat) : (d.setGaugeReports v).bad = d.bad := rfl
@[simp] theorem Dev.setGaugeReports_memFaults (d : Dev) (v : List Nat) : (d.setGaugeReports v).memFaults = d.memFaults := rfl
@[simp] theorem Dev.setGaugeReports_cores (d : Dev) (v : List Nat) : (d.setGaugeReports v).cores = d.cores := rfl
@[simp] theorem Dev.setGaugeReports_fields (d : Dev) (v : List Nat) : (d.setGaugeReports v).fields = d.fields := rfl
@[simp] theorem Dev.setGaugeReports_saves (d : Dev) (v : List Nat) : (d.setGaugeReports v).saves = d.saves := rfl
@[simp] theorem Dev.setGaugeReports_startup (d : Dev) (v : List Nat) : (d.setGaugeReports v).startup = d.startup := rfl
@[simp] theorem Dev.setGaugeReports_units (d : Dev) (v : List Nat) : (d.setGaugeReports v).units = d.units := rfl
@[simp] theorem Dev.setGaugeReports_silt (d : Dev) (v : List Nat) : (d.setGaugeReports v).silt = d.silt := rfl
@[simp] theorem Dev.setGaugeReports_lkk (d : Dev) (v : List Nat) : (d.setGaugeReports v).lkk = d.lkk := rfl
@[simp] theorem Dev.setGaugeReports_flumes (d : Dev) (v : List Nat) : (d.setGaugeReports v).flumes = d.flumes := rfl
@[simp] theorem Dev.setGaugeReports_divs (d : Dev) (v : List Nat) : (d.setGaugeReports v).divs = d.divs := rfl
@[simp] theorem Dev.setGaugeReports_divPins (d : Dev) (v : List Nat) : (d.setGaugeReports v).divPins = d.divPins := rfl
@[simp] theorem Dev.setGaugeReports_claims (d : Dev) (v : List Nat) : (d.setGaugeReports v).claims = d.claims := rfl
@[simp] theorem Dev.setGaugeReports_steps (d : Dev) (v : List Nat) : (d.setGaugeReports v).steps = d.steps := rfl
@[simp] theorem Dev.setGaugeReports_parts (d : Dev) (v : List Nat) : (d.setGaugeReports v).parts = d.parts := rfl
@[simp] theorem Dev.setGaugeReports_cis (d : Dev) (v : List Nat) : (d.setGaugeReports v).cis = d.cis := rfl
@[simp] theorem Dev.setGaugeReports_gauges (d : Dev) (v : List Nat) : (d.setGaugeReports v).gauges = d.gauges := rfl
@[simp] theorem Dev.setGaugeReports_gaugeReports (d : Dev) (v : List Nat) : (d.setGaugeReports v).gaugeReports = v := rfl
@[simp] theorem Dev.setGaugeReports_cfls (d : Dev) (v : List Nat) : (d.setGaugeReports v).cfls = d.cfls := rfl
@[simp] theorem Dev.setGaugeReports_cflElems (d : Dev) (v : List Nat) : (d.setGaugeReports v).cflElems = d.cflElems := rfl
@[simp] theorem Dev.setGaugeReports_sec (d : Dev) (v : List Nat) : (d.setGaugeReports v).sec = d.sec := rfl
@[simp] theorem Dev.setGaugeReports_power (d : Dev) (v : List Nat) : (d.setGaugeReports v).power = d.power := rfl
@[simp] theorem Dev.setGaugeReports_wakes (d : Dev) (v : List Nat) : (d.setGaugeReports v).wakes = d.wakes := rfl
@[simp] theorem Dev.setGaugeReports_serves (d : Dev) (v : List Nat) : (d.setGaugeReports v).serves = d.serves := rfl
@[simp] theorem Dev.setGaugeReports_tenants (d : Dev) (v : List Nat) : (d.setGaugeReports v).tenants = d.tenants := rfl
@[simp] theorem Dev.setGaugeReports_reqs (d : Dev) (v : List Nat) : (d.setGaugeReports v).reqs = d.reqs := rfl
@[simp] theorem Dev.setGaugeReports_nextReq (d : Dev) (v : List Nat) : (d.setGaugeReports v).nextReq = d.nextReq := rfl
@[simp] theorem Dev.setGaugeReports_ofts (d : Dev) (v : List Nat) : (d.setGaugeReports v).ofts = d.ofts := rfl
@[simp] theorem Dev.setGaugeReports_oftInsts (d : Dev) (v : List Nat) : (d.setGaugeReports v).oftInsts = d.oftInsts := rfl
@[simp] theorem Dev.setGaugeReports_oftTimes (d : Dev) (v : List Nat) : (d.setGaugeReports v).oftTimes = d.oftTimes := rfl
@[simp] theorem Dev.setCfls_time (d : Dev) (v : Tbl Cfl) : (d.setCfls v).time = d.time := rfl
@[simp] theorem Dev.setCfls_out (d : Dev) (v : Tbl Cfl) : (d.setCfls v).out = d.out := rfl
@[simp] theorem Dev.setCfls_draws (d : Dev) (v : Tbl Cfl) : (d.setCfls v).draws = d.draws := rfl
@[simp] theorem Dev.setCfls_regs (d : Dev) (v : Tbl Cfl) : (d.setCfls v).regs = d.regs := rfl
@[simp] theorem Dev.setCfls_ports (d : Dev) (v : Tbl Cfl) : (d.setCfls v).ports = d.ports := rfl
@[simp] theorem Dev.setCfls_rings (d : Dev) (v : Tbl Cfl) : (d.setCfls v).rings = d.rings := rfl
@[simp] theorem Dev.setCfls_errs (d : Dev) (v : Tbl Cfl) : (d.setCfls v).errs = d.errs := rfl
@[simp] theorem Dev.setCfls_orders (d : Dev) (v : Tbl Cfl) : (d.setCfls v).orders = d.orders := rfl
@[simp] theorem Dev.setCfls_sluices (d : Dev) (v : Tbl Cfl) : (d.setCfls v).sluices = d.sluices := rfl
@[simp] theorem Dev.setCfls_msix (d : Dev) (v : Tbl Cfl) : (d.setCfls v).msix = d.msix := rfl
@[simp] theorem Dev.setCfls_gates (d : Dev) (v : Tbl Cfl) : (d.setCfls v).gates = d.gates := rfl
@[simp] theorem Dev.setCfls_waits (d : Dev) (v : Tbl Cfl) : (d.setCfls v).waits = d.waits := rfl
@[simp] theorem Dev.setCfls_canal (d : Dev) (v : Tbl Cfl) : (d.setCfls v).canal = d.canal := rfl
@[simp] theorem Dev.setCfls_ctxs (d : Dev) (v : Tbl Cfl) : (d.setCfls v).ctxs = d.ctxs := rfl
@[simp] theorem Dev.setCfls_sched (d : Dev) (v : Tbl Cfl) : (d.setCfls v).sched = d.sched := rfl
@[simp] theorem Dev.setCfls_survey (d : Dev) (v : Tbl Cfl) : (d.setCfls v).survey = d.survey := rfl
@[simp] theorem Dev.setCfls_dists (d : Dev) (v : Tbl Cfl) : (d.setCfls v).dists = d.dists := rfl
@[simp] theorem Dev.setCfls_devs (d : Dev) (v : Tbl Cfl) : (d.setCfls v).devs = d.devs := rfl
@[simp] theorem Dev.setCfls_cxl (d : Dev) (v : Tbl Cfl) : (d.setCfls v).cxl = d.cxl := rfl
@[simp] theorem Dev.setCfls_cache (d : Dev) (v : Tbl Cfl) : (d.setCfls v).cache = d.cache := rfl
@[simp] theorem Dev.setCfls_lines (d : Dev) (v : Tbl Cfl) : (d.setCfls v).lines = d.lines := rfl
@[simp] theorem Dev.setCfls_mem (d : Dev) (v : Tbl Cfl) : (d.setCfls v).mem = d.mem := rfl
@[simp] theorem Dev.setCfls_bad (d : Dev) (v : Tbl Cfl) : (d.setCfls v).bad = d.bad := rfl
@[simp] theorem Dev.setCfls_memFaults (d : Dev) (v : Tbl Cfl) : (d.setCfls v).memFaults = d.memFaults := rfl
@[simp] theorem Dev.setCfls_cores (d : Dev) (v : Tbl Cfl) : (d.setCfls v).cores = d.cores := rfl
@[simp] theorem Dev.setCfls_fields (d : Dev) (v : Tbl Cfl) : (d.setCfls v).fields = d.fields := rfl
@[simp] theorem Dev.setCfls_saves (d : Dev) (v : Tbl Cfl) : (d.setCfls v).saves = d.saves := rfl
@[simp] theorem Dev.setCfls_startup (d : Dev) (v : Tbl Cfl) : (d.setCfls v).startup = d.startup := rfl
@[simp] theorem Dev.setCfls_units (d : Dev) (v : Tbl Cfl) : (d.setCfls v).units = d.units := rfl
@[simp] theorem Dev.setCfls_silt (d : Dev) (v : Tbl Cfl) : (d.setCfls v).silt = d.silt := rfl
@[simp] theorem Dev.setCfls_lkk (d : Dev) (v : Tbl Cfl) : (d.setCfls v).lkk = d.lkk := rfl
@[simp] theorem Dev.setCfls_flumes (d : Dev) (v : Tbl Cfl) : (d.setCfls v).flumes = d.flumes := rfl
@[simp] theorem Dev.setCfls_divs (d : Dev) (v : Tbl Cfl) : (d.setCfls v).divs = d.divs := rfl
@[simp] theorem Dev.setCfls_divPins (d : Dev) (v : Tbl Cfl) : (d.setCfls v).divPins = d.divPins := rfl
@[simp] theorem Dev.setCfls_claims (d : Dev) (v : Tbl Cfl) : (d.setCfls v).claims = d.claims := rfl
@[simp] theorem Dev.setCfls_steps (d : Dev) (v : Tbl Cfl) : (d.setCfls v).steps = d.steps := rfl
@[simp] theorem Dev.setCfls_parts (d : Dev) (v : Tbl Cfl) : (d.setCfls v).parts = d.parts := rfl
@[simp] theorem Dev.setCfls_cis (d : Dev) (v : Tbl Cfl) : (d.setCfls v).cis = d.cis := rfl
@[simp] theorem Dev.setCfls_gauges (d : Dev) (v : Tbl Cfl) : (d.setCfls v).gauges = d.gauges := rfl
@[simp] theorem Dev.setCfls_gaugeReports (d : Dev) (v : Tbl Cfl) : (d.setCfls v).gaugeReports = d.gaugeReports := rfl
@[simp] theorem Dev.setCfls_cfls (d : Dev) (v : Tbl Cfl) : (d.setCfls v).cfls = v := rfl
@[simp] theorem Dev.setCfls_cflElems (d : Dev) (v : Tbl Cfl) : (d.setCfls v).cflElems = d.cflElems := rfl
@[simp] theorem Dev.setCfls_sec (d : Dev) (v : Tbl Cfl) : (d.setCfls v).sec = d.sec := rfl
@[simp] theorem Dev.setCfls_power (d : Dev) (v : Tbl Cfl) : (d.setCfls v).power = d.power := rfl
@[simp] theorem Dev.setCfls_wakes (d : Dev) (v : Tbl Cfl) : (d.setCfls v).wakes = d.wakes := rfl
@[simp] theorem Dev.setCfls_serves (d : Dev) (v : Tbl Cfl) : (d.setCfls v).serves = d.serves := rfl
@[simp] theorem Dev.setCfls_tenants (d : Dev) (v : Tbl Cfl) : (d.setCfls v).tenants = d.tenants := rfl
@[simp] theorem Dev.setCfls_reqs (d : Dev) (v : Tbl Cfl) : (d.setCfls v).reqs = d.reqs := rfl
@[simp] theorem Dev.setCfls_nextReq (d : Dev) (v : Tbl Cfl) : (d.setCfls v).nextReq = d.nextReq := rfl
@[simp] theorem Dev.setCfls_ofts (d : Dev) (v : Tbl Cfl) : (d.setCfls v).ofts = d.ofts := rfl
@[simp] theorem Dev.setCfls_oftInsts (d : Dev) (v : Tbl Cfl) : (d.setCfls v).oftInsts = d.oftInsts := rfl
@[simp] theorem Dev.setCfls_oftTimes (d : Dev) (v : Tbl Cfl) : (d.setCfls v).oftTimes = d.oftTimes := rfl
@[simp] theorem Dev.setCflElems_time (d : Dev) (v : List Nat) : (d.setCflElems v).time = d.time := rfl
@[simp] theorem Dev.setCflElems_out (d : Dev) (v : List Nat) : (d.setCflElems v).out = d.out := rfl
@[simp] theorem Dev.setCflElems_draws (d : Dev) (v : List Nat) : (d.setCflElems v).draws = d.draws := rfl
@[simp] theorem Dev.setCflElems_regs (d : Dev) (v : List Nat) : (d.setCflElems v).regs = d.regs := rfl
@[simp] theorem Dev.setCflElems_ports (d : Dev) (v : List Nat) : (d.setCflElems v).ports = d.ports := rfl
@[simp] theorem Dev.setCflElems_rings (d : Dev) (v : List Nat) : (d.setCflElems v).rings = d.rings := rfl
@[simp] theorem Dev.setCflElems_errs (d : Dev) (v : List Nat) : (d.setCflElems v).errs = d.errs := rfl
@[simp] theorem Dev.setCflElems_orders (d : Dev) (v : List Nat) : (d.setCflElems v).orders = d.orders := rfl
@[simp] theorem Dev.setCflElems_sluices (d : Dev) (v : List Nat) : (d.setCflElems v).sluices = d.sluices := rfl
@[simp] theorem Dev.setCflElems_msix (d : Dev) (v : List Nat) : (d.setCflElems v).msix = d.msix := rfl
@[simp] theorem Dev.setCflElems_gates (d : Dev) (v : List Nat) : (d.setCflElems v).gates = d.gates := rfl
@[simp] theorem Dev.setCflElems_waits (d : Dev) (v : List Nat) : (d.setCflElems v).waits = d.waits := rfl
@[simp] theorem Dev.setCflElems_canal (d : Dev) (v : List Nat) : (d.setCflElems v).canal = d.canal := rfl
@[simp] theorem Dev.setCflElems_ctxs (d : Dev) (v : List Nat) : (d.setCflElems v).ctxs = d.ctxs := rfl
@[simp] theorem Dev.setCflElems_sched (d : Dev) (v : List Nat) : (d.setCflElems v).sched = d.sched := rfl
@[simp] theorem Dev.setCflElems_survey (d : Dev) (v : List Nat) : (d.setCflElems v).survey = d.survey := rfl
@[simp] theorem Dev.setCflElems_dists (d : Dev) (v : List Nat) : (d.setCflElems v).dists = d.dists := rfl
@[simp] theorem Dev.setCflElems_devs (d : Dev) (v : List Nat) : (d.setCflElems v).devs = d.devs := rfl
@[simp] theorem Dev.setCflElems_cxl (d : Dev) (v : List Nat) : (d.setCflElems v).cxl = d.cxl := rfl
@[simp] theorem Dev.setCflElems_cache (d : Dev) (v : List Nat) : (d.setCflElems v).cache = d.cache := rfl
@[simp] theorem Dev.setCflElems_lines (d : Dev) (v : List Nat) : (d.setCflElems v).lines = d.lines := rfl
@[simp] theorem Dev.setCflElems_mem (d : Dev) (v : List Nat) : (d.setCflElems v).mem = d.mem := rfl
@[simp] theorem Dev.setCflElems_bad (d : Dev) (v : List Nat) : (d.setCflElems v).bad = d.bad := rfl
@[simp] theorem Dev.setCflElems_memFaults (d : Dev) (v : List Nat) : (d.setCflElems v).memFaults = d.memFaults := rfl
@[simp] theorem Dev.setCflElems_cores (d : Dev) (v : List Nat) : (d.setCflElems v).cores = d.cores := rfl
@[simp] theorem Dev.setCflElems_fields (d : Dev) (v : List Nat) : (d.setCflElems v).fields = d.fields := rfl
@[simp] theorem Dev.setCflElems_saves (d : Dev) (v : List Nat) : (d.setCflElems v).saves = d.saves := rfl
@[simp] theorem Dev.setCflElems_startup (d : Dev) (v : List Nat) : (d.setCflElems v).startup = d.startup := rfl
@[simp] theorem Dev.setCflElems_units (d : Dev) (v : List Nat) : (d.setCflElems v).units = d.units := rfl
@[simp] theorem Dev.setCflElems_silt (d : Dev) (v : List Nat) : (d.setCflElems v).silt = d.silt := rfl
@[simp] theorem Dev.setCflElems_lkk (d : Dev) (v : List Nat) : (d.setCflElems v).lkk = d.lkk := rfl
@[simp] theorem Dev.setCflElems_flumes (d : Dev) (v : List Nat) : (d.setCflElems v).flumes = d.flumes := rfl
@[simp] theorem Dev.setCflElems_divs (d : Dev) (v : List Nat) : (d.setCflElems v).divs = d.divs := rfl
@[simp] theorem Dev.setCflElems_divPins (d : Dev) (v : List Nat) : (d.setCflElems v).divPins = d.divPins := rfl
@[simp] theorem Dev.setCflElems_claims (d : Dev) (v : List Nat) : (d.setCflElems v).claims = d.claims := rfl
@[simp] theorem Dev.setCflElems_steps (d : Dev) (v : List Nat) : (d.setCflElems v).steps = d.steps := rfl
@[simp] theorem Dev.setCflElems_parts (d : Dev) (v : List Nat) : (d.setCflElems v).parts = d.parts := rfl
@[simp] theorem Dev.setCflElems_cis (d : Dev) (v : List Nat) : (d.setCflElems v).cis = d.cis := rfl
@[simp] theorem Dev.setCflElems_gauges (d : Dev) (v : List Nat) : (d.setCflElems v).gauges = d.gauges := rfl
@[simp] theorem Dev.setCflElems_gaugeReports (d : Dev) (v : List Nat) : (d.setCflElems v).gaugeReports = d.gaugeReports := rfl
@[simp] theorem Dev.setCflElems_cfls (d : Dev) (v : List Nat) : (d.setCflElems v).cfls = d.cfls := rfl
@[simp] theorem Dev.setCflElems_cflElems (d : Dev) (v : List Nat) : (d.setCflElems v).cflElems = v := rfl
@[simp] theorem Dev.setCflElems_sec (d : Dev) (v : List Nat) : (d.setCflElems v).sec = d.sec := rfl
@[simp] theorem Dev.setCflElems_power (d : Dev) (v : List Nat) : (d.setCflElems v).power = d.power := rfl
@[simp] theorem Dev.setCflElems_wakes (d : Dev) (v : List Nat) : (d.setCflElems v).wakes = d.wakes := rfl
@[simp] theorem Dev.setCflElems_serves (d : Dev) (v : List Nat) : (d.setCflElems v).serves = d.serves := rfl
@[simp] theorem Dev.setCflElems_tenants (d : Dev) (v : List Nat) : (d.setCflElems v).tenants = d.tenants := rfl
@[simp] theorem Dev.setCflElems_reqs (d : Dev) (v : List Nat) : (d.setCflElems v).reqs = d.reqs := rfl
@[simp] theorem Dev.setCflElems_nextReq (d : Dev) (v : List Nat) : (d.setCflElems v).nextReq = d.nextReq := rfl
@[simp] theorem Dev.setCflElems_ofts (d : Dev) (v : List Nat) : (d.setCflElems v).ofts = d.ofts := rfl
@[simp] theorem Dev.setCflElems_oftInsts (d : Dev) (v : List Nat) : (d.setCflElems v).oftInsts = d.oftInsts := rfl
@[simp] theorem Dev.setCflElems_oftTimes (d : Dev) (v : List Nat) : (d.setCflElems v).oftTimes = d.oftTimes := rfl
@[simp] theorem Dev.setSec_time (d : Dev) (v : Sec) : (d.setSec v).time = d.time := rfl
@[simp] theorem Dev.setSec_out (d : Dev) (v : Sec) : (d.setSec v).out = d.out := rfl
@[simp] theorem Dev.setSec_draws (d : Dev) (v : Sec) : (d.setSec v).draws = d.draws := rfl
@[simp] theorem Dev.setSec_regs (d : Dev) (v : Sec) : (d.setSec v).regs = d.regs := rfl
@[simp] theorem Dev.setSec_ports (d : Dev) (v : Sec) : (d.setSec v).ports = d.ports := rfl
@[simp] theorem Dev.setSec_rings (d : Dev) (v : Sec) : (d.setSec v).rings = d.rings := rfl
@[simp] theorem Dev.setSec_errs (d : Dev) (v : Sec) : (d.setSec v).errs = d.errs := rfl
@[simp] theorem Dev.setSec_orders (d : Dev) (v : Sec) : (d.setSec v).orders = d.orders := rfl
@[simp] theorem Dev.setSec_sluices (d : Dev) (v : Sec) : (d.setSec v).sluices = d.sluices := rfl
@[simp] theorem Dev.setSec_msix (d : Dev) (v : Sec) : (d.setSec v).msix = d.msix := rfl
@[simp] theorem Dev.setSec_gates (d : Dev) (v : Sec) : (d.setSec v).gates = d.gates := rfl
@[simp] theorem Dev.setSec_waits (d : Dev) (v : Sec) : (d.setSec v).waits = d.waits := rfl
@[simp] theorem Dev.setSec_canal (d : Dev) (v : Sec) : (d.setSec v).canal = d.canal := rfl
@[simp] theorem Dev.setSec_ctxs (d : Dev) (v : Sec) : (d.setSec v).ctxs = d.ctxs := rfl
@[simp] theorem Dev.setSec_sched (d : Dev) (v : Sec) : (d.setSec v).sched = d.sched := rfl
@[simp] theorem Dev.setSec_survey (d : Dev) (v : Sec) : (d.setSec v).survey = d.survey := rfl
@[simp] theorem Dev.setSec_dists (d : Dev) (v : Sec) : (d.setSec v).dists = d.dists := rfl
@[simp] theorem Dev.setSec_devs (d : Dev) (v : Sec) : (d.setSec v).devs = d.devs := rfl
@[simp] theorem Dev.setSec_cxl (d : Dev) (v : Sec) : (d.setSec v).cxl = d.cxl := rfl
@[simp] theorem Dev.setSec_cache (d : Dev) (v : Sec) : (d.setSec v).cache = d.cache := rfl
@[simp] theorem Dev.setSec_lines (d : Dev) (v : Sec) : (d.setSec v).lines = d.lines := rfl
@[simp] theorem Dev.setSec_mem (d : Dev) (v : Sec) : (d.setSec v).mem = d.mem := rfl
@[simp] theorem Dev.setSec_bad (d : Dev) (v : Sec) : (d.setSec v).bad = d.bad := rfl
@[simp] theorem Dev.setSec_memFaults (d : Dev) (v : Sec) : (d.setSec v).memFaults = d.memFaults := rfl
@[simp] theorem Dev.setSec_cores (d : Dev) (v : Sec) : (d.setSec v).cores = d.cores := rfl
@[simp] theorem Dev.setSec_fields (d : Dev) (v : Sec) : (d.setSec v).fields = d.fields := rfl
@[simp] theorem Dev.setSec_saves (d : Dev) (v : Sec) : (d.setSec v).saves = d.saves := rfl
@[simp] theorem Dev.setSec_startup (d : Dev) (v : Sec) : (d.setSec v).startup = d.startup := rfl
@[simp] theorem Dev.setSec_units (d : Dev) (v : Sec) : (d.setSec v).units = d.units := rfl
@[simp] theorem Dev.setSec_silt (d : Dev) (v : Sec) : (d.setSec v).silt = d.silt := rfl
@[simp] theorem Dev.setSec_lkk (d : Dev) (v : Sec) : (d.setSec v).lkk = d.lkk := rfl
@[simp] theorem Dev.setSec_flumes (d : Dev) (v : Sec) : (d.setSec v).flumes = d.flumes := rfl
@[simp] theorem Dev.setSec_divs (d : Dev) (v : Sec) : (d.setSec v).divs = d.divs := rfl
@[simp] theorem Dev.setSec_divPins (d : Dev) (v : Sec) : (d.setSec v).divPins = d.divPins := rfl
@[simp] theorem Dev.setSec_claims (d : Dev) (v : Sec) : (d.setSec v).claims = d.claims := rfl
@[simp] theorem Dev.setSec_steps (d : Dev) (v : Sec) : (d.setSec v).steps = d.steps := rfl
@[simp] theorem Dev.setSec_parts (d : Dev) (v : Sec) : (d.setSec v).parts = d.parts := rfl
@[simp] theorem Dev.setSec_cis (d : Dev) (v : Sec) : (d.setSec v).cis = d.cis := rfl
@[simp] theorem Dev.setSec_gauges (d : Dev) (v : Sec) : (d.setSec v).gauges = d.gauges := rfl
@[simp] theorem Dev.setSec_gaugeReports (d : Dev) (v : Sec) : (d.setSec v).gaugeReports = d.gaugeReports := rfl
@[simp] theorem Dev.setSec_cfls (d : Dev) (v : Sec) : (d.setSec v).cfls = d.cfls := rfl
@[simp] theorem Dev.setSec_cflElems (d : Dev) (v : Sec) : (d.setSec v).cflElems = d.cflElems := rfl
@[simp] theorem Dev.setSec_sec (d : Dev) (v : Sec) : (d.setSec v).sec = v := rfl
@[simp] theorem Dev.setSec_power (d : Dev) (v : Sec) : (d.setSec v).power = d.power := rfl
@[simp] theorem Dev.setSec_wakes (d : Dev) (v : Sec) : (d.setSec v).wakes = d.wakes := rfl
@[simp] theorem Dev.setSec_serves (d : Dev) (v : Sec) : (d.setSec v).serves = d.serves := rfl
@[simp] theorem Dev.setSec_tenants (d : Dev) (v : Sec) : (d.setSec v).tenants = d.tenants := rfl
@[simp] theorem Dev.setSec_reqs (d : Dev) (v : Sec) : (d.setSec v).reqs = d.reqs := rfl
@[simp] theorem Dev.setSec_nextReq (d : Dev) (v : Sec) : (d.setSec v).nextReq = d.nextReq := rfl
@[simp] theorem Dev.setSec_ofts (d : Dev) (v : Sec) : (d.setSec v).ofts = d.ofts := rfl
@[simp] theorem Dev.setSec_oftInsts (d : Dev) (v : Sec) : (d.setSec v).oftInsts = d.oftInsts := rfl
@[simp] theorem Dev.setSec_oftTimes (d : Dev) (v : Sec) : (d.setSec v).oftTimes = d.oftTimes := rfl
@[simp] theorem Dev.setPower_time (d : Dev) (v : Power) : (d.setPower v).time = d.time := rfl
@[simp] theorem Dev.setPower_out (d : Dev) (v : Power) : (d.setPower v).out = d.out := rfl
@[simp] theorem Dev.setPower_draws (d : Dev) (v : Power) : (d.setPower v).draws = d.draws := rfl
@[simp] theorem Dev.setPower_regs (d : Dev) (v : Power) : (d.setPower v).regs = d.regs := rfl
@[simp] theorem Dev.setPower_ports (d : Dev) (v : Power) : (d.setPower v).ports = d.ports := rfl
@[simp] theorem Dev.setPower_rings (d : Dev) (v : Power) : (d.setPower v).rings = d.rings := rfl
@[simp] theorem Dev.setPower_errs (d : Dev) (v : Power) : (d.setPower v).errs = d.errs := rfl
@[simp] theorem Dev.setPower_orders (d : Dev) (v : Power) : (d.setPower v).orders = d.orders := rfl
@[simp] theorem Dev.setPower_sluices (d : Dev) (v : Power) : (d.setPower v).sluices = d.sluices := rfl
@[simp] theorem Dev.setPower_msix (d : Dev) (v : Power) : (d.setPower v).msix = d.msix := rfl
@[simp] theorem Dev.setPower_gates (d : Dev) (v : Power) : (d.setPower v).gates = d.gates := rfl
@[simp] theorem Dev.setPower_waits (d : Dev) (v : Power) : (d.setPower v).waits = d.waits := rfl
@[simp] theorem Dev.setPower_canal (d : Dev) (v : Power) : (d.setPower v).canal = d.canal := rfl
@[simp] theorem Dev.setPower_ctxs (d : Dev) (v : Power) : (d.setPower v).ctxs = d.ctxs := rfl
@[simp] theorem Dev.setPower_sched (d : Dev) (v : Power) : (d.setPower v).sched = d.sched := rfl
@[simp] theorem Dev.setPower_survey (d : Dev) (v : Power) : (d.setPower v).survey = d.survey := rfl
@[simp] theorem Dev.setPower_dists (d : Dev) (v : Power) : (d.setPower v).dists = d.dists := rfl
@[simp] theorem Dev.setPower_devs (d : Dev) (v : Power) : (d.setPower v).devs = d.devs := rfl
@[simp] theorem Dev.setPower_cxl (d : Dev) (v : Power) : (d.setPower v).cxl = d.cxl := rfl
@[simp] theorem Dev.setPower_cache (d : Dev) (v : Power) : (d.setPower v).cache = d.cache := rfl
@[simp] theorem Dev.setPower_lines (d : Dev) (v : Power) : (d.setPower v).lines = d.lines := rfl
@[simp] theorem Dev.setPower_mem (d : Dev) (v : Power) : (d.setPower v).mem = d.mem := rfl
@[simp] theorem Dev.setPower_bad (d : Dev) (v : Power) : (d.setPower v).bad = d.bad := rfl
@[simp] theorem Dev.setPower_memFaults (d : Dev) (v : Power) : (d.setPower v).memFaults = d.memFaults := rfl
@[simp] theorem Dev.setPower_cores (d : Dev) (v : Power) : (d.setPower v).cores = d.cores := rfl
@[simp] theorem Dev.setPower_fields (d : Dev) (v : Power) : (d.setPower v).fields = d.fields := rfl
@[simp] theorem Dev.setPower_saves (d : Dev) (v : Power) : (d.setPower v).saves = d.saves := rfl
@[simp] theorem Dev.setPower_startup (d : Dev) (v : Power) : (d.setPower v).startup = d.startup := rfl
@[simp] theorem Dev.setPower_units (d : Dev) (v : Power) : (d.setPower v).units = d.units := rfl
@[simp] theorem Dev.setPower_silt (d : Dev) (v : Power) : (d.setPower v).silt = d.silt := rfl
@[simp] theorem Dev.setPower_lkk (d : Dev) (v : Power) : (d.setPower v).lkk = d.lkk := rfl
@[simp] theorem Dev.setPower_flumes (d : Dev) (v : Power) : (d.setPower v).flumes = d.flumes := rfl
@[simp] theorem Dev.setPower_divs (d : Dev) (v : Power) : (d.setPower v).divs = d.divs := rfl
@[simp] theorem Dev.setPower_divPins (d : Dev) (v : Power) : (d.setPower v).divPins = d.divPins := rfl
@[simp] theorem Dev.setPower_claims (d : Dev) (v : Power) : (d.setPower v).claims = d.claims := rfl
@[simp] theorem Dev.setPower_steps (d : Dev) (v : Power) : (d.setPower v).steps = d.steps := rfl
@[simp] theorem Dev.setPower_parts (d : Dev) (v : Power) : (d.setPower v).parts = d.parts := rfl
@[simp] theorem Dev.setPower_cis (d : Dev) (v : Power) : (d.setPower v).cis = d.cis := rfl
@[simp] theorem Dev.setPower_gauges (d : Dev) (v : Power) : (d.setPower v).gauges = d.gauges := rfl
@[simp] theorem Dev.setPower_gaugeReports (d : Dev) (v : Power) : (d.setPower v).gaugeReports = d.gaugeReports := rfl
@[simp] theorem Dev.setPower_cfls (d : Dev) (v : Power) : (d.setPower v).cfls = d.cfls := rfl
@[simp] theorem Dev.setPower_cflElems (d : Dev) (v : Power) : (d.setPower v).cflElems = d.cflElems := rfl
@[simp] theorem Dev.setPower_sec (d : Dev) (v : Power) : (d.setPower v).sec = d.sec := rfl
@[simp] theorem Dev.setPower_power (d : Dev) (v : Power) : (d.setPower v).power = v := rfl
@[simp] theorem Dev.setPower_wakes (d : Dev) (v : Power) : (d.setPower v).wakes = d.wakes := rfl
@[simp] theorem Dev.setPower_serves (d : Dev) (v : Power) : (d.setPower v).serves = d.serves := rfl
@[simp] theorem Dev.setPower_tenants (d : Dev) (v : Power) : (d.setPower v).tenants = d.tenants := rfl
@[simp] theorem Dev.setPower_reqs (d : Dev) (v : Power) : (d.setPower v).reqs = d.reqs := rfl
@[simp] theorem Dev.setPower_nextReq (d : Dev) (v : Power) : (d.setPower v).nextReq = d.nextReq := rfl
@[simp] theorem Dev.setPower_ofts (d : Dev) (v : Power) : (d.setPower v).ofts = d.ofts := rfl
@[simp] theorem Dev.setPower_oftInsts (d : Dev) (v : Power) : (d.setPower v).oftInsts = d.oftInsts := rfl
@[simp] theorem Dev.setPower_oftTimes (d : Dev) (v : Power) : (d.setPower v).oftTimes = d.oftTimes := rfl
@[simp] theorem Dev.setWakes_time (d : Dev) (v : Tbl Nat) : (d.setWakes v).time = d.time := rfl
@[simp] theorem Dev.setWakes_out (d : Dev) (v : Tbl Nat) : (d.setWakes v).out = d.out := rfl
@[simp] theorem Dev.setWakes_draws (d : Dev) (v : Tbl Nat) : (d.setWakes v).draws = d.draws := rfl
@[simp] theorem Dev.setWakes_regs (d : Dev) (v : Tbl Nat) : (d.setWakes v).regs = d.regs := rfl
@[simp] theorem Dev.setWakes_ports (d : Dev) (v : Tbl Nat) : (d.setWakes v).ports = d.ports := rfl
@[simp] theorem Dev.setWakes_rings (d : Dev) (v : Tbl Nat) : (d.setWakes v).rings = d.rings := rfl
@[simp] theorem Dev.setWakes_errs (d : Dev) (v : Tbl Nat) : (d.setWakes v).errs = d.errs := rfl
@[simp] theorem Dev.setWakes_orders (d : Dev) (v : Tbl Nat) : (d.setWakes v).orders = d.orders := rfl
@[simp] theorem Dev.setWakes_sluices (d : Dev) (v : Tbl Nat) : (d.setWakes v).sluices = d.sluices := rfl
@[simp] theorem Dev.setWakes_msix (d : Dev) (v : Tbl Nat) : (d.setWakes v).msix = d.msix := rfl
@[simp] theorem Dev.setWakes_gates (d : Dev) (v : Tbl Nat) : (d.setWakes v).gates = d.gates := rfl
@[simp] theorem Dev.setWakes_waits (d : Dev) (v : Tbl Nat) : (d.setWakes v).waits = d.waits := rfl
@[simp] theorem Dev.setWakes_canal (d : Dev) (v : Tbl Nat) : (d.setWakes v).canal = d.canal := rfl
@[simp] theorem Dev.setWakes_ctxs (d : Dev) (v : Tbl Nat) : (d.setWakes v).ctxs = d.ctxs := rfl
@[simp] theorem Dev.setWakes_sched (d : Dev) (v : Tbl Nat) : (d.setWakes v).sched = d.sched := rfl
@[simp] theorem Dev.setWakes_survey (d : Dev) (v : Tbl Nat) : (d.setWakes v).survey = d.survey := rfl
@[simp] theorem Dev.setWakes_dists (d : Dev) (v : Tbl Nat) : (d.setWakes v).dists = d.dists := rfl
@[simp] theorem Dev.setWakes_devs (d : Dev) (v : Tbl Nat) : (d.setWakes v).devs = d.devs := rfl
@[simp] theorem Dev.setWakes_cxl (d : Dev) (v : Tbl Nat) : (d.setWakes v).cxl = d.cxl := rfl
@[simp] theorem Dev.setWakes_cache (d : Dev) (v : Tbl Nat) : (d.setWakes v).cache = d.cache := rfl
@[simp] theorem Dev.setWakes_lines (d : Dev) (v : Tbl Nat) : (d.setWakes v).lines = d.lines := rfl
@[simp] theorem Dev.setWakes_mem (d : Dev) (v : Tbl Nat) : (d.setWakes v).mem = d.mem := rfl
@[simp] theorem Dev.setWakes_bad (d : Dev) (v : Tbl Nat) : (d.setWakes v).bad = d.bad := rfl
@[simp] theorem Dev.setWakes_memFaults (d : Dev) (v : Tbl Nat) : (d.setWakes v).memFaults = d.memFaults := rfl
@[simp] theorem Dev.setWakes_cores (d : Dev) (v : Tbl Nat) : (d.setWakes v).cores = d.cores := rfl
@[simp] theorem Dev.setWakes_fields (d : Dev) (v : Tbl Nat) : (d.setWakes v).fields = d.fields := rfl
@[simp] theorem Dev.setWakes_saves (d : Dev) (v : Tbl Nat) : (d.setWakes v).saves = d.saves := rfl
@[simp] theorem Dev.setWakes_startup (d : Dev) (v : Tbl Nat) : (d.setWakes v).startup = d.startup := rfl
@[simp] theorem Dev.setWakes_units (d : Dev) (v : Tbl Nat) : (d.setWakes v).units = d.units := rfl
@[simp] theorem Dev.setWakes_silt (d : Dev) (v : Tbl Nat) : (d.setWakes v).silt = d.silt := rfl
@[simp] theorem Dev.setWakes_lkk (d : Dev) (v : Tbl Nat) : (d.setWakes v).lkk = d.lkk := rfl
@[simp] theorem Dev.setWakes_flumes (d : Dev) (v : Tbl Nat) : (d.setWakes v).flumes = d.flumes := rfl
@[simp] theorem Dev.setWakes_divs (d : Dev) (v : Tbl Nat) : (d.setWakes v).divs = d.divs := rfl
@[simp] theorem Dev.setWakes_divPins (d : Dev) (v : Tbl Nat) : (d.setWakes v).divPins = d.divPins := rfl
@[simp] theorem Dev.setWakes_claims (d : Dev) (v : Tbl Nat) : (d.setWakes v).claims = d.claims := rfl
@[simp] theorem Dev.setWakes_steps (d : Dev) (v : Tbl Nat) : (d.setWakes v).steps = d.steps := rfl
@[simp] theorem Dev.setWakes_parts (d : Dev) (v : Tbl Nat) : (d.setWakes v).parts = d.parts := rfl
@[simp] theorem Dev.setWakes_cis (d : Dev) (v : Tbl Nat) : (d.setWakes v).cis = d.cis := rfl
@[simp] theorem Dev.setWakes_gauges (d : Dev) (v : Tbl Nat) : (d.setWakes v).gauges = d.gauges := rfl
@[simp] theorem Dev.setWakes_gaugeReports (d : Dev) (v : Tbl Nat) : (d.setWakes v).gaugeReports = d.gaugeReports := rfl
@[simp] theorem Dev.setWakes_cfls (d : Dev) (v : Tbl Nat) : (d.setWakes v).cfls = d.cfls := rfl
@[simp] theorem Dev.setWakes_cflElems (d : Dev) (v : Tbl Nat) : (d.setWakes v).cflElems = d.cflElems := rfl
@[simp] theorem Dev.setWakes_sec (d : Dev) (v : Tbl Nat) : (d.setWakes v).sec = d.sec := rfl
@[simp] theorem Dev.setWakes_power (d : Dev) (v : Tbl Nat) : (d.setWakes v).power = d.power := rfl
@[simp] theorem Dev.setWakes_wakes (d : Dev) (v : Tbl Nat) : (d.setWakes v).wakes = v := rfl
@[simp] theorem Dev.setWakes_serves (d : Dev) (v : Tbl Nat) : (d.setWakes v).serves = d.serves := rfl
@[simp] theorem Dev.setWakes_tenants (d : Dev) (v : Tbl Nat) : (d.setWakes v).tenants = d.tenants := rfl
@[simp] theorem Dev.setWakes_reqs (d : Dev) (v : Tbl Nat) : (d.setWakes v).reqs = d.reqs := rfl
@[simp] theorem Dev.setWakes_nextReq (d : Dev) (v : Tbl Nat) : (d.setWakes v).nextReq = d.nextReq := rfl
@[simp] theorem Dev.setWakes_ofts (d : Dev) (v : Tbl Nat) : (d.setWakes v).ofts = d.ofts := rfl
@[simp] theorem Dev.setWakes_oftInsts (d : Dev) (v : Tbl Nat) : (d.setWakes v).oftInsts = d.oftInsts := rfl
@[simp] theorem Dev.setWakes_oftTimes (d : Dev) (v : Tbl Nat) : (d.setWakes v).oftTimes = d.oftTimes := rfl
@[simp] theorem Dev.setServes_time (d : Dev) (v : Tbl Serve) : (d.setServes v).time = d.time := rfl
@[simp] theorem Dev.setServes_out (d : Dev) (v : Tbl Serve) : (d.setServes v).out = d.out := rfl
@[simp] theorem Dev.setServes_draws (d : Dev) (v : Tbl Serve) : (d.setServes v).draws = d.draws := rfl
@[simp] theorem Dev.setServes_regs (d : Dev) (v : Tbl Serve) : (d.setServes v).regs = d.regs := rfl
@[simp] theorem Dev.setServes_ports (d : Dev) (v : Tbl Serve) : (d.setServes v).ports = d.ports := rfl
@[simp] theorem Dev.setServes_rings (d : Dev) (v : Tbl Serve) : (d.setServes v).rings = d.rings := rfl
@[simp] theorem Dev.setServes_errs (d : Dev) (v : Tbl Serve) : (d.setServes v).errs = d.errs := rfl
@[simp] theorem Dev.setServes_orders (d : Dev) (v : Tbl Serve) : (d.setServes v).orders = d.orders := rfl
@[simp] theorem Dev.setServes_sluices (d : Dev) (v : Tbl Serve) : (d.setServes v).sluices = d.sluices := rfl
@[simp] theorem Dev.setServes_msix (d : Dev) (v : Tbl Serve) : (d.setServes v).msix = d.msix := rfl
@[simp] theorem Dev.setServes_gates (d : Dev) (v : Tbl Serve) : (d.setServes v).gates = d.gates := rfl
@[simp] theorem Dev.setServes_waits (d : Dev) (v : Tbl Serve) : (d.setServes v).waits = d.waits := rfl
@[simp] theorem Dev.setServes_canal (d : Dev) (v : Tbl Serve) : (d.setServes v).canal = d.canal := rfl
@[simp] theorem Dev.setServes_ctxs (d : Dev) (v : Tbl Serve) : (d.setServes v).ctxs = d.ctxs := rfl
@[simp] theorem Dev.setServes_sched (d : Dev) (v : Tbl Serve) : (d.setServes v).sched = d.sched := rfl
@[simp] theorem Dev.setServes_survey (d : Dev) (v : Tbl Serve) : (d.setServes v).survey = d.survey := rfl
@[simp] theorem Dev.setServes_dists (d : Dev) (v : Tbl Serve) : (d.setServes v).dists = d.dists := rfl
@[simp] theorem Dev.setServes_devs (d : Dev) (v : Tbl Serve) : (d.setServes v).devs = d.devs := rfl
@[simp] theorem Dev.setServes_cxl (d : Dev) (v : Tbl Serve) : (d.setServes v).cxl = d.cxl := rfl
@[simp] theorem Dev.setServes_cache (d : Dev) (v : Tbl Serve) : (d.setServes v).cache = d.cache := rfl
@[simp] theorem Dev.setServes_lines (d : Dev) (v : Tbl Serve) : (d.setServes v).lines = d.lines := rfl
@[simp] theorem Dev.setServes_mem (d : Dev) (v : Tbl Serve) : (d.setServes v).mem = d.mem := rfl
@[simp] theorem Dev.setServes_bad (d : Dev) (v : Tbl Serve) : (d.setServes v).bad = d.bad := rfl
@[simp] theorem Dev.setServes_memFaults (d : Dev) (v : Tbl Serve) : (d.setServes v).memFaults = d.memFaults := rfl
@[simp] theorem Dev.setServes_cores (d : Dev) (v : Tbl Serve) : (d.setServes v).cores = d.cores := rfl
@[simp] theorem Dev.setServes_fields (d : Dev) (v : Tbl Serve) : (d.setServes v).fields = d.fields := rfl
@[simp] theorem Dev.setServes_saves (d : Dev) (v : Tbl Serve) : (d.setServes v).saves = d.saves := rfl
@[simp] theorem Dev.setServes_startup (d : Dev) (v : Tbl Serve) : (d.setServes v).startup = d.startup := rfl
@[simp] theorem Dev.setServes_units (d : Dev) (v : Tbl Serve) : (d.setServes v).units = d.units := rfl
@[simp] theorem Dev.setServes_silt (d : Dev) (v : Tbl Serve) : (d.setServes v).silt = d.silt := rfl
@[simp] theorem Dev.setServes_lkk (d : Dev) (v : Tbl Serve) : (d.setServes v).lkk = d.lkk := rfl
@[simp] theorem Dev.setServes_flumes (d : Dev) (v : Tbl Serve) : (d.setServes v).flumes = d.flumes := rfl
@[simp] theorem Dev.setServes_divs (d : Dev) (v : Tbl Serve) : (d.setServes v).divs = d.divs := rfl
@[simp] theorem Dev.setServes_divPins (d : Dev) (v : Tbl Serve) : (d.setServes v).divPins = d.divPins := rfl
@[simp] theorem Dev.setServes_claims (d : Dev) (v : Tbl Serve) : (d.setServes v).claims = d.claims := rfl
@[simp] theorem Dev.setServes_steps (d : Dev) (v : Tbl Serve) : (d.setServes v).steps = d.steps := rfl
@[simp] theorem Dev.setServes_parts (d : Dev) (v : Tbl Serve) : (d.setServes v).parts = d.parts := rfl
@[simp] theorem Dev.setServes_cis (d : Dev) (v : Tbl Serve) : (d.setServes v).cis = d.cis := rfl
@[simp] theorem Dev.setServes_gauges (d : Dev) (v : Tbl Serve) : (d.setServes v).gauges = d.gauges := rfl
@[simp] theorem Dev.setServes_gaugeReports (d : Dev) (v : Tbl Serve) : (d.setServes v).gaugeReports = d.gaugeReports := rfl
@[simp] theorem Dev.setServes_cfls (d : Dev) (v : Tbl Serve) : (d.setServes v).cfls = d.cfls := rfl
@[simp] theorem Dev.setServes_cflElems (d : Dev) (v : Tbl Serve) : (d.setServes v).cflElems = d.cflElems := rfl
@[simp] theorem Dev.setServes_sec (d : Dev) (v : Tbl Serve) : (d.setServes v).sec = d.sec := rfl
@[simp] theorem Dev.setServes_power (d : Dev) (v : Tbl Serve) : (d.setServes v).power = d.power := rfl
@[simp] theorem Dev.setServes_wakes (d : Dev) (v : Tbl Serve) : (d.setServes v).wakes = d.wakes := rfl
@[simp] theorem Dev.setServes_serves (d : Dev) (v : Tbl Serve) : (d.setServes v).serves = v := rfl
@[simp] theorem Dev.setServes_tenants (d : Dev) (v : Tbl Serve) : (d.setServes v).tenants = d.tenants := rfl
@[simp] theorem Dev.setServes_reqs (d : Dev) (v : Tbl Serve) : (d.setServes v).reqs = d.reqs := rfl
@[simp] theorem Dev.setServes_nextReq (d : Dev) (v : Tbl Serve) : (d.setServes v).nextReq = d.nextReq := rfl
@[simp] theorem Dev.setServes_ofts (d : Dev) (v : Tbl Serve) : (d.setServes v).ofts = d.ofts := rfl
@[simp] theorem Dev.setServes_oftInsts (d : Dev) (v : Tbl Serve) : (d.setServes v).oftInsts = d.oftInsts := rfl
@[simp] theorem Dev.setServes_oftTimes (d : Dev) (v : Tbl Serve) : (d.setServes v).oftTimes = d.oftTimes := rfl
@[simp] theorem Dev.setTenants_time (d : Dev) (v : Tbl Tenant) : (d.setTenants v).time = d.time := rfl
@[simp] theorem Dev.setTenants_out (d : Dev) (v : Tbl Tenant) : (d.setTenants v).out = d.out := rfl
@[simp] theorem Dev.setTenants_draws (d : Dev) (v : Tbl Tenant) : (d.setTenants v).draws = d.draws := rfl
@[simp] theorem Dev.setTenants_regs (d : Dev) (v : Tbl Tenant) : (d.setTenants v).regs = d.regs := rfl
@[simp] theorem Dev.setTenants_ports (d : Dev) (v : Tbl Tenant) : (d.setTenants v).ports = d.ports := rfl
@[simp] theorem Dev.setTenants_rings (d : Dev) (v : Tbl Tenant) : (d.setTenants v).rings = d.rings := rfl
@[simp] theorem Dev.setTenants_errs (d : Dev) (v : Tbl Tenant) : (d.setTenants v).errs = d.errs := rfl
@[simp] theorem Dev.setTenants_orders (d : Dev) (v : Tbl Tenant) : (d.setTenants v).orders = d.orders := rfl
@[simp] theorem Dev.setTenants_sluices (d : Dev) (v : Tbl Tenant) : (d.setTenants v).sluices = d.sluices := rfl
@[simp] theorem Dev.setTenants_msix (d : Dev) (v : Tbl Tenant) : (d.setTenants v).msix = d.msix := rfl
@[simp] theorem Dev.setTenants_gates (d : Dev) (v : Tbl Tenant) : (d.setTenants v).gates = d.gates := rfl
@[simp] theorem Dev.setTenants_waits (d : Dev) (v : Tbl Tenant) : (d.setTenants v).waits = d.waits := rfl
@[simp] theorem Dev.setTenants_canal (d : Dev) (v : Tbl Tenant) : (d.setTenants v).canal = d.canal := rfl
@[simp] theorem Dev.setTenants_ctxs (d : Dev) (v : Tbl Tenant) : (d.setTenants v).ctxs = d.ctxs := rfl
@[simp] theorem Dev.setTenants_sched (d : Dev) (v : Tbl Tenant) : (d.setTenants v).sched = d.sched := rfl
@[simp] theorem Dev.setTenants_survey (d : Dev) (v : Tbl Tenant) : (d.setTenants v).survey = d.survey := rfl
@[simp] theorem Dev.setTenants_dists (d : Dev) (v : Tbl Tenant) : (d.setTenants v).dists = d.dists := rfl
@[simp] theorem Dev.setTenants_devs (d : Dev) (v : Tbl Tenant) : (d.setTenants v).devs = d.devs := rfl
@[simp] theorem Dev.setTenants_cxl (d : Dev) (v : Tbl Tenant) : (d.setTenants v).cxl = d.cxl := rfl
@[simp] theorem Dev.setTenants_cache (d : Dev) (v : Tbl Tenant) : (d.setTenants v).cache = d.cache := rfl
@[simp] theorem Dev.setTenants_lines (d : Dev) (v : Tbl Tenant) : (d.setTenants v).lines = d.lines := rfl
@[simp] theorem Dev.setTenants_mem (d : Dev) (v : Tbl Tenant) : (d.setTenants v).mem = d.mem := rfl
@[simp] theorem Dev.setTenants_bad (d : Dev) (v : Tbl Tenant) : (d.setTenants v).bad = d.bad := rfl
@[simp] theorem Dev.setTenants_memFaults (d : Dev) (v : Tbl Tenant) : (d.setTenants v).memFaults = d.memFaults := rfl
@[simp] theorem Dev.setTenants_cores (d : Dev) (v : Tbl Tenant) : (d.setTenants v).cores = d.cores := rfl
@[simp] theorem Dev.setTenants_fields (d : Dev) (v : Tbl Tenant) : (d.setTenants v).fields = d.fields := rfl
@[simp] theorem Dev.setTenants_saves (d : Dev) (v : Tbl Tenant) : (d.setTenants v).saves = d.saves := rfl
@[simp] theorem Dev.setTenants_startup (d : Dev) (v : Tbl Tenant) : (d.setTenants v).startup = d.startup := rfl
@[simp] theorem Dev.setTenants_units (d : Dev) (v : Tbl Tenant) : (d.setTenants v).units = d.units := rfl
@[simp] theorem Dev.setTenants_silt (d : Dev) (v : Tbl Tenant) : (d.setTenants v).silt = d.silt := rfl
@[simp] theorem Dev.setTenants_lkk (d : Dev) (v : Tbl Tenant) : (d.setTenants v).lkk = d.lkk := rfl
@[simp] theorem Dev.setTenants_flumes (d : Dev) (v : Tbl Tenant) : (d.setTenants v).flumes = d.flumes := rfl
@[simp] theorem Dev.setTenants_divs (d : Dev) (v : Tbl Tenant) : (d.setTenants v).divs = d.divs := rfl
@[simp] theorem Dev.setTenants_divPins (d : Dev) (v : Tbl Tenant) : (d.setTenants v).divPins = d.divPins := rfl
@[simp] theorem Dev.setTenants_claims (d : Dev) (v : Tbl Tenant) : (d.setTenants v).claims = d.claims := rfl
@[simp] theorem Dev.setTenants_steps (d : Dev) (v : Tbl Tenant) : (d.setTenants v).steps = d.steps := rfl
@[simp] theorem Dev.setTenants_parts (d : Dev) (v : Tbl Tenant) : (d.setTenants v).parts = d.parts := rfl
@[simp] theorem Dev.setTenants_cis (d : Dev) (v : Tbl Tenant) : (d.setTenants v).cis = d.cis := rfl
@[simp] theorem Dev.setTenants_gauges (d : Dev) (v : Tbl Tenant) : (d.setTenants v).gauges = d.gauges := rfl
@[simp] theorem Dev.setTenants_gaugeReports (d : Dev) (v : Tbl Tenant) : (d.setTenants v).gaugeReports = d.gaugeReports := rfl
@[simp] theorem Dev.setTenants_cfls (d : Dev) (v : Tbl Tenant) : (d.setTenants v).cfls = d.cfls := rfl
@[simp] theorem Dev.setTenants_cflElems (d : Dev) (v : Tbl Tenant) : (d.setTenants v).cflElems = d.cflElems := rfl
@[simp] theorem Dev.setTenants_sec (d : Dev) (v : Tbl Tenant) : (d.setTenants v).sec = d.sec := rfl
@[simp] theorem Dev.setTenants_power (d : Dev) (v : Tbl Tenant) : (d.setTenants v).power = d.power := rfl
@[simp] theorem Dev.setTenants_wakes (d : Dev) (v : Tbl Tenant) : (d.setTenants v).wakes = d.wakes := rfl
@[simp] theorem Dev.setTenants_serves (d : Dev) (v : Tbl Tenant) : (d.setTenants v).serves = d.serves := rfl
@[simp] theorem Dev.setTenants_tenants (d : Dev) (v : Tbl Tenant) : (d.setTenants v).tenants = v := rfl
@[simp] theorem Dev.setTenants_reqs (d : Dev) (v : Tbl Tenant) : (d.setTenants v).reqs = d.reqs := rfl
@[simp] theorem Dev.setTenants_nextReq (d : Dev) (v : Tbl Tenant) : (d.setTenants v).nextReq = d.nextReq := rfl
@[simp] theorem Dev.setTenants_ofts (d : Dev) (v : Tbl Tenant) : (d.setTenants v).ofts = d.ofts := rfl
@[simp] theorem Dev.setTenants_oftInsts (d : Dev) (v : Tbl Tenant) : (d.setTenants v).oftInsts = d.oftInsts := rfl
@[simp] theorem Dev.setTenants_oftTimes (d : Dev) (v : Tbl Tenant) : (d.setTenants v).oftTimes = d.oftTimes := rfl
@[simp] theorem Dev.setReqs_time (d : Dev) (v : List Req) : (d.setReqs v).time = d.time := rfl
@[simp] theorem Dev.setReqs_out (d : Dev) (v : List Req) : (d.setReqs v).out = d.out := rfl
@[simp] theorem Dev.setReqs_draws (d : Dev) (v : List Req) : (d.setReqs v).draws = d.draws := rfl
@[simp] theorem Dev.setReqs_regs (d : Dev) (v : List Req) : (d.setReqs v).regs = d.regs := rfl
@[simp] theorem Dev.setReqs_ports (d : Dev) (v : List Req) : (d.setReqs v).ports = d.ports := rfl
@[simp] theorem Dev.setReqs_rings (d : Dev) (v : List Req) : (d.setReqs v).rings = d.rings := rfl
@[simp] theorem Dev.setReqs_errs (d : Dev) (v : List Req) : (d.setReqs v).errs = d.errs := rfl
@[simp] theorem Dev.setReqs_orders (d : Dev) (v : List Req) : (d.setReqs v).orders = d.orders := rfl
@[simp] theorem Dev.setReqs_sluices (d : Dev) (v : List Req) : (d.setReqs v).sluices = d.sluices := rfl
@[simp] theorem Dev.setReqs_msix (d : Dev) (v : List Req) : (d.setReqs v).msix = d.msix := rfl
@[simp] theorem Dev.setReqs_gates (d : Dev) (v : List Req) : (d.setReqs v).gates = d.gates := rfl
@[simp] theorem Dev.setReqs_waits (d : Dev) (v : List Req) : (d.setReqs v).waits = d.waits := rfl
@[simp] theorem Dev.setReqs_canal (d : Dev) (v : List Req) : (d.setReqs v).canal = d.canal := rfl
@[simp] theorem Dev.setReqs_ctxs (d : Dev) (v : List Req) : (d.setReqs v).ctxs = d.ctxs := rfl
@[simp] theorem Dev.setReqs_sched (d : Dev) (v : List Req) : (d.setReqs v).sched = d.sched := rfl
@[simp] theorem Dev.setReqs_survey (d : Dev) (v : List Req) : (d.setReqs v).survey = d.survey := rfl
@[simp] theorem Dev.setReqs_dists (d : Dev) (v : List Req) : (d.setReqs v).dists = d.dists := rfl
@[simp] theorem Dev.setReqs_devs (d : Dev) (v : List Req) : (d.setReqs v).devs = d.devs := rfl
@[simp] theorem Dev.setReqs_cxl (d : Dev) (v : List Req) : (d.setReqs v).cxl = d.cxl := rfl
@[simp] theorem Dev.setReqs_cache (d : Dev) (v : List Req) : (d.setReqs v).cache = d.cache := rfl
@[simp] theorem Dev.setReqs_lines (d : Dev) (v : List Req) : (d.setReqs v).lines = d.lines := rfl
@[simp] theorem Dev.setReqs_mem (d : Dev) (v : List Req) : (d.setReqs v).mem = d.mem := rfl
@[simp] theorem Dev.setReqs_bad (d : Dev) (v : List Req) : (d.setReqs v).bad = d.bad := rfl
@[simp] theorem Dev.setReqs_memFaults (d : Dev) (v : List Req) : (d.setReqs v).memFaults = d.memFaults := rfl
@[simp] theorem Dev.setReqs_cores (d : Dev) (v : List Req) : (d.setReqs v).cores = d.cores := rfl
@[simp] theorem Dev.setReqs_fields (d : Dev) (v : List Req) : (d.setReqs v).fields = d.fields := rfl
@[simp] theorem Dev.setReqs_saves (d : Dev) (v : List Req) : (d.setReqs v).saves = d.saves := rfl
@[simp] theorem Dev.setReqs_startup (d : Dev) (v : List Req) : (d.setReqs v).startup = d.startup := rfl
@[simp] theorem Dev.setReqs_units (d : Dev) (v : List Req) : (d.setReqs v).units = d.units := rfl
@[simp] theorem Dev.setReqs_silt (d : Dev) (v : List Req) : (d.setReqs v).silt = d.silt := rfl
@[simp] theorem Dev.setReqs_lkk (d : Dev) (v : List Req) : (d.setReqs v).lkk = d.lkk := rfl
@[simp] theorem Dev.setReqs_flumes (d : Dev) (v : List Req) : (d.setReqs v).flumes = d.flumes := rfl
@[simp] theorem Dev.setReqs_divs (d : Dev) (v : List Req) : (d.setReqs v).divs = d.divs := rfl
@[simp] theorem Dev.setReqs_divPins (d : Dev) (v : List Req) : (d.setReqs v).divPins = d.divPins := rfl
@[simp] theorem Dev.setReqs_claims (d : Dev) (v : List Req) : (d.setReqs v).claims = d.claims := rfl
@[simp] theorem Dev.setReqs_steps (d : Dev) (v : List Req) : (d.setReqs v).steps = d.steps := rfl
@[simp] theorem Dev.setReqs_parts (d : Dev) (v : List Req) : (d.setReqs v).parts = d.parts := rfl
@[simp] theorem Dev.setReqs_cis (d : Dev) (v : List Req) : (d.setReqs v).cis = d.cis := rfl
@[simp] theorem Dev.setReqs_gauges (d : Dev) (v : List Req) : (d.setReqs v).gauges = d.gauges := rfl
@[simp] theorem Dev.setReqs_gaugeReports (d : Dev) (v : List Req) : (d.setReqs v).gaugeReports = d.gaugeReports := rfl
@[simp] theorem Dev.setReqs_cfls (d : Dev) (v : List Req) : (d.setReqs v).cfls = d.cfls := rfl
@[simp] theorem Dev.setReqs_cflElems (d : Dev) (v : List Req) : (d.setReqs v).cflElems = d.cflElems := rfl
@[simp] theorem Dev.setReqs_sec (d : Dev) (v : List Req) : (d.setReqs v).sec = d.sec := rfl
@[simp] theorem Dev.setReqs_power (d : Dev) (v : List Req) : (d.setReqs v).power = d.power := rfl
@[simp] theorem Dev.setReqs_wakes (d : Dev) (v : List Req) : (d.setReqs v).wakes = d.wakes := rfl
@[simp] theorem Dev.setReqs_serves (d : Dev) (v : List Req) : (d.setReqs v).serves = d.serves := rfl
@[simp] theorem Dev.setReqs_tenants (d : Dev) (v : List Req) : (d.setReqs v).tenants = d.tenants := rfl
@[simp] theorem Dev.setReqs_reqs (d : Dev) (v : List Req) : (d.setReqs v).reqs = v := rfl
@[simp] theorem Dev.setReqs_nextReq (d : Dev) (v : List Req) : (d.setReqs v).nextReq = d.nextReq := rfl
@[simp] theorem Dev.setReqs_ofts (d : Dev) (v : List Req) : (d.setReqs v).ofts = d.ofts := rfl
@[simp] theorem Dev.setReqs_oftInsts (d : Dev) (v : List Req) : (d.setReqs v).oftInsts = d.oftInsts := rfl
@[simp] theorem Dev.setReqs_oftTimes (d : Dev) (v : List Req) : (d.setReqs v).oftTimes = d.oftTimes := rfl
@[simp] theorem Dev.setNextReq_time (d : Dev) (v : Nat) : (d.setNextReq v).time = d.time := rfl
@[simp] theorem Dev.setNextReq_out (d : Dev) (v : Nat) : (d.setNextReq v).out = d.out := rfl
@[simp] theorem Dev.setNextReq_draws (d : Dev) (v : Nat) : (d.setNextReq v).draws = d.draws := rfl
@[simp] theorem Dev.setNextReq_regs (d : Dev) (v : Nat) : (d.setNextReq v).regs = d.regs := rfl
@[simp] theorem Dev.setNextReq_ports (d : Dev) (v : Nat) : (d.setNextReq v).ports = d.ports := rfl
@[simp] theorem Dev.setNextReq_rings (d : Dev) (v : Nat) : (d.setNextReq v).rings = d.rings := rfl
@[simp] theorem Dev.setNextReq_errs (d : Dev) (v : Nat) : (d.setNextReq v).errs = d.errs := rfl
@[simp] theorem Dev.setNextReq_orders (d : Dev) (v : Nat) : (d.setNextReq v).orders = d.orders := rfl
@[simp] theorem Dev.setNextReq_sluices (d : Dev) (v : Nat) : (d.setNextReq v).sluices = d.sluices := rfl
@[simp] theorem Dev.setNextReq_msix (d : Dev) (v : Nat) : (d.setNextReq v).msix = d.msix := rfl
@[simp] theorem Dev.setNextReq_gates (d : Dev) (v : Nat) : (d.setNextReq v).gates = d.gates := rfl
@[simp] theorem Dev.setNextReq_waits (d : Dev) (v : Nat) : (d.setNextReq v).waits = d.waits := rfl
@[simp] theorem Dev.setNextReq_canal (d : Dev) (v : Nat) : (d.setNextReq v).canal = d.canal := rfl
@[simp] theorem Dev.setNextReq_ctxs (d : Dev) (v : Nat) : (d.setNextReq v).ctxs = d.ctxs := rfl
@[simp] theorem Dev.setNextReq_sched (d : Dev) (v : Nat) : (d.setNextReq v).sched = d.sched := rfl
@[simp] theorem Dev.setNextReq_survey (d : Dev) (v : Nat) : (d.setNextReq v).survey = d.survey := rfl
@[simp] theorem Dev.setNextReq_dists (d : Dev) (v : Nat) : (d.setNextReq v).dists = d.dists := rfl
@[simp] theorem Dev.setNextReq_devs (d : Dev) (v : Nat) : (d.setNextReq v).devs = d.devs := rfl
@[simp] theorem Dev.setNextReq_cxl (d : Dev) (v : Nat) : (d.setNextReq v).cxl = d.cxl := rfl
@[simp] theorem Dev.setNextReq_cache (d : Dev) (v : Nat) : (d.setNextReq v).cache = d.cache := rfl
@[simp] theorem Dev.setNextReq_lines (d : Dev) (v : Nat) : (d.setNextReq v).lines = d.lines := rfl
@[simp] theorem Dev.setNextReq_mem (d : Dev) (v : Nat) : (d.setNextReq v).mem = d.mem := rfl
@[simp] theorem Dev.setNextReq_bad (d : Dev) (v : Nat) : (d.setNextReq v).bad = d.bad := rfl
@[simp] theorem Dev.setNextReq_memFaults (d : Dev) (v : Nat) : (d.setNextReq v).memFaults = d.memFaults := rfl
@[simp] theorem Dev.setNextReq_cores (d : Dev) (v : Nat) : (d.setNextReq v).cores = d.cores := rfl
@[simp] theorem Dev.setNextReq_fields (d : Dev) (v : Nat) : (d.setNextReq v).fields = d.fields := rfl
@[simp] theorem Dev.setNextReq_saves (d : Dev) (v : Nat) : (d.setNextReq v).saves = d.saves := rfl
@[simp] theorem Dev.setNextReq_startup (d : Dev) (v : Nat) : (d.setNextReq v).startup = d.startup := rfl
@[simp] theorem Dev.setNextReq_units (d : Dev) (v : Nat) : (d.setNextReq v).units = d.units := rfl
@[simp] theorem Dev.setNextReq_silt (d : Dev) (v : Nat) : (d.setNextReq v).silt = d.silt := rfl
@[simp] theorem Dev.setNextReq_lkk (d : Dev) (v : Nat) : (d.setNextReq v).lkk = d.lkk := rfl
@[simp] theorem Dev.setNextReq_flumes (d : Dev) (v : Nat) : (d.setNextReq v).flumes = d.flumes := rfl
@[simp] theorem Dev.setNextReq_divs (d : Dev) (v : Nat) : (d.setNextReq v).divs = d.divs := rfl
@[simp] theorem Dev.setNextReq_divPins (d : Dev) (v : Nat) : (d.setNextReq v).divPins = d.divPins := rfl
@[simp] theorem Dev.setNextReq_claims (d : Dev) (v : Nat) : (d.setNextReq v).claims = d.claims := rfl
@[simp] theorem Dev.setNextReq_steps (d : Dev) (v : Nat) : (d.setNextReq v).steps = d.steps := rfl
@[simp] theorem Dev.setNextReq_parts (d : Dev) (v : Nat) : (d.setNextReq v).parts = d.parts := rfl
@[simp] theorem Dev.setNextReq_cis (d : Dev) (v : Nat) : (d.setNextReq v).cis = d.cis := rfl
@[simp] theorem Dev.setNextReq_gauges (d : Dev) (v : Nat) : (d.setNextReq v).gauges = d.gauges := rfl
@[simp] theorem Dev.setNextReq_gaugeReports (d : Dev) (v : Nat) : (d.setNextReq v).gaugeReports = d.gaugeReports := rfl
@[simp] theorem Dev.setNextReq_cfls (d : Dev) (v : Nat) : (d.setNextReq v).cfls = d.cfls := rfl
@[simp] theorem Dev.setNextReq_cflElems (d : Dev) (v : Nat) : (d.setNextReq v).cflElems = d.cflElems := rfl
@[simp] theorem Dev.setNextReq_sec (d : Dev) (v : Nat) : (d.setNextReq v).sec = d.sec := rfl
@[simp] theorem Dev.setNextReq_power (d : Dev) (v : Nat) : (d.setNextReq v).power = d.power := rfl
@[simp] theorem Dev.setNextReq_wakes (d : Dev) (v : Nat) : (d.setNextReq v).wakes = d.wakes := rfl
@[simp] theorem Dev.setNextReq_serves (d : Dev) (v : Nat) : (d.setNextReq v).serves = d.serves := rfl
@[simp] theorem Dev.setNextReq_tenants (d : Dev) (v : Nat) : (d.setNextReq v).tenants = d.tenants := rfl
@[simp] theorem Dev.setNextReq_reqs (d : Dev) (v : Nat) : (d.setNextReq v).reqs = d.reqs := rfl
@[simp] theorem Dev.setNextReq_nextReq (d : Dev) (v : Nat) : (d.setNextReq v).nextReq = v := rfl
@[simp] theorem Dev.setNextReq_ofts (d : Dev) (v : Nat) : (d.setNextReq v).ofts = d.ofts := rfl
@[simp] theorem Dev.setNextReq_oftInsts (d : Dev) (v : Nat) : (d.setNextReq v).oftInsts = d.oftInsts := rfl
@[simp] theorem Dev.setNextReq_oftTimes (d : Dev) (v : Nat) : (d.setNextReq v).oftTimes = d.oftTimes := rfl
@[simp] theorem Dev.setOfts_time (d : Dev) (v : List OftVer) : (d.setOfts v).time = d.time := rfl
@[simp] theorem Dev.setOfts_out (d : Dev) (v : List OftVer) : (d.setOfts v).out = d.out := rfl
@[simp] theorem Dev.setOfts_draws (d : Dev) (v : List OftVer) : (d.setOfts v).draws = d.draws := rfl
@[simp] theorem Dev.setOfts_regs (d : Dev) (v : List OftVer) : (d.setOfts v).regs = d.regs := rfl
@[simp] theorem Dev.setOfts_ports (d : Dev) (v : List OftVer) : (d.setOfts v).ports = d.ports := rfl
@[simp] theorem Dev.setOfts_rings (d : Dev) (v : List OftVer) : (d.setOfts v).rings = d.rings := rfl
@[simp] theorem Dev.setOfts_errs (d : Dev) (v : List OftVer) : (d.setOfts v).errs = d.errs := rfl
@[simp] theorem Dev.setOfts_orders (d : Dev) (v : List OftVer) : (d.setOfts v).orders = d.orders := rfl
@[simp] theorem Dev.setOfts_sluices (d : Dev) (v : List OftVer) : (d.setOfts v).sluices = d.sluices := rfl
@[simp] theorem Dev.setOfts_msix (d : Dev) (v : List OftVer) : (d.setOfts v).msix = d.msix := rfl
@[simp] theorem Dev.setOfts_gates (d : Dev) (v : List OftVer) : (d.setOfts v).gates = d.gates := rfl
@[simp] theorem Dev.setOfts_waits (d : Dev) (v : List OftVer) : (d.setOfts v).waits = d.waits := rfl
@[simp] theorem Dev.setOfts_canal (d : Dev) (v : List OftVer) : (d.setOfts v).canal = d.canal := rfl
@[simp] theorem Dev.setOfts_ctxs (d : Dev) (v : List OftVer) : (d.setOfts v).ctxs = d.ctxs := rfl
@[simp] theorem Dev.setOfts_sched (d : Dev) (v : List OftVer) : (d.setOfts v).sched = d.sched := rfl
@[simp] theorem Dev.setOfts_survey (d : Dev) (v : List OftVer) : (d.setOfts v).survey = d.survey := rfl
@[simp] theorem Dev.setOfts_dists (d : Dev) (v : List OftVer) : (d.setOfts v).dists = d.dists := rfl
@[simp] theorem Dev.setOfts_devs (d : Dev) (v : List OftVer) : (d.setOfts v).devs = d.devs := rfl
@[simp] theorem Dev.setOfts_cxl (d : Dev) (v : List OftVer) : (d.setOfts v).cxl = d.cxl := rfl
@[simp] theorem Dev.setOfts_cache (d : Dev) (v : List OftVer) : (d.setOfts v).cache = d.cache := rfl
@[simp] theorem Dev.setOfts_lines (d : Dev) (v : List OftVer) : (d.setOfts v).lines = d.lines := rfl
@[simp] theorem Dev.setOfts_mem (d : Dev) (v : List OftVer) : (d.setOfts v).mem = d.mem := rfl
@[simp] theorem Dev.setOfts_bad (d : Dev) (v : List OftVer) : (d.setOfts v).bad = d.bad := rfl
@[simp] theorem Dev.setOfts_memFaults (d : Dev) (v : List OftVer) : (d.setOfts v).memFaults = d.memFaults := rfl
@[simp] theorem Dev.setOfts_cores (d : Dev) (v : List OftVer) : (d.setOfts v).cores = d.cores := rfl
@[simp] theorem Dev.setOfts_fields (d : Dev) (v : List OftVer) : (d.setOfts v).fields = d.fields := rfl
@[simp] theorem Dev.setOfts_saves (d : Dev) (v : List OftVer) : (d.setOfts v).saves = d.saves := rfl
@[simp] theorem Dev.setOfts_startup (d : Dev) (v : List OftVer) : (d.setOfts v).startup = d.startup := rfl
@[simp] theorem Dev.setOfts_units (d : Dev) (v : List OftVer) : (d.setOfts v).units = d.units := rfl
@[simp] theorem Dev.setOfts_silt (d : Dev) (v : List OftVer) : (d.setOfts v).silt = d.silt := rfl
@[simp] theorem Dev.setOfts_lkk (d : Dev) (v : List OftVer) : (d.setOfts v).lkk = d.lkk := rfl
@[simp] theorem Dev.setOfts_flumes (d : Dev) (v : List OftVer) : (d.setOfts v).flumes = d.flumes := rfl
@[simp] theorem Dev.setOfts_divs (d : Dev) (v : List OftVer) : (d.setOfts v).divs = d.divs := rfl
@[simp] theorem Dev.setOfts_divPins (d : Dev) (v : List OftVer) : (d.setOfts v).divPins = d.divPins := rfl
@[simp] theorem Dev.setOfts_claims (d : Dev) (v : List OftVer) : (d.setOfts v).claims = d.claims := rfl
@[simp] theorem Dev.setOfts_steps (d : Dev) (v : List OftVer) : (d.setOfts v).steps = d.steps := rfl
@[simp] theorem Dev.setOfts_parts (d : Dev) (v : List OftVer) : (d.setOfts v).parts = d.parts := rfl
@[simp] theorem Dev.setOfts_cis (d : Dev) (v : List OftVer) : (d.setOfts v).cis = d.cis := rfl
@[simp] theorem Dev.setOfts_gauges (d : Dev) (v : List OftVer) : (d.setOfts v).gauges = d.gauges := rfl
@[simp] theorem Dev.setOfts_gaugeReports (d : Dev) (v : List OftVer) : (d.setOfts v).gaugeReports = d.gaugeReports := rfl
@[simp] theorem Dev.setOfts_cfls (d : Dev) (v : List OftVer) : (d.setOfts v).cfls = d.cfls := rfl
@[simp] theorem Dev.setOfts_cflElems (d : Dev) (v : List OftVer) : (d.setOfts v).cflElems = d.cflElems := rfl
@[simp] theorem Dev.setOfts_sec (d : Dev) (v : List OftVer) : (d.setOfts v).sec = d.sec := rfl
@[simp] theorem Dev.setOfts_power (d : Dev) (v : List OftVer) : (d.setOfts v).power = d.power := rfl
@[simp] theorem Dev.setOfts_wakes (d : Dev) (v : List OftVer) : (d.setOfts v).wakes = d.wakes := rfl
@[simp] theorem Dev.setOfts_serves (d : Dev) (v : List OftVer) : (d.setOfts v).serves = d.serves := rfl
@[simp] theorem Dev.setOfts_tenants (d : Dev) (v : List OftVer) : (d.setOfts v).tenants = d.tenants := rfl
@[simp] theorem Dev.setOfts_reqs (d : Dev) (v : List OftVer) : (d.setOfts v).reqs = d.reqs := rfl
@[simp] theorem Dev.setOfts_nextReq (d : Dev) (v : List OftVer) : (d.setOfts v).nextReq = d.nextReq := rfl
@[simp] theorem Dev.setOfts_ofts (d : Dev) (v : List OftVer) : (d.setOfts v).ofts = v := rfl
@[simp] theorem Dev.setOfts_oftInsts (d : Dev) (v : List OftVer) : (d.setOfts v).oftInsts = d.oftInsts := rfl
@[simp] theorem Dev.setOfts_oftTimes (d : Dev) (v : List OftVer) : (d.setOfts v).oftTimes = d.oftTimes := rfl
@[simp] theorem Dev.setOftInsts_time (d : Dev) (v : List OftInst) : (d.setOftInsts v).time = d.time := rfl
@[simp] theorem Dev.setOftInsts_out (d : Dev) (v : List OftInst) : (d.setOftInsts v).out = d.out := rfl
@[simp] theorem Dev.setOftInsts_draws (d : Dev) (v : List OftInst) : (d.setOftInsts v).draws = d.draws := rfl
@[simp] theorem Dev.setOftInsts_regs (d : Dev) (v : List OftInst) : (d.setOftInsts v).regs = d.regs := rfl
@[simp] theorem Dev.setOftInsts_ports (d : Dev) (v : List OftInst) : (d.setOftInsts v).ports = d.ports := rfl
@[simp] theorem Dev.setOftInsts_rings (d : Dev) (v : List OftInst) : (d.setOftInsts v).rings = d.rings := rfl
@[simp] theorem Dev.setOftInsts_errs (d : Dev) (v : List OftInst) : (d.setOftInsts v).errs = d.errs := rfl
@[simp] theorem Dev.setOftInsts_orders (d : Dev) (v : List OftInst) : (d.setOftInsts v).orders = d.orders := rfl
@[simp] theorem Dev.setOftInsts_sluices (d : Dev) (v : List OftInst) : (d.setOftInsts v).sluices = d.sluices := rfl
@[simp] theorem Dev.setOftInsts_msix (d : Dev) (v : List OftInst) : (d.setOftInsts v).msix = d.msix := rfl
@[simp] theorem Dev.setOftInsts_gates (d : Dev) (v : List OftInst) : (d.setOftInsts v).gates = d.gates := rfl
@[simp] theorem Dev.setOftInsts_waits (d : Dev) (v : List OftInst) : (d.setOftInsts v).waits = d.waits := rfl
@[simp] theorem Dev.setOftInsts_canal (d : Dev) (v : List OftInst) : (d.setOftInsts v).canal = d.canal := rfl
@[simp] theorem Dev.setOftInsts_ctxs (d : Dev) (v : List OftInst) : (d.setOftInsts v).ctxs = d.ctxs := rfl
@[simp] theorem Dev.setOftInsts_sched (d : Dev) (v : List OftInst) : (d.setOftInsts v).sched = d.sched := rfl
@[simp] theorem Dev.setOftInsts_survey (d : Dev) (v : List OftInst) : (d.setOftInsts v).survey = d.survey := rfl
@[simp] theorem Dev.setOftInsts_dists (d : Dev) (v : List OftInst) : (d.setOftInsts v).dists = d.dists := rfl
@[simp] theorem Dev.setOftInsts_devs (d : Dev) (v : List OftInst) : (d.setOftInsts v).devs = d.devs := rfl
@[simp] theorem Dev.setOftInsts_cxl (d : Dev) (v : List OftInst) : (d.setOftInsts v).cxl = d.cxl := rfl
@[simp] theorem Dev.setOftInsts_cache (d : Dev) (v : List OftInst) : (d.setOftInsts v).cache = d.cache := rfl
@[simp] theorem Dev.setOftInsts_lines (d : Dev) (v : List OftInst) : (d.setOftInsts v).lines = d.lines := rfl
@[simp] theorem Dev.setOftInsts_mem (d : Dev) (v : List OftInst) : (d.setOftInsts v).mem = d.mem := rfl
@[simp] theorem Dev.setOftInsts_bad (d : Dev) (v : List OftInst) : (d.setOftInsts v).bad = d.bad := rfl
@[simp] theorem Dev.setOftInsts_memFaults (d : Dev) (v : List OftInst) : (d.setOftInsts v).memFaults = d.memFaults := rfl
@[simp] theorem Dev.setOftInsts_cores (d : Dev) (v : List OftInst) : (d.setOftInsts v).cores = d.cores := rfl
@[simp] theorem Dev.setOftInsts_fields (d : Dev) (v : List OftInst) : (d.setOftInsts v).fields = d.fields := rfl
@[simp] theorem Dev.setOftInsts_saves (d : Dev) (v : List OftInst) : (d.setOftInsts v).saves = d.saves := rfl
@[simp] theorem Dev.setOftInsts_startup (d : Dev) (v : List OftInst) : (d.setOftInsts v).startup = d.startup := rfl
@[simp] theorem Dev.setOftInsts_units (d : Dev) (v : List OftInst) : (d.setOftInsts v).units = d.units := rfl
@[simp] theorem Dev.setOftInsts_silt (d : Dev) (v : List OftInst) : (d.setOftInsts v).silt = d.silt := rfl
@[simp] theorem Dev.setOftInsts_lkk (d : Dev) (v : List OftInst) : (d.setOftInsts v).lkk = d.lkk := rfl
@[simp] theorem Dev.setOftInsts_flumes (d : Dev) (v : List OftInst) : (d.setOftInsts v).flumes = d.flumes := rfl
@[simp] theorem Dev.setOftInsts_divs (d : Dev) (v : List OftInst) : (d.setOftInsts v).divs = d.divs := rfl
@[simp] theorem Dev.setOftInsts_divPins (d : Dev) (v : List OftInst) : (d.setOftInsts v).divPins = d.divPins := rfl
@[simp] theorem Dev.setOftInsts_claims (d : Dev) (v : List OftInst) : (d.setOftInsts v).claims = d.claims := rfl
@[simp] theorem Dev.setOftInsts_steps (d : Dev) (v : List OftInst) : (d.setOftInsts v).steps = d.steps := rfl
@[simp] theorem Dev.setOftInsts_parts (d : Dev) (v : List OftInst) : (d.setOftInsts v).parts = d.parts := rfl
@[simp] theorem Dev.setOftInsts_cis (d : Dev) (v : List OftInst) : (d.setOftInsts v).cis = d.cis := rfl
@[simp] theorem Dev.setOftInsts_gauges (d : Dev) (v : List OftInst) : (d.setOftInsts v).gauges = d.gauges := rfl
@[simp] theorem Dev.setOftInsts_gaugeReports (d : Dev) (v : List OftInst) : (d.setOftInsts v).gaugeReports = d.gaugeReports := rfl
@[simp] theorem Dev.setOftInsts_cfls (d : Dev) (v : List OftInst) : (d.setOftInsts v).cfls = d.cfls := rfl
@[simp] theorem Dev.setOftInsts_cflElems (d : Dev) (v : List OftInst) : (d.setOftInsts v).cflElems = d.cflElems := rfl
@[simp] theorem Dev.setOftInsts_sec (d : Dev) (v : List OftInst) : (d.setOftInsts v).sec = d.sec := rfl
@[simp] theorem Dev.setOftInsts_power (d : Dev) (v : List OftInst) : (d.setOftInsts v).power = d.power := rfl
@[simp] theorem Dev.setOftInsts_wakes (d : Dev) (v : List OftInst) : (d.setOftInsts v).wakes = d.wakes := rfl
@[simp] theorem Dev.setOftInsts_serves (d : Dev) (v : List OftInst) : (d.setOftInsts v).serves = d.serves := rfl
@[simp] theorem Dev.setOftInsts_tenants (d : Dev) (v : List OftInst) : (d.setOftInsts v).tenants = d.tenants := rfl
@[simp] theorem Dev.setOftInsts_reqs (d : Dev) (v : List OftInst) : (d.setOftInsts v).reqs = d.reqs := rfl
@[simp] theorem Dev.setOftInsts_nextReq (d : Dev) (v : List OftInst) : (d.setOftInsts v).nextReq = d.nextReq := rfl
@[simp] theorem Dev.setOftInsts_ofts (d : Dev) (v : List OftInst) : (d.setOftInsts v).ofts = d.ofts := rfl
@[simp] theorem Dev.setOftInsts_oftInsts (d : Dev) (v : List OftInst) : (d.setOftInsts v).oftInsts = v := rfl
@[simp] theorem Dev.setOftInsts_oftTimes (d : Dev) (v : List OftInst) : (d.setOftInsts v).oftTimes = d.oftTimes := rfl
@[simp] theorem Dev.setOftTimes_time (d : Dev) (v : Tbl Nat) : (d.setOftTimes v).time = d.time := rfl
@[simp] theorem Dev.setOftTimes_out (d : Dev) (v : Tbl Nat) : (d.setOftTimes v).out = d.out := rfl
@[simp] theorem Dev.setOftTimes_draws (d : Dev) (v : Tbl Nat) : (d.setOftTimes v).draws = d.draws := rfl
@[simp] theorem Dev.setOftTimes_regs (d : Dev) (v : Tbl Nat) : (d.setOftTimes v).regs = d.regs := rfl
@[simp] theorem Dev.setOftTimes_ports (d : Dev) (v : Tbl Nat) : (d.setOftTimes v).ports = d.ports := rfl
@[simp] theorem Dev.setOftTimes_rings (d : Dev) (v : Tbl Nat) : (d.setOftTimes v).rings = d.rings := rfl
@[simp] theorem Dev.setOftTimes_errs (d : Dev) (v : Tbl Nat) : (d.setOftTimes v).errs = d.errs := rfl
@[simp] theorem Dev.setOftTimes_orders (d : Dev) (v : Tbl Nat) : (d.setOftTimes v).orders = d.orders := rfl
@[simp] theorem Dev.setOftTimes_sluices (d : Dev) (v : Tbl Nat) : (d.setOftTimes v).sluices = d.sluices := rfl
@[simp] theorem Dev.setOftTimes_msix (d : Dev) (v : Tbl Nat) : (d.setOftTimes v).msix = d.msix := rfl
@[simp] theorem Dev.setOftTimes_gates (d : Dev) (v : Tbl Nat) : (d.setOftTimes v).gates = d.gates := rfl
@[simp] theorem Dev.setOftTimes_waits (d : Dev) (v : Tbl Nat) : (d.setOftTimes v).waits = d.waits := rfl
@[simp] theorem Dev.setOftTimes_canal (d : Dev) (v : Tbl Nat) : (d.setOftTimes v).canal = d.canal := rfl
@[simp] theorem Dev.setOftTimes_ctxs (d : Dev) (v : Tbl Nat) : (d.setOftTimes v).ctxs = d.ctxs := rfl
@[simp] theorem Dev.setOftTimes_sched (d : Dev) (v : Tbl Nat) : (d.setOftTimes v).sched = d.sched := rfl
@[simp] theorem Dev.setOftTimes_survey (d : Dev) (v : Tbl Nat) : (d.setOftTimes v).survey = d.survey := rfl
@[simp] theorem Dev.setOftTimes_dists (d : Dev) (v : Tbl Nat) : (d.setOftTimes v).dists = d.dists := rfl
@[simp] theorem Dev.setOftTimes_devs (d : Dev) (v : Tbl Nat) : (d.setOftTimes v).devs = d.devs := rfl
@[simp] theorem Dev.setOftTimes_cxl (d : Dev) (v : Tbl Nat) : (d.setOftTimes v).cxl = d.cxl := rfl
@[simp] theorem Dev.setOftTimes_cache (d : Dev) (v : Tbl Nat) : (d.setOftTimes v).cache = d.cache := rfl
@[simp] theorem Dev.setOftTimes_lines (d : Dev) (v : Tbl Nat) : (d.setOftTimes v).lines = d.lines := rfl
@[simp] theorem Dev.setOftTimes_mem (d : Dev) (v : Tbl Nat) : (d.setOftTimes v).mem = d.mem := rfl
@[simp] theorem Dev.setOftTimes_bad (d : Dev) (v : Tbl Nat) : (d.setOftTimes v).bad = d.bad := rfl
@[simp] theorem Dev.setOftTimes_memFaults (d : Dev) (v : Tbl Nat) : (d.setOftTimes v).memFaults = d.memFaults := rfl
@[simp] theorem Dev.setOftTimes_cores (d : Dev) (v : Tbl Nat) : (d.setOftTimes v).cores = d.cores := rfl
@[simp] theorem Dev.setOftTimes_fields (d : Dev) (v : Tbl Nat) : (d.setOftTimes v).fields = d.fields := rfl
@[simp] theorem Dev.setOftTimes_saves (d : Dev) (v : Tbl Nat) : (d.setOftTimes v).saves = d.saves := rfl
@[simp] theorem Dev.setOftTimes_startup (d : Dev) (v : Tbl Nat) : (d.setOftTimes v).startup = d.startup := rfl
@[simp] theorem Dev.setOftTimes_units (d : Dev) (v : Tbl Nat) : (d.setOftTimes v).units = d.units := rfl
@[simp] theorem Dev.setOftTimes_silt (d : Dev) (v : Tbl Nat) : (d.setOftTimes v).silt = d.silt := rfl
@[simp] theorem Dev.setOftTimes_lkk (d : Dev) (v : Tbl Nat) : (d.setOftTimes v).lkk = d.lkk := rfl
@[simp] theorem Dev.setOftTimes_flumes (d : Dev) (v : Tbl Nat) : (d.setOftTimes v).flumes = d.flumes := rfl
@[simp] theorem Dev.setOftTimes_divs (d : Dev) (v : Tbl Nat) : (d.setOftTimes v).divs = d.divs := rfl
@[simp] theorem Dev.setOftTimes_divPins (d : Dev) (v : Tbl Nat) : (d.setOftTimes v).divPins = d.divPins := rfl
@[simp] theorem Dev.setOftTimes_claims (d : Dev) (v : Tbl Nat) : (d.setOftTimes v).claims = d.claims := rfl
@[simp] theorem Dev.setOftTimes_steps (d : Dev) (v : Tbl Nat) : (d.setOftTimes v).steps = d.steps := rfl
@[simp] theorem Dev.setOftTimes_parts (d : Dev) (v : Tbl Nat) : (d.setOftTimes v).parts = d.parts := rfl
@[simp] theorem Dev.setOftTimes_cis (d : Dev) (v : Tbl Nat) : (d.setOftTimes v).cis = d.cis := rfl
@[simp] theorem Dev.setOftTimes_gauges (d : Dev) (v : Tbl Nat) : (d.setOftTimes v).gauges = d.gauges := rfl
@[simp] theorem Dev.setOftTimes_gaugeReports (d : Dev) (v : Tbl Nat) : (d.setOftTimes v).gaugeReports = d.gaugeReports := rfl
@[simp] theorem Dev.setOftTimes_cfls (d : Dev) (v : Tbl Nat) : (d.setOftTimes v).cfls = d.cfls := rfl
@[simp] theorem Dev.setOftTimes_cflElems (d : Dev) (v : Tbl Nat) : (d.setOftTimes v).cflElems = d.cflElems := rfl
@[simp] theorem Dev.setOftTimes_sec (d : Dev) (v : Tbl Nat) : (d.setOftTimes v).sec = d.sec := rfl
@[simp] theorem Dev.setOftTimes_power (d : Dev) (v : Tbl Nat) : (d.setOftTimes v).power = d.power := rfl
@[simp] theorem Dev.setOftTimes_wakes (d : Dev) (v : Tbl Nat) : (d.setOftTimes v).wakes = d.wakes := rfl
@[simp] theorem Dev.setOftTimes_serves (d : Dev) (v : Tbl Nat) : (d.setOftTimes v).serves = d.serves := rfl
@[simp] theorem Dev.setOftTimes_tenants (d : Dev) (v : Tbl Nat) : (d.setOftTimes v).tenants = d.tenants := rfl
@[simp] theorem Dev.setOftTimes_reqs (d : Dev) (v : Tbl Nat) : (d.setOftTimes v).reqs = d.reqs := rfl
@[simp] theorem Dev.setOftTimes_nextReq (d : Dev) (v : Tbl Nat) : (d.setOftTimes v).nextReq = d.nextReq := rfl
@[simp] theorem Dev.setOftTimes_ofts (d : Dev) (v : Tbl Nat) : (d.setOftTimes v).ofts = d.ofts := rfl
@[simp] theorem Dev.setOftTimes_oftInsts (d : Dev) (v : Tbl Nat) : (d.setOftTimes v).oftInsts = d.oftInsts := rfl
@[simp] theorem Dev.setOftTimes_oftTimes (d : Dev) (v : Tbl Nat) : (d.setOftTimes v).oftTimes = v := rfl

end Sys2Proof.Machine
end

