-- ==== Sys2Proof/Laws/Tbl.lean ====
section
/-!
SUPPORT. The laws of sparse tables: what is put is read and other keys are left alone, in every table; and every
operation keeps the canonical form.
-/
namespace Sys2Proof.Machine

@[simp] theorem Tbl.get_nil {α : Type} (d : α) (i : Nat) : Tbl.get d [] i = d := rfl

@[simp] theorem Tbl.get_remove_same {α : Type} {d : α} {i : Nat} {t : Tbl α} : Tbl.get d (Tbl.remove t i) i = d := by
  induction t with
  | nil => rfl
  | cons e r ih => by_cases h : e.1 = i <;> simp [Tbl.remove, Tbl.get, h, ih]

theorem Tbl.get_remove_ne {α : Type} {d : α} {i j : Nat} {t : Tbl α} (h : j ≠ i) :
    Tbl.get d (Tbl.remove t i) j = Tbl.get d t j := by
  induction t with
  | nil => rfl
  | cons e r ih =>
    by_cases h1 : e.1 = i
    · have : e.1 ≠ j := fun h2 => h (h2.symm.trans h1)
      simp [Tbl.remove, Tbl.get, h1, ih, Ne.symm h]
    · by_cases h2 : e.1 = j <;> simp [Tbl.remove, Tbl.get, h1, h2, ih, h]

theorem Tbl.get_place_same {α : Type} {d v : α} {i : Nat} {t : Tbl α} (h : Tbl.get none (t.map fun e => (e.1, some e.2)) i
    = (none : Option α)) : Tbl.get d (Tbl.place t i v) i = v := by
  induction t with
  | nil => simp [Tbl.place, Tbl.get]
  | cons e r ih =>
    have h1 : e.1 ≠ i := fun h1 => by simp [Tbl.get, h1] at h
    simp only [List.map_cons, Tbl.get, if_neg h1] at h
    by_cases h2 : i < e.1 <;> simp [Tbl.place, Tbl.get, h2, h1, ih h]

theorem Tbl.get_place_ne {α : Type} {d v : α} {i j : Nat} {t : Tbl α} (h : j ≠ i) :
    Tbl.get d (Tbl.place t i v) j = Tbl.get d t j := by
  induction t with
  | nil => simp [Tbl.place, Tbl.get, Ne.symm h]
  | cons e r ih =>
    by_cases h2 : i < e.1
    · simp [Tbl.place, Tbl.get, h2, Ne.symm h]
    · simp [Tbl.place, Tbl.get, h2, ih]

theorem Tbl.map_remove {α β : Type} {f : α → β} {i : Nat} {t : Tbl α} :
    (Tbl.remove t i).map (fun e => (e.1, f e.2)) = Tbl.remove (t.map fun e => (e.1, f e.2)) i := by
  induction t with
  | nil => rfl
  | cons e r ih => by_cases h : e.1 = i <;> simp [Tbl.remove, h, ih]

/-- What is put is read. -/
@[simp] theorem Tbl.get_set_same {α : Type} [DecidableEq α] {d : α} {i : Nat} {v : α} {t : Tbl α} :
    Tbl.get d (Tbl.set d t i v) i = v := by
  by_cases hv : v = d
  · simp [Tbl.set, hv]
  · simp only [Tbl.set, if_neg hv]
    exact Tbl.get_place_same (by rw [Tbl.map_remove]; simp)

/-- Other keys read as before. -/
theorem Tbl.get_set_ne {α : Type} [DecidableEq α] {d : α} {i j : Nat} {v : α} {t : Tbl α} (h : j ≠ i) :
    Tbl.get d (Tbl.set d t i v) j = Tbl.get d t j := by
  by_cases hv : v = d <;> simp [Tbl.set, hv, Tbl.get_remove_ne h, Tbl.get_place_ne h]

theorem Tbl.get_dropIf {α : Type} {d : α} {p : Nat → Bool} {t : Tbl α} {i : Nat} :
    Tbl.get d (Tbl.dropIf p t) i = if p i then d else Tbl.get d t i := by
  induction t with
  | nil => simp [Tbl.dropIf]
  | cons e r ih =>
    obtain ⟨k, v⟩ := e
    by_cases h : k = i
    · subst h; by_cases hp : p k = true <;> simp [Tbl.dropIf, Tbl.get, ih, hp]
    · by_cases hp : p k = true <;> simp [Tbl.dropIf, Tbl.get, ih, hp, h]

theorem Tbl.wfFrom_mono {α : Type} [DecidableEq α] {d : α} {a b : Nat} {t : Tbl α} (hab : a ≤ b)
    (h : Tbl.wfFrom d b t = true) : Tbl.wfFrom d a t = true := by
  cases t with
  | nil => rfl
  | cons e r =>
    obtain ⟨k, v⟩ := e
    simp only [Tbl.wfFrom, Bool.and_eq_true, decide_eq_true_eq] at h ⊢
    exact ⟨⟨Nat.le_trans hab h.1.1, h.1.2⟩, h.2⟩

theorem Tbl.wfFrom_remove {α : Type} [DecidableEq α] {d : α} {i : Nat} {t : Tbl α} :
    ∀ {b : Nat}, Tbl.wfFrom d b t = true → Tbl.wfFrom d b (Tbl.remove t i) = true := by
  induction t with
  | nil => intro b h; exact h
  | cons e r ih =>
    obtain ⟨k, w⟩ := e
    intro b h
    simp only [Tbl.wfFrom, Bool.and_eq_true, decide_eq_true_eq] at h
    by_cases hk : k = i
    · simp only [Tbl.remove, hk, if_true]; exact Tbl.wfFrom_mono (by omega) (ih h.2)
    · simp [Tbl.remove, hk, Tbl.wfFrom, h.1.1, h.1.2, ih h.2]

theorem Tbl.wfFrom_place {α : Type} [DecidableEq α] {d v : α} {i : Nat} {t : Tbl α} (hv : v ≠ d) :
    ∀ {b : Nat}, b ≤ i → Tbl.wfFrom d b (Tbl.remove t i) = true →
      Tbl.wfFrom d b (Tbl.place (Tbl.remove t i) i v) = true := by
  induction t with
  | nil => intro b hi h; simp [Tbl.remove, Tbl.place, Tbl.wfFrom, hi, hv]
  | cons e r ih =>
    obtain ⟨k, w⟩ := e
    intro b hi h
    by_cases hk : k = i
    · simp only [Tbl.remove, hk, if_true] at h ⊢; exact ih hi h
    · simp only [Tbl.remove, hk, if_false, Tbl.wfFrom, Bool.and_eq_true, decide_eq_true_eq] at h ⊢
      by_cases h2 : i < k
      · simp [Tbl.place, h2, Tbl.wfFrom, hi, hv, h.1.2, h.2, Nat.succ_le_of_lt h2]
      · simp [Tbl.place, h2, Tbl.wfFrom, h.1.1, h.1.2, ih (by omega) h.2]

theorem Tbl.wf_set {α : Type} [DecidableEq α] {d : α} {i : Nat} {v : α} {t : Tbl α} (h : Tbl.wf d t = true) :
    Tbl.wf d (Tbl.set d t i v) = true := by
  by_cases hv : v = d
  · simp only [Tbl.set, if_pos hv]; exact Tbl.wfFrom_remove h
  · simp only [Tbl.set, if_neg hv]; exact Tbl.wfFrom_place hv (Nat.zero_le i) (Tbl.wfFrom_remove h)

theorem Tbl.wf_modify {α : Type} [DecidableEq α] {d : α} {i : Nat} {f : α → α} {t : Tbl α} (h : Tbl.wf d t = true) :
    Tbl.wf d (Tbl.modify d t i f) = true := Tbl.wf_set h

theorem Tbl.wf_setRun {α : Type} [DecidableEq α] {d : α} {l : List α} :
    ∀ {i : Nat} {t : Tbl α}, Tbl.wf d t = true → Tbl.wf d (Tbl.setRun d t i l) = true := by
  induction l with
  | nil => intro i t h; exact h
  | cons v r ih => intro i t h; exact ih (Tbl.wf_set h)

theorem Tbl.wfFrom_dropIf {α : Type} [DecidableEq α] {d : α} {p : Nat → Bool} {t : Tbl α} :
    ∀ {b : Nat}, Tbl.wfFrom d b t = true → Tbl.wfFrom d b (Tbl.dropIf p t) = true := by
  induction t with
  | nil => intro b h; exact h
  | cons e r ih =>
    obtain ⟨k, v⟩ := e
    intro b h
    simp only [Tbl.wfFrom, Bool.and_eq_true, decide_eq_true_eq] at h
    obtain ⟨⟨hk, hv⟩, hr⟩ := h
    by_cases hp : p k = true
    · simp only [Tbl.dropIf, hp, if_true]; exact Tbl.wfFrom_mono (Nat.le_succ_of_le hk) (ih hr)
    · simp [Tbl.dropIf, hp, Tbl.wfFrom, hk, hv, ih hr]

theorem Tbl.wf_dropIf {α : Type} [DecidableEq α] {d : α} {p : Nat → Bool} {t : Tbl α} (h : Tbl.wf d t = true) :
    Tbl.wf d (Tbl.dropIf p t) = true := Tbl.wfFrom_dropIf h

end Sys2Proof.Machine
end

