-- ==== Sys2Proof/Safety.lean ====
section
/-!
DEFINITION. What counts as a safe run: the commands name units the device has, and no step stops.
-/
namespace Sys2Proof.Safety
open Sys2Proof.Machine

/-- Every command that waits is well formed. -/
def QueueWf (s : State) : Prop := ∀ c ∈ s.pending, c.wf = true

/-- The step goes on. -/
def GoesOn (s : State) : Prop := ∃ t, step s = .next t

end Sys2Proof.Safety
end

