-- ==== Sys2Proof/Certificates/Slice0/Obligations.lean ====
section
/-!
DEFINITION. The statements for the provers. Each docstring names the rules of the spec that the statement rests on.
A statement that says Runs i s d gives the whole next state, and so the frame as well: everything that d does not name
stands as it stood.
-/
namespace Sys2Proof.Claims
open Sys2Proof.Machine

/-- The command completes: exec answers the next state in which the device is d. The commands that wait stay as they
are. -/
def Runs (i : Instr) (s : State) (d : Dev) : Prop := exec i s = .next { s with dev := d }

/-- The command names units that the device has, and the device is not in Dry. -/
abbrev Able (i : Instr) (s : State) : Prop := i.wf = true ∧ s.dev.dry = false

/-- The same for a write of the host to a function's BARs: its port does not answer Retry Status (16 R380). -/
abbrev HostAble (fn : Nat) (i : Instr) (s : State) : Prop := Able i s ∧ s.dev.deaf fn = false

/-- The command completes and leaves the device as it stands. -/
def Leaves (i : Instr) (s : State) : Prop := Runs i s s.dev

/-- The command of a unit completes: the device is d once the faults that the unit's accesses met are taken (11 R265, 13
R315). With none met it is d itself. -/
def UnitRuns (i : Instr) (s : State) (d : Dev) : Prop := Runs i s d.settleFaults

/-- What ends a command that frees or blocks work of context c: the state of the context follows from its work, and
whatever may start starts. -/
def settled (d : Dev) (c : Nat) : Dev := (d.resettle c).pump

/-- An order of an opcode stands with its handler, which may act on it: it is dispatched, and the Headgate of its context
takes work. -/
abbrev Handed (i : Instr) (s : State) (x : Order) (op : Nat) : Prop :=
  Able i s ∧ s.dev.order? x.id = some x ∧ x.opcode = op ∧ x.phase = .dispatched ∧ s.dev.hgUp x.ctx = true

end Sys2Proof.Claims

open Sys2Proof Sys2Proof.Machine Sys2Proof.Claims

/-! ### The queue of commands -/

/-- Step takes the command at the front of the queue and runs exec on the state with the queue's rest. -/
def Obligations.StepRunsTheFrontCommand : Prop :=
  ∀ (c : Instr) (r : List Instr) (s : State), s.pending = c :: r → step s = exec c { s with pending := r }

/-- On an empty queue one nanosecond of the oscillator passes, and nothing but the time base changes (the model's
choice, log entry 3; the counter's rate is R375's). -/
def Obligations.EmptyQueueCountsOneNanosecond : Prop :=
  ∀ s : State, s.pending = [] →
    step s = .next { s with dev := s.dev.setTime (s.dev.time.tick 1) } ∧
    (s.dev.time.hold = none → s.dev.time.slew = 0 →
      (s.dev.time.tick 1).osc = s.dev.time.osc + 1 ∧ (s.dev.time.tick 1).cnt = s.dev.time.cnt + (s.dev.time.frac + fracUnit) / fracUnit)

/-! ### Rings, orders and error rings (14) -/

/-- R324, R340, Table 14-12: a doorbell HR_TAIL or TR_HEAD sets its count; on a DISABLED or RESETTING ring it is the
violation 0x0402; a count beyond the ring's entries, or beyond the records written, puts the ring into ERROR with 0x0403 and
ends its fetched orders with 0x0200. A doorbell of another width is the violation 0x0402. -/
def Obligations.DoorbellsMoveTheirCountsOrFault : Prop :=
  ∀ (s : State) (fn pair : Nat) (v : Word),
    (HostAble fn (.hrTail fn pair v) s →
      let d := s.dev
      let r := d.ring fn pair
      let beyond := r.state = .active ∧ d.hrEntries fn pair < w32 (v.toNat + 2 ^ 32 - r.fetched)
      (r.state = .disabled ∨ r.state = .resetting →
        Runs (.hrTail fn pair v) s (d.raise (srcRing (portOf fn)) (fnCtx fn) 0x0402 0 [])) ∧
      (¬ (r.state = .disabled ∨ r.state = .resetting) → ¬ beyond →
        Runs (.hrTail fn pair v) s (d.putRing fn pair { r with hrTail := v.toNat })) ∧
      (beyond → Runs (.hrTail fn pair v) s
        ((d.putRing fn pair { r with state := .error, code := 0x0403 }).endRing fn pair 0x0200 fun o =>
          o.phase == .fetched))) ∧
    (HostAble fn (.trHead fn pair v) s →
      let d := s.dev
      let r := d.ring fn pair
      let beyond := r.state = .active ∧ w32 (r.written + 2 ^ 32 - r.trHead) < w32 (v.toNat + 2 ^ 32 - r.trHead)
      (r.state = .disabled ∨ r.state = .resetting →
        Runs (.trHead fn pair v) s (d.raise (srcRing (portOf fn)) (fnCtx fn) 0x0402 0 [])) ∧
      (¬ (r.state = .disabled ∨ r.state = .resetting) → ¬ beyond →
        Runs (.trHead fn pair v) s (d.putRing fn pair { r with trHead := v.toNat })) ∧
      (beyond → Runs (.trHead fn pair v) s
        ((d.putRing fn pair { r with state := .error, code := 0x0403 }).endRing fn pair 0x0200 fun o =>
          o.phase == .fetched))) ∧
    (∀ page off len, HostAble fn (.pcieDoorbell fn page off len) s →
      Runs (.pcieDoorbell fn page off len) s (s.dev.raise (srcRing (portOf fn)) (fnCtx fn) 0x0402 0 []))

/-- R324, R329, R330, R331, R335: an order is fetched from its place in the Headrace with its mark, dispatched in ring
order, and completed with its record. -/
def Obligations.OrdersAreFetchedDispatchedAndCompleted : Prop :=
  ∀ (s : State) (fn pair : Nat),
    (∀ bytes : Bytes, Able (.orderFetch fn pair bytes) s →
      let d := s.dev
      let r := d.ring fn pair
      let src := srcRing (portOf fn)
      let ahead := w32 (r.hrTail + 2 ^ 32 - r.fetched)
      d.ready = true → r.state = .active → 0 < ahead → ahead ≤ d.hrEntries fn pair →
      d.ringLive fn pair + w32 (r.written + 2 ^ 32 - r.trHead) < d.trEntries fn pair →
      let o := parseOrder ⟨fn, pair, r.base + r.fetched⟩ (d.nextMark src) bytes
      Runs (.orderFetch fn pair bytes) s
        (((((d.issue src (d.nextMark src)).emit (.hostRead (portOf fn)
            (64 * d.reg .hifHrBase (ringKey fn pair) + 64 * (r.fetched % d.hrEntries fn pair)) 64)).putRing fn pair
              { r with fetched := w32 (r.fetched + 1) }).setOrders (d.orders ++ [o])).startTurn fn pair)) ∧
    (∀ o : Order, Able (.orderDispatch fn pair) s → s.dev.front fn pair = some o → s.dev.hgUp o.ctx = true →
      o.checked = true → s.dev.waitOver o = true → s.dev.fenceOver o = true → s.dev.mayStart o.ctx = true →
      s.dev.drainCode o = 0 →
      Runs (.orderDispatch fn pair) s
        ((((s.dev.endWait (.order o.id)).modOrder o.id fun x =>
          { x with phase := .dispatched, dispatched := true }).startTurn fn pair).resettle o.ctx)) ∧
    (∀ o : Order, Able (.orderComplete o.id) s → s.dev.order? o.id = some o → o.phase = .ended → o.orphan = false →
      let d := s.dev
      let f := o.id.fn
      let p := o.id.pair
      let sig := bit o.flags 1 && signals o.status
      let done := d.nextMark o.source
      let d1 := if sig then d.signal o.sigGate o.sigValue o.source else d.issue o.source done
      let d2 := d1.setOrders (d1.orders.filter fun x => x.id != o.id)
      let j := (d2.ring f p).written
      let n := d2.trEntries f p
      let rec_ := le 4 o.tag ++ le 2 o.status ++
        le 1 (b2n ((j / n + 1) % 2 == 1) + 2 * b2n o.noop + 4 * b2n o.records + 8 * b2n sig) ++ le 1 o.opcode ++
        le 8 o.mark ++ le 8 done ++ le 4 (sat32 o.charged) ++ le 2 o.source ++ le 2 o.id.k
      let d3 := (d2.hostWrite (portOf f) (64 * d2.reg .hifTrBase (ringKey f p) + 32 * (j % n)) rec_).putRing f p
        { d2.ring f p with written := w32 (j + 1) }
      let d4 := if bit o.flags 3 ∨ d3.reg .hifIrqAll (ringKey f p) = 1 then d3.ringFire f p else d3
      Runs (.orderComplete o.id) s ((((d4.ringDrained f p).startTurn f p).resettle o.ctx).drainCheck)) ∧
    (∀ at_ t, Able (.holdoffExpiry fn pair at_) s →
      let d := s.dev.advance at_
      let r := d.ring fn pair
      r.deferred = true → r.lastFire = some t → t + 1000 * d.reg .hifHoldoff (ringKey fn pair) ≤ d.time.osc →
      Runs (.holdoffExpiry fn pair at_) s
        ((d.putRing fn pair { r with lastFire := some d.time.osc, deferred := false }).fire fn
          (d.reg .hifVector (ringKey fn pair))))

/-- R325: the header of an order, field by field from Table 14-3, and R326's context 0xFFFF of a virtual function. -/
def Obligations.OrderHeaderStandsAsTable14_3 : Prop :=
  ∀ (id : OrderId) (mark op flags cond rsvd ctx rsvd2 tag uj wait sig sigV waitV : Nat) (body : Bytes),
    body.length = 32 → op < 2 ^ 8 → flags < 2 ^ 8 → cond < 2 ^ 8 → rsvd < 2 ^ 8 → ctx < 2 ^ 16 → rsvd2 < 2 ^ 16 →
    tag < 2 ^ 32 → uj < 2 ^ 32 → wait < 2 ^ 16 → sig < 2 ^ 16 → sigV < 2 ^ 32 → waitV < 2 ^ 64 →
    let b := le 1 op ++ le 1 flags ++ le 1 cond ++ le 1 rsvd ++ le 2 ctx ++ le 2 rsvd2 ++ le 4 tag ++ le 4 uj ++
      le 2 wait ++ le 2 sig ++ le 4 sigV ++ le 8 waitV ++ body
    let o := parseOrder id mark b
    o.id = id ∧ o.mark = mark ∧ o.opcode = op ∧ o.flags = flags ∧ o.cond = cond ∧
    o.ctx = (if ctx = 0xFFFF ∧ id.fn < 1024 then id.fn else ctx) ∧ o.tag = tag ∧ o.energyUj = uj ∧ o.waitGate = wait ∧
    o.sigGate = sig ∧ o.sigValue = sigV ∧ o.waitValue = waitV ∧ o.body = body ∧ o.phase = .fetched

/-- R323, R332, R333: enabling, disabling and aborting a ring pair, and starting an error ring. The registers that
HIF_RING_CTL stores besides are put first. -/
def Obligations.RingControlStartsDrainsAndAborts : Prop :=
  ∀ (s : State) (fn pair : Nat) (ctl : Word),
    let d := s.dev
    let q := ringKey fn pair
    let d0 := (d.putReg .hifIrqAll q (fld ctl.toNat 29 1)).putReg .hifHoldoff q (fld ctl.toNat 0 16)
    let d1 := if vectorOk fn (fld ctl.toNat 16 11) then d0.putReg .hifVector q (fld ctl.toNat 16 11) else d0
    (HostAble fn (.ringEnable fn pair ctl) s → bit ctl.toNat 31 = true → bit ctl.toNat 30 = false →
      (d.ring fn pair).state = .disabled →
      Runs (.ringEnable fn pair ctl) s (d1.putRing fn pair
        { state := .active, code := (d.ring fn pair).code, hrTail := 0, trHead := 0, fetched := 0,
          base := d1.orphanBase fn pair, written := 0, lastFire := (d.ring fn pair).lastFire, deferred := false })) ∧
    (HostAble fn (.ringEnable fn pair ctl) s → bit ctl.toNat 31 = true → bit ctl.toNat 30 = false →
      (d.ring fn pair).state = .draining ∨ (d.ring fn pair).state = .resetting → Runs (.ringEnable fn pair ctl) s d1) ∧
    (HostAble fn (.ringDisable fn pair ctl) s → bit ctl.toNat 31 = false → bit ctl.toNat 30 = false →
      (d.ring fn pair).state = .active ∨ (d.ring fn pair).state = .error →
      let x := d1.endRing fn pair 0x0202 fun o => o.phase == .fetched || o.phase == .held
      Runs (.ringDisable fn pair ctl) s
        ((x.putRing fn pair { x.ring fn pair with state := .draining }).ringDrained fn pair)) ∧
    (HostAble fn (.abort fn pair ctl) s → bit ctl.toNat 31 = true → bit ctl.toNat 30 = true →
      (d.ring fn pair).state = .active →
      Runs (.abort fn pair ctl) s
        (d1.endRing fn pair 0x0202 fun o => o.phase == .fetched || o.phase == .held)) ∧
    (∀ v : Word, HostAble fn (.errorRingEnable fn v) s → d.reg .hifErrEnable fn = 0 →
      let e := if 4 ≤ fld v.toNat 0 5 ∧ fld v.toNat 0 5 ≤ 16 then d.putReg .hifErrLog2 fn (fld v.toNat 0 5) else d
      Runs (.errorRingEnable fn v) s
        (if bit v.toNat 8 = true then
          ((e.putReg .hifErrEnable fn 1).putReg .hifErrTail fn 0).putErr fn { head := 0, lost := 0, lostSince := 0 }
         else e)) ∧
    (∀ v : Word, HostAble fn (.errorRingEnable fn v) s → d.reg .hifErrEnable fn = 1 →
      Runs (.errorRingEnable fn v) s (d.putReg .hifErrEnable fn (fld v.toNat 8 1)))

/-! ### Sluices (14) -/

/-- R336, R338, R339: message words reach an EMPTY Sluice from its bound sender alone, a 64-bit write at its natural
alignment (00 R8); SEND checks the header, is acknowledged at once where the receiver is down or the device is in Dry, and
raises the misuse and the unbound write. -/
def Obligations.SluiceWritesAndSendsFollowR338 : Prop :=
  ∀ (s : State) (who sl : Nat),
    let d := s.dev
    let x := d.sluice sl
    let none_ (code : Nat) : Dev := d.raise (srcOfMaster who) (if who < 1024 then who else 0xFFFF) code 0 []
    let misuse (code : Nat) : Dev := (d.putSluice sl { x with misuse := code }).raise (srcOfMaster who)
      (if who < 1024 then who else 0xFFFF) code 0 []
    d.deafMaster who = false → who < 65536 → sl < 1040 →
    (∀ (k len : Nat) (v : DWord), d.dry = false → k < 16 → len = 4 ∨ len = 8 →
      (len = 8 → k % 2 = 1 → Runs (.slcMsgWrite who sl k len v) s (none_ 0x0401)) ∧
      ((len = 8 → k % 2 = 0) → x.bound who = false → Runs (.slcMsgWrite who sl k len v) s (none_ 0x0413)) ∧
      ((len = 8 → k % 2 = 0) → x.bound who = true → x.full = true →
        Runs (.slcMsgWrite who sl k len v) s (misuse 0x0411)) ∧
      (x.bound who = true → x.full = false → len = 4 →
        Runs (.slcMsgWrite who sl k len v) s (d.putSluice sl { x with msg := x.msg.set k (v.toNat % 2 ^ 32) })) ∧
      (x.bound who = true → x.full = false → len = 8 → k % 2 = 0 →
        Runs (.slcMsgWrite who sl k len v) s (d.putSluice sl
          { x with msg := (x.msg.set k (v.toNat % 2 ^ 32)).set (k + 1) (v.toNat / 2 ^ 32 % 2 ^ 32) }))) ∧
    (∀ seq : Nat,
      let bad := 60 < x.length ∨ x.command = 0
      let answer (code : Nat) : Dev := (d.putSluice sl { x with ackCode := code, ackSeq := seq % 256 }).fireSluice x.sender
      (x.bound who = false → Runs (.slcSend who sl seq) s (none_ 0x0413)) ∧
      (x.bound who = true → x.full = true → Runs (.slcSend who sl seq) s (misuse 0x0410)) ∧
      (x.bound who = true → x.full = false → bad → Runs (.slcSend who sl seq) s (answer 0x0412)) ∧
      (x.bound who = true → x.full = false → ¬ bad → d.receiverDown (d.receiverOf x) = true →
        Runs (.slcSend who sl seq) s (answer 0x0201)) ∧
      (d.dry = true → d.receiverDown (d.receiverOf x) = true) ∧
      (x.bound who = true → x.full = false → ¬ bad → d.receiverDown (d.receiverOf x) = false →
        Runs (.slcSend who sl seq) s
          ((d.putSluice sl { x with seq := seq % 256, full := true, sentAt := d.time.osc }).emit
            (.sluiceReceiver sl)))) ∧
    (d.dry = false → x.bound who = false → Runs (.sluiceUnbound who sl) s (none_ 0x0413)) ∧
    (d.dry = false → x.bound who = true → Leaves (.sluiceUnbound who sl) s)

/-- R337, R338, R339, Table 14-10: a take empties the Sluice, writes the acknowledgement with SEQ and fires the sender's
vector; the timeout clears it with 0x0201 and one Silt entry. The receiver refuses a command with a refusal code of the
master table (00 R16). -/
def Obligations.SluiceTakesAndTimeoutsAcknowledge : Prop :=
  ∀ (s : State) (sl code at_ : Nat),
    let d := s.dev
    let x := d.sluice sl
    let lkk := x.receiver = 0x600 ∧ 0x0101 ≤ x.command ∧ x.command ≤ 0x0105
    d.dry = false → sl < 1040 →
    (x.full = true → x.command = 1 → x.length = 0 →
      Runs (.ping sl) s ((d.putSluice sl { x with lastTaken := some (x.seq, x.msg) }).ack sl 0x0001) ∧
      Runs (.sluiceTake sl code) s ((d.putSluice sl { x with lastTaken := some (x.seq, x.msg) }).ack sl 0x0001)) ∧
    (x.full = true → ¬ (x.command = 1 ∧ x.length = 0) → ¬ lkk →
      Runs (.sluiceTake sl code) s ((d.putSluice sl { x with lastTaken := some (x.seq, x.msg) }).ack sl 0x0110)) ∧
    (x.full = true → lkk → x.lastTaken = some (x.seq, x.msg) →
      Runs (.sluiceTake sl code) s ((d.putSluice sl { x with lastTaken := x.lastTaken }).ack sl 0x0003)) ∧
    (x.full = true → lkk → x.lastTaken ≠ some (x.seq, x.msg) →
      let refusal := (refusalCodes.any fun r => decide (r.1 ≤ code ∧ code ≤ r.2)) = true
      (refusal → Runs (.sluiceTake sl code) s ((d.putSluice sl { x with lastTaken := some (x.seq, x.msg) }).ack sl code)) ∧
      (¬ refusal → Leaves (.sluiceTake sl code) s)) ∧
    (x.full = false → Leaves (.ping sl) s ∧ Leaves (.sluiceTake sl code) s) ∧
    (let e := d.advance at_
     let due := x.sentAt + 1000000 * d.reg .slcTimeout 0 ≤ e.time.osc
     (x.full = true → due → Runs (.sluiceTimeout sl at_) s
        (((e.putSluice sl { x with full := false, ackCode := 0x0201, ackSeq := x.seq }).fireSluice x.sender).siltEv
          (srcOfMaster (e.receiverOf x)) 0x0008 0x0201 0 0 (pack16 [sl, x.seq]))) ∧
     (¬ (x.full = true ∧ due) → Runs (.sluiceTimeout sl at_) s e))

/-! ### The PCIe ports (14 Table 14-12, R322; 16 R378) -/

/-- Table 14-12: each violation by the partner has its response and its record; R340: a host read that fails ends what
read. -/
def Obligations.PcieViolationsAreAnswered : Prop :=
  ∀ (s : State) (fn pair : Nat),
    let d := s.dev
    let record (d : Dev) (code : Nat) : Dev := d.raise (srcRing (portOf fn)) (if fn < 1024 then fn else 0xFFFF) code 0 []
    (Able (.pcieBarMiss fn) s → Runs (.pcieBarMiss fn) s (record (d.emit (.pcieAnswer fn 0)) 0x0400)) ∧
    (Able (.pcieMalformed fn) s → Runs (.pcieMalformed fn) s (record d 0x0407)) ∧
    (∀ off len : Nat, d.dry = false → fn < 1026 → ¬ ((len = 4 ∨ len = 8) ∧ off % len = 0) → d.deaf fn = false →
      Runs (.pcieRegAccess fn off len true) s (record d 0x0401) ∧
      Runs (.pcieRegAccess fn off len false) s (record (d.emit (.pcieAnswer fn 1)) 0x0401)) ∧
    (∀ off len : Nat, fn < 1026 → len = 4 ∨ len = 8 → off % len = 0 →
      Runs (.pcieRegAccess fn off len false) s
        (d.emit (.registerRead fn off (BitVec.ofNat 64 (d.readReg fn off len))))) ∧
    (Able (.pcieCplTimeout (.ringFetch fn pair)) s → d.mayFetch fn pair = true →
      Runs (.pcieCplTimeout (.ringFetch fn pair)) s (d.ringError fn pair 0x0404).pump ∧
      Runs (.pcieCplError (.ringFetch fn pair)) s (d.ringError fn pair 0x0405).pump) ∧
    (∀ x : Order, Able (.pcieCplTimeout (.order x.id)) s → d.order? x.id = some x → x.opcode = opDma → x.phase = .running →
      let src := srcDma (engineOf (portOf x.id.fn))
      ((dmaFields x.body).srcHost = true →
        Runs (.pcieCplTimeout (.order x.id)) s (settled (d.failOrder x.id 0x0404 src) x.ctx) ∧
        Runs (.pcieCplError (.order x.id)) s (settled (d.failOrder x.id 0x0405 src) x.ctx)) ∧
      (((dmaFields x.body).srcHost || (dmaFields x.body).dstHost) = true →
        Runs (.pcieAts x.id) s (settled (d.failOrder x.id 0x0406 src) x.ctx)))

/-- R322: function-level resets, and resets of a port; 16 R378, 18 R419: the reset of a port is released and its link
comes up. -/
def Obligations.FunctionsAndPortsResetAndComeUp : Prop :=
  ∀ (s : State) (t port : Nat) (refclk : Bool),
    let d := s.dev
    let p := nth Port.init d.ports port
    let up := d.startup.gen = .ready ∨ d.startup.gen = .recovery
    let reset := ((d.resetVfs port).resetPf port).pump
    let down (d : Dev) (perst : Bool) : Dev := d.setPorts
      (d.ports.modify port fun p => { p with linkUp := false, retry := false, perstReleased := p.perstReleased && !perst })
    (Able (.vfFunctionLevelReset t) s → Runs (.vfFunctionLevelReset t) s (settled (d.resetVf t) t)) ∧
    (Able (.pfFunctionLevelReset port) s → Runs (.pfFunctionLevelReset port) s (d.resetPf port).pump) ∧
    (Able (.vfEnableClear port) s →
      Runs (.vfEnableClear port) s (((List.range 512).map (512 * port + ·)).foldl Dev.resetVf d).pump) ∧
    (d.dry = false → port < 2 →
      (up → Runs (.perstAssert port) s (down reset true) ∧ Runs (.linkDown port) s (down reset false)) ∧
      (¬ up → Runs (.perstAssert port) s (down d true) ∧ Runs (.linkDown port) s (down d false)) ∧
      (Runs (.perstRelease port refclk) s (d.setPorts (d.ports.modify port fun p =>
        if p.perstReleased then p
        else { p with perstReleased := true, clockMode := if refclk then 1 else 2 }))) ∧
      (p.perstReleased = true → p.linkUp = false → 2 ≤ d.startup.stage →
        Runs (.pcieLinkUp port) s ((d.setPorts (d.ports.modify port fun p =>
          { p with linkUp := true, retry := !d.retryOver })).wake (54 + port))))

/-- R322: a function-level reset of a virtual function disables its rings and its error ring, gives its MSI-X table
its reset values, discards the records of its orders and its FULL message, and tears its context down; RESETTING until
the teardown has ended. -/
def Obligations.VirtualFunctionResetStopsItsRings : Prop :=
  ∀ (d : Dev) (t : Nat), t < 1024 →
    let e := (d.dropSent t).resetMsix t
    let r (st : RingState) : Dev :=
      let f := (List.range 8).foldl (fun d p => d.putRing t p { Ring.init with state := st }) e
      (f.setOrders (f.orders.map fun o => if o.id.fn = t then { o with orphan := true } else o)).putReg .hifErrEnable t 0
    (∀ v, Tbl.get MsixEnt.init e.msix (2048 * t + v % 2048) = MsixEnt.init) ∧
    ((d.ctx t).state = .absent → d.resetVf t = r .disabled) ∧
    ((d.ctx t).state = .idle ∨ (d.ctx t).state = .swapped ∨ (d.ctx t).state = .runnable ∨ (d.ctx t).state = .blocked ∨
        (d.ctx t).state = .draining →
      d.resetVf t = ((r .resetting).teardown t 0 none .idle).modCtx t fun x => { x with flrWaiting := true }) ∧
    ((d.ctx t).state = .teardown → d.resetVf t = (r .resetting).modCtx t fun x => { x with
      afterTeardown := if x.afterTeardown = .faulted then .idle else x.afterTeardown, flrWaiting := true
      unfault := x.unfault || x.afterTeardown == .faulted }) ∧
    ((d.ctx t).state = .faulted → d.resetVf t = (r .disabled).resetCtx t)

/-! ### DMA, GATE, MEMORY and CACHE orders (11, 12) -/

/-- R292: a DMA order of a resident context is refused, completes at once or starts; its transfer ends with its bytes
written and DONE, or with the fault of the access that fails. What a transfer reads lies in the host's memory or in the
context's, and so does what it writes; into a tenant's own memory it changes the bytes of its pieces and no others. -/
def Obligations.DmaOrdersStartAndMoveTheirBytes : Prop :=
  ∀ (s : State) (x : Order) (data : Bytes) (ecc : List EccStrike),
    let d := s.dev
    let b := dmaFields x.body
    let src := srcDma (engineOf (portOf x.id.fn))
    let out := (b.srcHost = false ∧ d.outside x.ctx b.src b.bytes = true) ∨
      (b.dstHost = false ∧ d.outside x.ctx b.dst b.bytes = true)
    let resident := (d.ctx x.ctx).slot ≠ 0xFF ∧ (d.ctx x.ctx).rootLoading = false ∧ (d.ctx x.ctx).state ≠ .draining
    (Handed (.dmaOrder x.id) s x opDma →
      (¬ resident → Leaves (.dmaOrder x.id) s) ∧
      (resident → b.bytes = 0 → Runs (.dmaOrder x.id) s (settled (d.endOrder x.id 0 src true) x.ctx)) ∧
      (resident → b.bytes ≠ 0 → out → Runs (.dmaOrder x.id) s (settled (d.failOrder x.id 0x01C1 src) x.ctx)) ∧
      (resident → b.bytes ≠ 0 → ¬ out → Runs (.dmaOrder x.id) s (settled
        ((d.runOrder x.id).modOrder x.id fun y => { y with since := d.time.osc }) x.ctx))) ∧
    (Able (.systemDmaDone x.id ⟨data, ecc⟩) s → d.order? x.id = some x → x.opcode = opDma → x.phase = .running →
      let e := d.spoil ecc
      let acc := dmaAcc x
      let host := (data ++ zeros (b.bytes - data.length)).take b.bytes
      let lost := linkLost ecc (e.orderReads x)
      let ends (w : Dev) : Prop :=
        Runs (.systemDmaDone x.id ⟨data, ecc⟩) s (settled ((w.doneOrder x.id src).strikes ecc) x.ctx)
      let faults (c : Nat) : Prop :=
        (∀ a, (e.badIn (e.orderReads x)) = some a → eccCode a = c → Runs (.systemDmaDone x.id ⟨data, ecc⟩) s
          (settled (((e.faultOrder x.id c src).ueAt a).strikes ecc) x.ctx)) ∧
        ((∀ a, (e.badIn (e.orderReads x)) = some a → eccCode a ≠ c) → Runs (.systemDmaDone x.id ⟨data, ecc⟩) s
          (settled ((e.faultOrder x.id c src).strikes ecc) x.ctx))
      (lost = false → b.srcHost = true → b.dstHost = true → ends (e.hostWrite (portOf x.id.fn) b.dst host)) ∧
      (∀ w, lost = false → b.srcHost = true → b.dstHost = false → e.writeCtx acc x.ctx b.dst host = .ok w → ends w) ∧
      (∀ bs w, lost = false → b.srcHost = false → b.dstHost = true → e.readCtx acc x.ctx b.src b.bytes = .ok (bs, w) →
        ends (w.hostWrite (portOf x.id.fn) b.dst bs)) ∧
      (∀ bs w z, lost = false → b.srcHost = false → b.dstHost = false →
        e.readCtx acc x.ctx b.src b.bytes = .ok (bs, w) → w.writeCtx acc x.ctx b.dst bs = .ok z → ends z) ∧
      (∀ c, lost = false → e.moveDma x data = .error c → faults c) ∧
      (lost = true → faults 0x0322) ∧
      (∀ w l, x.ctx < 1024 → e.writeCtx acc x.ctx b.dst host = .ok w → e.range x.ctx b.dst b.bytes true = .ok l →
        w.mem = (e.writePieces l host).mem))

/-- R295, R296, Table 12-5: ALLOC, FREE, SET and ADD on COUNT Gates from FIRST on, each refused whole. -/
def Obligations.GateOrdersAllocateFreeAndSignal : Prop :=
  ∀ (s : State) (x : Order) (c : Nat),
    let d := s.dev
    let n := leAt x.body 2 2
    let gs := (List.range n).map fun i => leAt x.body 4 2 + i
    let v := leAt x.body 8 8
    let src := d.hgSource x.ctx
    bodyCtx x (leAt x.body 6 2) = some c → (d.districtOf c).isSome = true →
    (Handed (.alloc x.id) s x opGate → leAt x.body 0 1 = 1 → n ≠ 0 →
      let may := (∀ g ∈ gs, d.mayHold c g = true ∧ (d.gate g).holder = 0x7FF) ∧ d.gateRoom c n = true
      (may → Runs (.alloc x.id) s
        ((gs.foldl (fun d g => d.putGate g { value := 0, holder := c, mark := 0, source := 0 }) d).doneOrder x.id src)) ∧
      (¬ may → Runs (.alloc x.id) s (d.failOrder x.id 0x01C2 src))) ∧
    (Handed (.free x.id) s x opGate → leAt x.body 0 1 = 2 → n ≠ 0 →
      ((∀ g ∈ gs, d.holds c g = true) → (∀ g ∈ gs, d.gateBusy x.id g = false) →
        Runs (.free x.id) s
          ((gs.foldl (fun d g => d.putGate g { value := 0, holder := 0x7FF, mark := 0, source := 0 }) d).doneOrder x.id
            src)) ∧
      ((∃ g ∈ gs, d.holds c g = false) → Runs (.free x.id) s (d.failOrder x.id 0x01C4 src)) ∧
      ((∀ g ∈ gs, d.holds c g = true) → (∃ g ∈ gs, d.gateBusy x.id g = true) →
        Runs (.free x.id) s (d.failOrder x.id 0x01C3 src))) ∧
    (Handed (.set x.id) s x opGate → leAt x.body 0 1 = 3 → n ≠ 0 →
      ((∀ g ∈ gs, d.holds c g = true) →
        Runs (.set x.id) s ((gs.foldl (fun d g => d.signalTo g v src) d).doneOrder x.id src)) ∧
      ((∃ g ∈ gs, d.holds c g = false) → Runs (.set x.id) s (d.failOrder x.id 0x01C4 src))) ∧
    (Handed (.add x.id) s x opGate → leAt x.body 0 1 = 4 → n ≠ 0 →
      ((∀ g ∈ gs, d.holds c g = true) →
        Runs (.add x.id) s ((gs.foldl (fun d g => d.signal g v src) d).doneOrder x.id src)) ∧
      ((∃ g ∈ gs, d.holds c g = false) → Runs (.add x.id) s (d.failOrder x.id 0x01C4 src)))

/-- R293, R294: a signal sets or adds to a Gate modulo 2⁶⁴, keeps its time mark and source, keeps its holder, and releases
the waits at that Gate whose condition then holds; no other Gate changes its value. -/
def Obligations.SignalsUpdateOneGateAndReleaseItsWaits : Prop :=
  ∀ (d : Dev) (g v src : Nat),
    let e := d.signal g v src
    let now := d.nextMark src
    e.gate g = { value := (d.gate g).value + BitVec.ofNat 64 v, holder := (d.gate g).holder, mark := now, source := src } ∧
    (∀ h, h ≠ g → e.gate h = d.gate h) ∧
    e.waits.map (·.who) = d.waits.map (·.who) ∧
    (∀ w ∈ d.waits, w.gate ≠ g → w ∈ e.waits) ∧
    (∀ w ∈ d.waits, w.gate = g →
      (if w.released = true ∨ condHolds w.cond (((d.gate g).value.toNat + v) % 2 ^ 64) w.operand = true then
        { w with released := true } else w) ∈ e.waits) ∧
    e.mem = d.mem ∧ e.orders = d.orders ∧ e.regs = d.regs

/-- R265, R266, R267, R281: a MEMORY order is tested, and one of no bytes is a NOOP; MAP takes frames that read as zero,
UNMAP scrubs and returns them, PROTECT changes the permission. The translation tables that the mappings then need stand in
frames of the general pool (R265). -/
def Obligations.MemoryOrdersMapUnmapAndProtect : Prop :=
  ∀ (s : State) (x : Order),
    let d := s.dev
    let m := memFields x.body
    let src := d.hgSource x.ctx
    (∀ i n, (i = Instr.map x.id ∧ n = 1) ∨ (i = .unmap x.id ∧ n = 2) ∨ (i = .protect x.id ∧ n = 3) →
      Handed i s x opMemory → leAt x.body 0 1 = n →
      (d.memCode x ≠ 0 → Runs i s (d.failOrder x.id (d.memCode x) src)) ∧
      (d.memCode x = 0 → m.bytes = 0 → Runs i s (d.endOrder x.id 0 src true))) ∧
    (∀ c k : Nat, d.memCode x = 0 → d.memTarget x = some (c, k) → m.bytes ≠ 0 →
      let maps := (d.ctx c).maps
      (Handed (.map x.id) s x opMemory → leAt x.body 0 1 = 1 →
        let clash := (maps.any fun q => overlap m.va m.bytes q.va q.bytes) = true ∨
          (m.fixed = true ∧ ((d.used k).any fun u => overlap m.va m.bytes u.1 u.2) = true)
        let holes := ((List.range (ceilDiv m.bytes chunkBytes)).any fun i => d.hole k (m.va + i * chunkBytes)) = true
        let fits (fr : List (Nat × Nat)) : Prop :=
          (m.fixed = false ∧ d.frames k m.page m.bytes = (fr, 0)) ∨ (m.fixed = true ∧ ¬ holes ∧ fr = [(m.va, m.bytes)])
        let maps2 (fr : List (Nat × Nat)) : List Mapping := maps ++ mapPieces m.va m.page m.write m.fixed fr
        (clash → Runs (.map x.id) s (d.failOrder x.id 0x0153 src)) ∧
        (¬ clash → d.quotaRoom c m.bytes = false → Runs (.map x.id) s (d.failOrder x.id 0x0151 src)) ∧
        (∀ fr w, ¬ clash → d.quotaRoom c m.bytes = true → fits fr →
          (fr.foldl (fun d r => d.scrub r.1 r.2) d).remap k c (maps2 fr) = some w →
          Runs (.map x.id) s (w.doneOrder x.id src)) ∧
        (∀ fr, ¬ clash → d.quotaRoom c m.bytes = true → fits fr →
          (fr.foldl (fun d r => d.scrub r.1 r.2) d).remap k c (maps2 fr) = none →
          Runs (.map x.id) s (d.failOrder x.id 0x0152 src)) ∧
        (¬ clash → d.quotaRoom c m.bytes = true → m.fixed = false → (d.frames k m.page m.bytes).2 ≠ 0 →
          Runs (.map x.id) s (d.failOrder x.id 0x0152 src)) ∧
        (¬ clash → d.quotaRoom c m.bytes = true → m.fixed = true → holes →
          Runs (.map x.id) s (d.failOrder x.id 0x0152 src))) ∧
      (Handed (.unmap x.id) s x opMemory → leAt x.body 0 1 = 2 →
        (covered maps m.page m.va m.bytes ≠ m.bytes → Runs (.unmap x.id) s (d.failOrder x.id 0x0153 src)) ∧
        (covered maps m.page m.va m.bytes = m.bytes →
          let e := (maps.flatMap fun y => y.inside m.va m.bytes).foldl (fun d y => d.scrub y.phys y.bytes) d
          Runs (.unmap x.id) s
            ((e.remapTo k c (maps.flatMap fun y => y.outside m.va m.bytes)).doneOrder x.id src))) ∧
      (Handed (.protect x.id) s x opMemory → leAt x.body 0 1 = 3 →
        (covered maps m.page m.va m.bytes ≠ m.bytes → Runs (.protect x.id) s (d.failOrder x.id 0x0153 src)) ∧
        (covered maps m.page m.va m.bytes = m.bytes →
          Runs (.protect x.id) s ((d.remapTo k c (maps.flatMap fun y =>
            y.outside m.va m.bytes ++ (y.inside m.va m.bytes).map fun z => { z with write := m.write })).doneOrder x.id
              src))))

/-- R275 to R279: CREATE writes HOME 0 and the handle, and with PIN loads and pins the entry; LOAD and PIN complete on a
RESIDENT entry, take a STAGED one into the general pool, and otherwise wait for its load; UNPIN and DROP; the end of a
load. -/
def Obligations.CacheOrdersCreateLoadPinAndDrop : Prop :=
  ∀ (s : State) (x : Order) (i : Nat),
    let d := s.dev
    let src := d.hgSource x.ctx
    let e := d.entry i
    let named := d.handle? (leAt x.body 4 4) ((d.districtOf x.ctx).getD 16) = some i
    let loads (c : Instr) (pin : Bool) : Prop :=
      (pin = true → d.pinRoom i = false → Runs c s (d.failOrder x.id 0x0157 src)) ∧
      ((pin = true → d.pinRoom i = true) →
        let fin (d : Dev) : Dev := (if pin then
          d.putEntry i { d.entry i with pins := (d.entry i).pins + 1, lastUse := d.time.cnt } else d).doneOrder x.id src
        let waits (d : Dev) : Dev :=
          (d.putEntry i { d.entry i with waiting := (d.entry i).waiting ++ [(x.id, pin)] }).runOrder x.id
        (e.state = .resident → Runs c s (fin d)) ∧
        (e.state = .loading → Runs c s (waits d)) ∧
        (∀ d1, e.state = .backed → d.startLoad i false = some d1 → Runs c s (waits d1)) ∧
        (∀ d1, e.state = .staged → d.startLoad i false = some d1 → Runs c s (fin d1)) ∧
        (e.state = .backed ∨ e.state = .staged → d.startLoad i false = none →
          Runs c s (d.failOrder x.id 0x0158 src)))
    (Handed (.create x.id) s x opCache → leAt x.body 0 1 = 1 →
      let addr := leAt x.body 8 8
      (∀ c, d.readCtx (d.hgAcc x.ctx) x.ctx addr 64 = .error c → UnitRuns (.create x.id) s (d.failOrder x.id c src)) ∧
      (∀ (b : Bytes) (d1 : Dev), d.readCtx (d.hgAcc x.ctx) x.ctx addr 64 = .ok (b, d1) →
        let y := parseEntry x.id.fn b
        let made : Dev := (d1.putEntry i { y with
            gen := (d1.entry i).gen, descAddr := addr, descCtx := x.ctx }).storeCtx (d1.hgAcc x.ctx) x.ctx
            (addr + 48) (le 8 0 ++ le 4 (i + 2 ^ 24 * ((d1.entry i).gen % 256)))
        let z := made.loadFor x.id src i true
        let refused (c : Nat) : Prop := ∃ o, z.order? x.id = some o ∧ o.status = c ∧ (c = 0x0157 ∨ c = 0x0158)
        (d1.descOk y b = false → UnitRuns (.create x.id) s (d1.failOrder x.id 0x0154 src)) ∧
        (d1.descOk y b = true → d1.freeIndex = none → UnitRuns (.create x.id) s (d1.failOrder x.id 0x0159 src)) ∧
        (d1.descOk y b = true → d1.freeIndex = some i → bit (leAt b 17 1) 0 = false →
          UnitRuns (.create x.id) s (made.doneOrder x.id src)) ∧
        (d1.descOk y b = true → d1.freeIndex = some i → bit (leAt b 17 1) 0 = true →
          (∀ c, refused c → UnitRuns (.create x.id) s (d1.failOrder x.id c src)) ∧
          ((∀ c, ¬ refused c) → UnitRuns (.create x.id) s z)))) ∧
    (Handed (.load x.id) s x opCache → leAt x.body 0 1 = 2 → named → loads (.load x.id) false) ∧
    (Handed (.pin x.id) s x opCache → leAt x.body 0 1 = 3 → named → loads (.pin x.id) true) ∧
    (Handed (.unpin x.id) s x opCache → leAt x.body 0 1 = 4 → named →
      (e.pins = 0 → Runs (.unpin x.id) s (d.failOrder x.id 0x0156 src)) ∧
      (e.pins ≠ 0 → Runs (.unpin x.id) s ((d.putEntry i { e with pins := e.pins - 1 }).doneOrder x.id src))) ∧
    (Handed (.drop x.id) s x opCache → leAt x.body 0 1 = 5 → named →
      (e.pins ≠ 0 ∨ e.usePins ≠ 0 → Runs (.drop x.id) s (d.failOrder x.id 0x0156 src)) ∧
      (e.pins = 0 → e.usePins = 0 → Runs (.drop x.id) s ((d.deleteEntry i src).doneOrder x.id src))) ∧
    (∀ c n, (c = Instr.load x.id ∧ n = 2) ∨ (c = .pin x.id ∧ n = 3) ∨ (c = .unpin x.id ∧ n = 4) ∨
        (c = .drop x.id ∧ n = 5) → Handed c s x opCache → leAt x.body 0 1 = n →
      d.handle? (leAt x.body 4 4) ((d.districtOf x.ctx).getD 16) = none → Runs c s (d.failOrder x.id 0x0155 src)) ∧
    (∀ data : Bytes, Able (.cacheLoadDone i true data) s → e.live = true → e.state = .loading →
      Runs (.cacheLoadDone i false data) s (e.waiting.foldl (fun d w => d.failOrder w.1 0x015A (d.hgSource e.descCtx))
        (d.putEntry i { e with state := .backed, home := 0, toStaging := false, waiting := [] })) ∧
      (d.backingBytes e data = none → Runs (.cacheLoadDone i true data) s (d.loadFail i 0x015A)) ∧
      (∀ bs d1, d.backingBytes e data = some (bs, d1) →
        let w := d1.storeDev (d1.hgAcc e.descCtx) e.home bs
        let y := w.putEntry i { w.entry i with
          state := if e.toStaging then .staged else .resident, lastUse := w.time.cnt, waiting := [] }
        let z := if e.toStaging then y else y.parentPin i true
        Runs (.cacheLoadDone i true data) s
          (e.waiting.foldl (fun d q => d.loadEnds i (s.dev.hgSource e.descCtx) q) (z.writeHome i))))

/-! ### TRAIN_STEP, RUN, REQUEST and CANCEL orders, and Intake (05, 06, 09, 14) -/

/-- 05 R117, 06 R151, R159, 14 R327: the checks of a TRAIN_STEP and of a RUN order in their order, the start of their
programs, and the hold of a step that must wait for an earlier one. -/
def Obligations.TrainStepAndRunOrdersStartTheirPrograms : Prop :=
  ∀ (s : State) (x : Order) (k : Nat),
    let d := s.dev
    let src := d.hgSource x.ctx
    let fields := bitsOf (leAt x.body 8 2) 16
    let mbs := leAt x.body 10 2
    d.districtOf x.ctx = some k →
    (Handed (.trainStep x.id) s x opTrain →
      let ends (e : Dev) : Prop := Runs (.trainStep x.id) s (e.resettle x.ctx)
      (mbs = 0 → ends (d.endOrder x.id 0 src true)) ∧
      (mbs ≠ 0 → d.bodyProg x = none → ends (d.failOrder x.id 0x01B0 src)) ∧
      (∀ b, mbs ≠ 0 → d.bodyProg x = some b → d.startCode k b fields true ≠ 0 →
        ends (d.failOrder x.id (d.startCode k b fields true) src)) ∧
      (∀ b p, mbs ≠ 0 → d.bodyProg x = some b → d.startCode k b fields true = 0 → bytesPlan b = some p →
        (∃ f ∈ fields, d.reserveEver x.id k f mbs p = false) → ends (d.failOrder x.id 0x01D1 src)) ∧
      (∀ b, mbs ≠ 0 → d.bodyProg x = some b → d.startCode k b fields true = 0 →
        (∀ p, bytesPlan b = some p → ∀ f ∈ fields, d.reserveEver x.id k f mbs p = true) →
        let st : StepOrd :=
          { o := x.id, district := k, started := false, epoch := 0, ls := 0, attempt := 0, seed := leAt x.body 24 8,
            step := leAt x.body 16 8, microBatches := mbs, hasOpt := false, optBegun := false, optEnded := false,
            skip := 0, fields := fields, verdict := false, optLost := false, stopped := false }
        ends (((d.setSteps (d.steps ++ [st])).modOrder x.id fun y => { y with phase := .held }).tryStep x.id))) ∧
    (Able (.trainStepStart x.id) s → d.order? x.id = some x → x.phase = .held →
      (d.stepBlocked x.id k = true → Leaves (.trainStepStart x.id) s) ∧
      (∀ b e, d.stepBlocked x.id k = false → (d.dist k).state = .active → d.bodyProg x = some b →
        d.startCode k b fields true = 0 →
        (bytesPlan b = none ∧ e = d) ∨ (∃ p, bytesPlan b = some p ∧ d.reserveAll x.id k mbs p fields = some e) →
        Runs (.trainStepStart x.id) s (settled (e.beginStep x k b fields) x.ctx)) ∧
      (∀ b p, d.stepBlocked x.id k = false → (d.dist k).state = .active → d.bodyProg x = some b →
        d.startCode k b fields true = 0 → bytesPlan b = some p → d.reserveAll x.id k mbs p fields = none →
        Leaves (.trainStepStart x.id) s)) ∧
    (Handed (.run x.id) s x opRun →
      (d.bodyProg x = none → Runs (.run x.id) s ((d.failOrder x.id 0x01B0 src).resettle x.ctx)) ∧
      (∀ b, d.bodyProg x = some b → d.startCode k b fields false ≠ 0 →
        Runs (.run x.id) s ((d.failOrder x.id (d.startCode k b fields false) src).resettle x.ctx)) ∧
      (∀ b, d.bodyProg x = some b → d.startCode k b fields false = 0 →
        let e := d.modOrder x.id fun y => { y with phase := .running, fieldsLeft := fields }
        Runs (.run x.id) s (settled
          ((ranked fields).foldl (fun d q =>
            d.startProg q.2 ((d.progOf (.order x.id) x.ctx k .train b q.1).setData 0
              (x.body.take 32 ++ le 2 q.1 ++ le 2 fields.length ++ zeros 8 ++ zeros 20))) e) x.ctx)))

/-- 09 R221, R234, Table 09-3: Intake applies its tests to a REQUEST in their order and admits what passes them all; a
CANCEL delivers the tokens committed before its mark as far as the Outfall ring has room, discards the others, ends the
request with 0x0210 and its own order with DONE. -/
def Obligations.RequestsAreTestedInOrderAndCancelled : Prop :=
  ∀ (s : State) (x : Order),
    let d := s.dev
    let t := x.ctx
    let addr := leAt x.body 0 8
    let acc : Accessor := { d.hgAcc t with order := some x.id }
    let ends (e : Dev) : Prop := UnitRuns (.request x.id) s (settled e t)
    let bodyOk := addr % 64 = 0 ∧ allZero (x.body.drop 8) = true
    (Handed (.request x.id) s x opRequest →
      (¬ bodyOk → ends (d.refuseReq x 0x0120)) ∧
      (∀ e, bodyOk → d.readCtx acc t addr 128 = .error e → e = 0x0320 ∨ e = 0x0321 ∨ e = 0x0327 →
        ends (d.refuseReq x (if d.reqState t ≠ 0 then d.reqState t else 0x0128))) ∧
      (∀ e, bodyOk → d.readCtx acc t addr 128 = .error e → e ≠ 0x0320 → e ≠ 0x0321 → e ≠ 0x0327 →
        ends (d.noteFault acc t e (d.badAt t addr 128))) ∧
      (∀ b e, bodyOk → d.readCtx acc t addr 128 = .ok (b, e) →
        let r := parseReq b
        (r.ok b = false → ends (e.refuseReq x 0x0120)) ∧
        (r.ok b = true → e.reqState t ≠ 0 → ends (e.refuseReq x (e.reqState t))) ∧
        (∀ k, r.ok b = true → e.reqState t = 0 → e.districtOf t = some k →
          (e.reqRanges t r = false → ends (e.refuseReq x 0x0128)) ∧
          (∀ c, e.reqRanges t r = true → e.reqNames k t r = .error c → ends (e.refuseReq x c)) ∧
          (∀ p, e.reqRanges t r = true → e.reqNames k t r = .ok p →
            let w := if r.useHandle then e else e.reads acc t r.promptAddr (4 * r.prompt)
            let a := w.admitOf k t p r
            (w.memFaults ≠ [] → ends w) ∧
            (w.memFaults = [] → w.admitCode t r a ≠ 0 → ends (w.refuseReq x (w.admitCode t r a))) ∧
            (w.memFaults = [] → w.admitCode t r a = 0 → ends (w.takeIn x t r a)))))) ∧
    (Handed (.cancel x.id) s x opCancel →
      let found := (d.reqsOfTenant t).find? fun r => r.desc.id == addr
      (allZero (x.body.drop 8) = false → UnitRuns (.cancel x.id) s (settled (d.refuseReq x 0x0120) t)) ∧
      (allZero (x.body.drop 8) = true → found = none →
        UnitRuns (.cancel x.id) s (settled (d.endOrder x.id 0 (d.hgSource t) true) t)) ∧
      (∀ r, allZero (x.body.drop 8) = true → found = some r →
        let before := r.held.filter fun q => decide (q.mark < x.mark)
        let w := (d.modReq r.num fun r => { r with held := before, finish := none }).flushReq r.num (before.length + 1)
        let e := w.endReq r.num 3 0 0x0210
        UnitRuns (.cancel x.id) s (settled (e.doneOrder x.id (e.hgSource t)) t)))

/-- 09 R226, R227, R232, R236, 10 R243: what Intake does on its own. The next prefill chunk starts on the district's
fields, in a rotation slot on the slot's; a decode step takes the decodable requests that fit INT_DECODE_ROWS, in a slot
the REALTIME ones first; a step whose work is complete commits each request; a stalled request retries its records, and ends with 0x0212 past the stall limit; a
lending decision comes at most every 10 ms. -/
def Obligations.IntakeDispatchesStallsAndLends : Prop :=
  ∀ (s : State) (k at_ : Nat), k < 16 → s.dev.dry = false →
    let d := s.dev
    (d.ready = true →
      (∀ q, d.rtFields k = [] → d.nextChunk k false = some q → d.serveFields k ≠ [] →
        UnitRuns (.prefillChunkDispatch k) s (settled (d.dispatchChunk k q (d.serveFields k)) (1024 + k))) ∧
      (∀ q, d.rtFields k ≠ [] → d.nextChunk k true = some q →
        UnitRuns (.prefillChunkDispatch k) s (settled (d.dispatchChunk k q (d.rtFields k)) (1024 + k))) ∧
      ((d.serve k).step.isSome = true → UnitRuns (.decodeStep k) s (settled d (1024 + k))) ∧
      ((d.serve k).step = none → d.serveFields k ≠ [] → d.rtFields k = [] →
        let l := d.fillStep (d.reg .intDecodeRows k) (d.decodable k false)
        l ≠ [] →
        let e := l.foldl (fun (d : Dev) q => d.modReq q.1.num fun r => { r with
          decodeTag := if r.desc.realtime then r.decodeTag
            else (r.decodeTag + (1 + q.2) * 65536 % 2 ^ 64 / (d.tenant r.tenant).weight) % 2 ^ 64 }) d
        UnitRuns (.decodeStep k) s (settled (e.startDecode k (d.serveFields k) l
          ((List.range 64).filter fun p => l.any fun q => q.1.desc.profile == p)) (1024 + k))) ∧
      ((d.serve k).step = none → d.serveFields k ≠ [] → d.rtFields k ≠ [] →
        let rt := d.fillStep (d.reg .intDecodeRows k) (d.decodable k true)
        let l := rt ++ d.fillStep (d.reg .intDecodeRows k - sumNat (rt.map fun q => 1 + q.2)) (d.decodable k false)
        rt ≠ [] →
        let e := l.foldl (fun (d : Dev) q => d.modReq q.1.num fun r => { r with
          decodeTag := if r.desc.realtime then r.decodeTag
            else (r.decodeTag + (1 + q.2) * 65536 % 2 ^ 64 / (d.tenant r.tenant).weight) % 2 ^ 64 }) d.rtDispatch
        UnitRuns (.decodeStep k) s (settled (e.startDecode k (d.rtFields k) l
          ((List.range 64).filter fun p => l.any fun q => q.1.desc.profile == p)) (1024 + k)))) ∧
    (d.ready = false → Runs (.prefillChunkDispatch k) s d.settleFaults ∧ Runs (.decodeStep k) s d.settleFaults) ∧
    (∀ (w : StepWork) st, (Instr.stepCommit k w).wf = true → (d.serve k).step = some st →
      let e := w.reqs.foldl (fun d r => d.firstToken k r) d
      (e.stepReady st w = false → UnitRuns (.stepCommit k w) s e.pump) ∧
      (e.stepReady st w = true →
      UnitRuns (.stepCommit k w) s (st.reqs.foldl (fun d q => match w.reqs.find? fun r => r.req == q.1 with
          | none => d
          | some r => d.commitReq k r q.2)
        (e.modServe k fun x => { x with step := none, specSteps := sat64 (x.specSteps + 1) })).pump)) ∧
    (∀ r, let e := d.advance at_
      e.req? r.num = some r →
      (r.stallSince.isSome = true → UnitRuns (.outfallRetry r.num at_) s (e.flush r.num).pump) ∧
      (∀ t, r.stallSince = some t → t + 10 ^ 6 * e.reg .intStallLimit r.district < e.eff →
        UnitRuns (.intStallLimit r.num at_) s (e.endReq r.num 3 0 0x0212).pump) ∧
      (∀ t, r.stallSince = some t → e.eff ≤ t + 10 ^ 6 * e.reg .intStallLimit r.district →
        UnitRuns (.intStallLimit r.num at_) s e)) ∧
    (∀ n, let e := d.advance at_
      e.ent? k = some n → n.role = 2 → (e.dist k).state = .active →
      ((e.serve k).lastLend + 10 ^ 7 ≤ e.eff → Runs (.lendingDecision k at_) s (e.lend k n).pump) ∧
      (e.eff < (e.serve k).lastLend + 10 ^ 7 → Runs (.lendingDecision k at_) s e))

/-- 09 R219, R229, R230, 10 R254: LOAD_PROFILES is refused with 0x012C while requests live and with 0x012B for a bad row,
and otherwise takes the table; FLUSH_PREFIXES drops the retained entries; INT_VF_SHARE sets a tenant's share group; the
capture ring's registers are written when no live request captures, and refused and counted otherwise. -/
def Obligations.ServingRegistersLoadFlushShareAndCapture : Prop :=
  ∀ (s : State) (fn k t : Nat) (v : DWord),
    let d := s.dev
    let ends (e : Dev) (code : Nat) : Dev :=
      ((e.modServe k fun x => { x with cmdCode := code }).countCode k code).mgmtDone fn .intCmdDone k
    (HostAble fn (.loadProfiles fn k) s → isPf fn = true → d.isServe k = true →
      let n := d.reg .intProfileCount k
      (d.reqsOf k ≠ [] → Runs (.loadProfiles fn k) s (ends d 0x012C)) ∧
      (∀ c, d.reqsOf k = [] → d.readCtx (d.hgAcc (1024 + k)) (1024 + k) (64 * d.reg .intProfileAddr k) (64 * n) = .error c →
        Runs (.loadProfiles fn k) s (ends d 0x012B)) ∧
      (∀ b e, d.reqsOf k = [] →
        d.readCtx (d.hgAcc (1024 + k)) (1024 + k) (64 * d.reg .intProfileAddr k) (64 * n) = .ok (b, e) →
        let rows := (List.range n).map fun j => (b.drop (64 * j)).take 64
        ((∀ r ∈ rows, (parseProfile r).ok r (e.reg .intParcelStride k) = true) →
          Runs (.loadProfiles fn k) s (ends (e.modServe k fun x => { x with profiles := rows.map parseProfile }) 0)) ∧
        ((∃ r ∈ rows, (parseProfile r).ok r (e.reg .intParcelStride k) = false) →
          Runs (.loadProfiles fn k) s (ends e 0x012B)))) ∧
    (HostAble fn (.flushPrefixes fn k) s → isPf fn = true → d.isServe k = true →
      Runs (.flushPrefixes fn k) s (ends ((d.retained k).foldl (fun d q => d.dropPrefix k q.1) d) 0)) ∧
    (HostAble t (.intVfShare t v) s →
      Runs (.intVfShare t v) s ((d.putReg .intVfShare t (v.toNat % 256)).regroup t)) ∧
    (∀ entries : Bool, Able (.captureRingWrite k entries v) s → d.isServe k = true →
      (((d.reqsOf k).any fun r => r.desc.capture) = true → Runs (.captureRingWrite k entries v) s
        ((d.modServe k fun x => { x with capRefused := sat32 (x.capRefused + 1) }).countOft k 8)) ∧
      (((d.reqsOf k).any fun r => r.desc.capture) = false → Runs (.captureRingWrite k entries v) s
        (((if entries then d.putReg .oftCapEntries k (min 65536 (fld v.toNat 0 17))
           else d.putReg .oftCapAddr k (fld v.toNat 6 58)).putReg .oftCapTail k 0).modServe k fun x =>
            { x with capHead := 0 })))

/-- 10 R249, R250: an Offtake package is checked and its copy begins; at its end the version becomes current and the
earlier one retires; a removal leaves none current. -/
def Obligations.OfftakesInstallSwitchAndRemove : Prop :=
  ∀ (s : State) (x : Order) (k : Nat),
    let d := s.dev
    let t := x.ctx
    let addr := leAt x.body 0 8
    let n := leAt x.body 8 4
    let variant := leAt x.body 0 2
    d.districtOf t = some k →
    (Handed (.offtakeInstall x.id) s x opInstall →
      let ends (e : Dev) : Prop := UnitRuns (.offtakeInstall x.id) s (e.resettle t)
      let acc : Accessor := { d.hgAcc t with order := some x.id }
      (addr % 64 ≠ 0 ∨ allZero (x.body.drop 12) = false → ends (d.refuseOft x 0x0143)) ∧
      (addr % 64 = 0 → allZero (x.body.drop 12) = true → n = 0 → ends (d.endOrder x.id 0 (d.hgSource t) true)) ∧
      (∀ c, addr % 64 = 0 → allZero (x.body.drop 12) = true → n ≠ 0 → d.readCtx acc t addr n = .error c →
        (c = 0x0320 ∨ c = 0x0321 ∨ c = 0x0327 → ends (d.refuseOft x 0x0143)) ∧
        (c ≠ 0x0320 → c ≠ 0x0321 → c ≠ 0x0327 → ends (d.noteFault acc t c (d.badAt t addr n)))) ∧
      (∀ b e, addr % 64 = 0 → allZero (x.body.drop 12) = true → n ≠ 0 → d.readCtx acc t addr n = .ok (b, e) →
        (e.installCode k t b ≠ 0 → ends (e.refuseOft x (e.installCode k t b))) ∧
        (e.installCode k t b = 0 → (e.frames k 65536 (oftBytes b)).2 ≠ 0 → ends (e.refuseOft x 0x0144)) ∧
        (∀ place, e.installCode k t b = 0 → e.frames k 65536 (oftBytes b) = (place, 0) →
          let v : OftVer :=
            { tenant := t, variant := leAt b 6 2, version := leAt b 8 2, base := leAt b 16 16, district := k,
              charge := oftBytes b, place := place, current := false, pins := 0 }
          let w := (e.trafficAll acc place true).writePieces place (b.take (b.length - sigBytes))
          ends ((w.setOftInsts (w.oftInsts ++ [{ order := x.id, ver := v }])).runOrder x.id)))) ∧
    (∀ y : OftInst, Able (.offtakeSwitch x.id) s → d.order? x.id = some x → x.opcode = opInstall → x.phase = .running →
      (d.oftInsts.find? fun z => z.order == x.id) = some y →
      let v := y.ver
      let e := (d.setOftInsts (d.oftInsts.filter fun z => z.order != x.id)).oftEnd v.tenant v.variant
      let w := (e.setOfts (e.ofts ++ [{ v with current := true }])).oftMark v.tenant v.variant
      Runs (.offtakeSwitch x.id) s ((w.doneOrder x.id (w.hgSource v.tenant)).resettle t)) ∧
    (Handed (.offtakeRemove x.id) s x opRemove → allZero (x.body.drop 2) = true →
      (d.oftInsts.any fun z => z.ver.tenant == t && z.ver.variant == variant) = false →
      (d.oftCurrent t variant = none →
        Runs (.offtakeRemove x.id) s ((d.endOrder x.id 0 (d.hgSource t) true).resettle t)) ∧
      (∀ v, d.oftCurrent t variant = some v →
        let w := (d.oftEnd t variant).oftMark t variant
        Runs (.offtakeRemove x.id) s ((w.doneOrder x.id (w.hgSource t)).resettle t)))

/-! ### The Confluence and the Gauge (07, 08) -/

namespace Sys2Proof.Claims
open Sys2Proof.Machine

/-- A CONFLUENCE order stands with its handler, and its descriptor y, with its bytes b, is read: e is the device then (08
R209). -/
def CflRead (i : Instr) (s : State) (x : Order) (k : Nat) (e : Dev) (b : Bytes) : Prop :=
  Handed i s x opConfluence ∧ s.dev.districtOf x.ctx = some k ∧ leAt x.body 0 8 % 64 = 0 ∧
    allZero (x.body.drop 8) = true ∧
    s.dev.readCtx (orderAcc (s.dev.gaugeInst k) x.id) x.ctx (leAt x.body 0 8) 64 = .ok (b, e)

/-- The same, and the descriptor is valid and names tags. -/
def CflOrder (i : Instr) (s : State) (x : Order) (k : Nat) (e : Dev) (y : CflDesc) : Prop :=
  ∃ b, CflRead i s x k e b ∧ y = parseCfl b ∧ e.cflCode x.ctx k y b = 0 ∧ y.tagCount ≠ 0

/-- The contribution that a descriptor makes. -/
def contribOf (x : Order) (y : CflDesc) (ls epoch origin : Nat) : Contrib :=
  { step := y.step, attempt := y.attempt, ls := ls, epoch := epoch, tokens := y.tokens, fmt := y.fmt,
    firstTag := y.firstTag, tagCount := y.tagCount, base := y.base, gate := y.gate, origin := origin, isImport := true,
    fold := false, ctx := x.ctx, o := x.id, tag := x.tag }

end Sys2Proof.Claims

/-- 08 R198, R209, R212 to R214: CONFLUENCE orders. An invalid descriptor is refused, and one of no tags is a NOOP. IMPORT places a contribution, or is refused as
a duplicate (0x0193) or for want of a place (0x0197); FINAL, EXPORT and RING act in AWAIT_FINAL alone (0x0197); FINAL's
LAST finalises; EXPORT and RING process the buckets named, signal their Gate and complete. -/
def Obligations.ConfluenceOrdersImportExportRingAndFinish : Prop :=
  ∀ (s : State) (x : Order) (k : Nat) (e : Dev) (y : CflDesc),
    let src := s.dev.cflSrc k
    let r := (e.cfl k).round
    let key := (y.step, y.attempt)
    (CflOrder (.importPart x.id) s x k e y → y.op = 2 →
      let full := (r.state = .none ∨ keyLt r.key key = true) ∧ some key ≠ (e.cfl k).prev ∧ 16 ≤ (e.cfl k).held.length
      (e.hasImport k y.origin key = true → Runs (.importPart x.id) s (e.failOrder x.id 0x0193 src)) ∧
      (e.hasImport k y.origin key = false → full → Runs (.importPart x.id) s (e.failOrder x.id 0x0197 src)) ∧
      (e.hasImport k y.origin key = false → ¬ full → Runs (.importPart x.id) s
        ((e.placeContrib k (contribOf x y y.ls y.epoch y.origin)).doneOrder x.id src))) ∧
    (CflOrder (.final x.id) s x k e y → y.op = 3 →
      let took := (e.modRound k fun q => { q with parts := q.parts ++ [contribOf x y r.ls r.epoch 0] }).doneOrder x.id src
      (r.state ≠ .awaitFinal ∨ r.key ≠ key → UnitRuns (.final x.id) s (e.failOrder x.id 0x0197 src)) ∧
      (r.state = .awaitFinal → r.key = key → bit y.flags 0 = false → UnitRuns (.final x.id) s took) ∧
      (r.state = .awaitFinal → r.key = key → bit y.flags 0 = true →
        UnitRuns (.final x.id) s (took.finalise k y.tokens).pump)) ∧
    (CflOrder (.exportSum x.id) s x k e y → y.op = 4 →
      (r.state ≠ .awaitFinal → UnitRuns (.exportSum x.id) s (e.failOrder x.id 0x0197 src)) ∧
      (r.state = .awaitFinal →
        let p := (e.descBuckets k y).foldl (fun (a : Dev × Nat) (q : Nat × Bucket) =>
          ((a.1.exportBucket x.id x.ctx y q.2).1, a.2 + (a.1.exportBucket x.id x.ctx y q.2).2)) (e, 0)
        (p.1.memFaults ≠ [] → UnitRuns (.exportSum x.id) s p.1) ∧
        (p.1.memFaults = [] → UnitRuns (.exportSum x.id) s
          (((p.1.cflSummary k 7 x.ctx p.2 (some x.id)).signal y.gate 1 src).doneOrder x.id src)))) ∧
    (CflOrder (.ring x.id) s x k e y → y.op = 5 →
      (r.state ≠ .awaitFinal → UnitRuns (.ring x.id) s (e.failOrder x.id 0x0197 src)) ∧
      (r.state = .awaitFinal →
        let rk : RndKey := { seed := r.seed, step := r.step, attempt := r.attempt }
        let p := (e.descBuckets k y).foldl (fun (a : Dev × List Nat) (q : Nat × Bucket) =>
          ((a.1.ringBucket x.id x.ctx y rk q.2).1, a.2 ++ (a.1.ringBucket x.id x.ctx y rk q.2).2)) (e, [])
        (p.1.memFaults ≠ [] → UnitRuns (.ring x.id) s p.1) ∧
        (p.1.memFaults = [] → UnitRuns (.ring x.id) s
          (((p.1.ringEvents k x.ctx x.id p.2).signal y.gate 1 src).doneOrder x.id src)))) ∧
    (∀ i n b, (i = Instr.importPart x.id ∧ n = 2) ∨ (i = .final x.id ∧ n = 3) ∨ (i = .exportSum x.id ∧ n = 4) ∨
        (i = .ring x.id ∧ n = 5) → CflRead i s x k e b → (parseCfl b).op = n →
      let z := parseCfl b
      let c := e.cflCode x.ctx k z b
      let ends (w : Dev) : Prop := if n = 2 then Runs i s w else UnitRuns i s w
      (c ≠ 0 → ends (e.failOrder x.id c src)) ∧
      (c = 0 → z.tagCount = 0 → ends ((e.cflEmpty x.ctx k z).endOrder x.id 0 src true)))

/-- 08 R197, R199 to R204, R207, R212: a round closes at its deadline, is reduced, and with no LAST FINAL by the limit is
delivered as skipped (0x0602). LOAD_BUCKETS and DROP_PENDING are refused outside a TRAIN district (0x0195), LOAD_BUCKETS
while it is busy or past 4,096 buckets (0x0196) and for a bad table (0x0192); each otherwise takes effect. -/
def Obligations.ConfluenceRoundsCloseReduceAndExpire : Prop :=
  ∀ (s : State) (fn k at_ : Nat), k < 16 → s.dev.dry = false →
    let d := s.dev
    let e := d.advance at_
    let r := (e.cfl k).round
    let ends (d : Dev) (code : Nat) : Dev := (d.modCfl k fun c => { c with cmdCode := code }).mgmtDone fn .cflCmdDone k
    (∀ t, r.deadline = some t → r.state = .admitting →
      (t ≤ e.eff → Runs (.cflDeadline k at_) s (e.closeRound k true).pump) ∧
      (e.eff < t → Runs (.cflDeadline k at_) s e)) ∧
    ((d.cfl k).round.state = .reducing → UnitRuns (.reductionDone k) s (d.reduce k).pump) ∧
    ((d.cfl k).round.state ≠ .reducing → UnitRuns (.reductionDone k) s d) ∧
    (r.state = .awaitFinal → r.finalEnd ≤ e.eff →
      Runs (.cflFinalLimit k at_) s ((e.cflReleaseAll k r.parts).deliver k 0x0602 none).pump) ∧
    (r.state = .awaitFinal → e.eff < r.finalEnd → Runs (.cflFinalLimit k at_) s e) ∧
    (d.deaf fn = false → isPf fn = true →
      let n := d.reg .cflBucketCount k
      let busy := d.liveTrain k = true ∨ (d.cfl k).folds ≠ [] ∨ (d.cfl k).held ≠ []
      let others := sumNat ((List.range 16).map fun j => if j = k then 0 else (d.cfl j).table.length)
      (d.isTrain k = false → Runs (.loadBuckets fn k) s (ends d 0x0195) ∧ Runs (.dropPending fn k) s (ends d 0x0195)) ∧
      (d.isTrain k = true → busy → Runs (.loadBuckets fn k) s (ends d 0x0196)) ∧
      (d.isTrain k = true → ¬ busy → d.bucketTable k (64 * d.reg .cflBucketAddr k) n = none →
        Runs (.loadBuckets fn k) s (ends d 0x0192)) ∧
      (∀ t, d.isTrain k = true → ¬ busy → d.bucketTable k (64 * d.reg .cflBucketAddr k) n = some t →
        (4096 < others + n → Runs (.loadBuckets fn k) s (ends d 0x0196)) ∧
        (others + n ≤ 4096 → Runs (.loadBuckets fn k) s (ends
          ((d.fetchDev (unitAcc (d.gaugeInst k)) (64 * d.reg .cflBucketAddr k) (32 * n)).2.modCfl k fun c =>
            { c with table := t }) 0))) ∧
      (d.isTrain k = true → Runs (.dropPending fn k) s (ends ((((d.cfl k).folds ++ (d.cfl k).held).foldl
        (fun d c => d.dropLate k c) (d.putCfl k { d.cfl k with folds := [], held := [] }))) 0)))

/-- 07 R185, R193: LOAD_TABLE, SET_RING, SET_LS and CLEAR_STREAKS, refused outside a TRAIN district (0x01E4) and while a
TRAIN_STEP is live (0x01E3); LOAD_TABLE past the range (0x01E2), for a bad table (0x01E0) and past 4,096 entries (0x01E1);
SET_RING past its bounds (0x01E2); SET_LS above 127 (0x01E5). -/
def Obligations.GaugeCommandsLoadSetAndClear : Prop :=
  ∀ (s : State) (fn k : Nat), k < 16 → s.dev.dry = false → s.dev.deaf fn = false → isPf fn = true →
    let d := s.dev
    let ends (d : Dev) (code : Nat) : Dev := (d.modGauge k fun g => { g with cmdCode := code }).mgmtDone fn .gauCmdDone k
    let all (p : Instr → Prop) : Prop := p (.loadTable fn k) ∧ p (.setRing fn k) ∧ p (.setLs fn k) ∧ p (.clearStreaks fn k)
    (d.isTrain k = false → all fun i => Runs i s (ends d 0x01E4)) ∧
    (d.isTrain k = true → d.liveTrain k = true → all fun i => Runs i s (ends d 0x01E3)) ∧
    (d.isTrain k = true → d.liveTrain k = false →
      (let a := 64 * d.reg .gauTableAddr k
       let n := d.reg .gauTableCount k
       (n ≠ 0 → d.ownRange k a (8 * n) = false → Runs (.loadTable fn k) s (ends d 0x01E2)) ∧
       (n = 0 ∨ d.ownRange k a (8 * n) = true → parseWatch (d.readDev a (8 * n)) n = none →
         Runs (.loadTable fn k) s (ends d 0x01E0)) ∧
       (∀ t, n = 0 ∨ d.ownRange k a (8 * n) = true → parseWatch (d.readDev a (8 * n)) n = some t →
         (4096 < d.watchOthers k + n → Runs (.loadTable fn k) s (ends d 0x01E1)) ∧
         (d.watchOthers k + n ≤ 4096 →
           Runs (.loadTable fn k) s (ends ((d.fetchDev (unitAcc (d.gaugeInst k)) a (8 * n)).2.modGauge k fun g =>
             { g with table := t }) 0)))) ∧
      (let a := 64 * d.reg .gauRingAddr k
       let n := d.reg .gauRingEntries k
       let ok := 1 ≤ n ∧ n ≤ 65536 ∧ d.ownRange k a (64 * n) = true
       (¬ ok → Runs (.setRing fn k) s (ends d 0x01E2)) ∧
       (ok → Runs (.setRing fn k) s (ends ((d.putReg .gauRingTail k 0).modGauge k fun g =>
         { g with ringAddr := a, ringEntries := n, head := 0 }) 0))) ∧
      (127 < d.reg .gauLsSetLs k → Runs (.setLs fn k) s (ends d 0x01E5)) ∧
      (d.reg .gauLsSetLs k ≤ 127 → Runs (.setLs fn k) s (ends (d.modGauge k fun g =>
        { g with ls := d.reg .gauLsSetLs k, attempt := d.reg .gauLsSetAttempt k, clean := 0 }) 0)) ∧
      Runs (.clearStreaks fn k) s
        (ends (d.modGauge k fun g => { g with table := g.table.map fun w => { w with streak := 0 } }) 0))

/-! ### The survey unit (02) -/

/-- 02 R51, R53, R55, R425: the commands of SRV_CMD. One command runs at a time; STAGE reads and verifies, INITIAL commits,
RESURVEY drains, STORE_DEFAULT writes the flash, DISCARD drops, RAISE_FLOOR raises the floor. -/
def Obligations.SurveyCommandsStageCommitAndDrain : Prop :=
  ∀ (s : State) (port k : Nat) (flash : Bool), port < 2 → k < 16 → s.dev.dry = false → s.dev.deaf (pf port) = false →
    let d := s.dev
    let fn := pf port
    let own := d.ownImage port
    let all (p : Instr → Nat → Prop) : Prop := p (.stage fn) 1 ∧ p (.initial fn) 2 ∧ p (.resurvey fn k) 3 ∧
      p (.storeDefault fn) 4 ∧ p (.discard fn) 5 ∧ p (.raiseFloor fn flash) 6
    (d.survey.cmd.isSome = true ∨ d.ready = false → all fun i op => Runs i s (d.srvEnd port op 0x0188)) ∧
    (d.survey.cmd = none → d.ready = true →
      (d.survey.staged.isSome = true → own = none → Runs (.stage fn) s (d.srvEnd port 1 0x0188).pump) ∧
      (d.survey.staged = none ∨ own.isSome = true → Runs (.stage fn) s
        (d.setSurvey { d.survey with staged := none, state := .verifying, cmd := some (port, 1, d.reg .srvImageLen port) }).pump) ∧
      (own = none → Runs (.initial fn) s (d.srvEnd port 2 0x0187).pump ∧
        Runs (.resurvey fn k) s (d.srvEnd port 3 0x0187).pump ∧ Runs (.storeDefault fn) s (d.srvEnd port 4 0x0187).pump ∧
        Runs (.discard fn) s (d.srvEnd port 5 0x0187).pump) ∧
      (∀ i bs, own = some (i, bs) →
        ((∃ j, j < 16 ∧ (d.dist j).state ≠ .absent) → Runs (.initial fn) s (d.srvEnd port 2 0x0189).pump) ∧
        ((∀ j, j < 16 → (d.dist j).state = .absent) → d.judgeCode bs true none ≠ 0 →
          Runs (.initial fn) s (d.srvEnd port 2 (d.judgeCode bs true none)).pump) ∧
        ((∀ j, j < 16 → (d.dist j).state = .absent) → d.judgeCode bs true none = 0 →
          Runs (.initial fn) s ((d.commitAll bs).dropStaged.srvEnd port 2 0).pump) ∧
        (d.judgeCode bs true (some k) ≠ 0 →
          Runs (.resurvey fn k) s (d.srvEnd port 3 (d.judgeCode bs true (some k))).pump) ∧
        (d.judgeCode bs true (some k) = 0 →
          let e := d.modDist k fun x => { x with state := .draining }
          Runs (.resurvey fn k) s (e.setSurvey
            { d.survey with state := .draining, cmd := some (port, 3, k), drainStart := d.eff, target := bs }).drainCheck.pump) ∧
        (d.judgeCode bs false none ≠ 0 →
          Runs (.storeDefault fn) s (d.srvEnd port 4 (d.judgeCode bs false none)).pump) ∧
        (d.judgeCode bs false none = 0 → Runs (.storeDefault fn) s
          ((d.setSec { d.sec with flash := { d.sec.flash with image := bs } }).dropStaged.srvEnd port 4 0).pump) ∧
        Runs (.discard fn) s (d.dropStaged.srvEnd port 5 0).pump) ∧
      (d.survey.committedSerial ≤ d.sec.flash.surveyFloor → Runs (.raiseFloor fn flash) s (d.srvEnd port 6 0).pump) ∧
      (d.sec.flash.surveyFloor < d.survey.committedSerial →
        (flash = false → Runs (.raiseFloor fn flash) s (d.srvEnd port 6 0x050A).pump) ∧
        (flash = true → Runs (.raiseFloor fn flash) s ((d.setSec { d.sec with
          flash := { d.sec.flash with surveyFloor := d.survey.committedSerial } }).srvEnd port 6 0).pump)))

/-- 02 R38, R51, R53, R425: the image that STAGE reads, of the length that the register held when the command was accepted,
is verified and staged; the drain limit stops the work of a draining
district; the end of APPLYING commits the target. -/
def Obligations.SurveyReadsDrainsAndApplies : Prop :=
  ∀ (s : State) (port k at_ : Nat) (bytes : Bytes), s.dev.dry = false →
    let d := s.dev
    let e := d.advance at_
    (∀ len, d.survey.cmd = some (port, 1, len) →
      let bs := bytes.take len
      let c := d.verifyImage bs (some len) false
      (c = 0 → Runs (.surveyImageRead bytes) s
        ((d.setSurvey { d.survey with
          staged := some (pf port, parseImage bs, bs), cmd := none, state := .staged }).srvEnd port 1 0)) ∧
      (c ≠ 0 → c ≠ 0x0503 → c ≠ 0x0504 → Runs (.surveyImageRead bytes) s
        ((d.setSurvey { d.survey with staged := none, cmd := none, state := .idle }).srvEnd port 1 c)) ∧
      (c = 0x0503 ∨ c = 0x0504 → Runs (.surveyImageRead bytes) s
        (((d.setSec { d.sec with verifyFail := sat32 (d.sec.verifyFail + 1) }).setSurvey
          { d.survey with staged := none, cmd := none, state := .idle }).srvEnd port 1 c)) ∧
      (Runs (.pcieCplTimeout .image) s ((d.setSurvey d.survey.rest).srvEnd port 1 0x0404)) ∧
      (Runs (.pcieCplError .image) s ((d.setSurvey d.survey.rest).srvEnd port 1 0x0405))) ∧
    (∀ op, e.survey.state = .draining → e.survey.cmd = some (port, op, k) →
      (e.survey.drainStart + 1000000 * e.reg .srvDrainLimit port ≤ e.eff →
        Runs (.srvDrainLimit at_) s (e.drainStop k).pump) ∧
      (e.eff < e.survey.drainStart + 1000000 * e.reg .srvDrainLimit port → Runs (.srvDrainLimit at_) s e)) ∧
    (∀ op, d.ready = true → d.survey.state = .applying → d.survey.cmd = some (port, op, k) →
      let x := d.commitOne k d.survey.target
      Runs .applyDone s ((x.setSurvey { x.survey with target := [] }).dropStaged.srvEnd port 3 0).pump)

/-! ### The Security block (15) -/

/-- 15 R346, R351, R354, R356, R357, R359: one command a function; what a virtual function may not do; the floors, the
system epoch, the policy and the owner reach the flash, and a flash write that fails ends the command with 0x050A; an
ATTEST or a READ_CERTS joins the queue, which is served in its order. -/
def Obligations.SecurityCommandsAttestInstallAndRotate : Prop :=
  ∀ (s : State) (fn k : Nat) (flash : Bool) (bytes : Bytes), fn < 1026 → k < 16 → s.dev.dry = false →
    s.dev.deaf fn = false →
    let d := s.dev
    let idle := d.secRunning fn = 0
    let queued (op : Nat) : Dev :=
      d.modSec fun x => { x with running := Tbl.set 0 x.running fn op, waiting := x.waiting ++ [fn] }
    (d.secRunning fn ≠ 0 →
      Runs (.attest fn flash) s (d.secCode fn 0x050B) ∧ Runs (.readCerts fn) s (d.secCode fn 0x050B) ∧
      Runs (.raiseFwFloor fn flash) s (d.secCode fn 0x050B) ∧ Runs (.rotateSystem fn k flash) s (d.secCode fn 0x050B)) ∧
    (idle → d.sec.identityOk = false →
      Runs (.attest fn flash) s (d.secEnd fn 0x0501) ∧ Runs (.readCerts fn) s (d.secEnd fn 0x0501)) ∧
    (idle → d.sec.identityOk = true →
      Runs (.attest fn flash) s ((queued 1).secServe flash (d.sec.waiting.length + 1)) ∧
      Runs (.readCerts fn) s ((queued 2).secServe true (d.sec.waiting.length + 1))) ∧
    (idle → isPf fn = false →
      Runs (.installPolicy fn bytes flash) s (d.secEnd fn 0x0104) ∧
      Runs (.transferOwner fn bytes flash) s (d.secEnd fn 0x0104) ∧ Runs (.raiseFwFloor fn flash) s (d.secEnd fn 0x0104) ∧
      Runs (.rotateSystem fn k flash) s (d.secEnd fn 0x0104)) ∧
    (idle → isPf fn = true → d.surveyHeld = true →
      Runs (.installPolicy fn bytes flash) s (d.secEnd fn 0x050B) ∧
      Runs (.transferOwner fn bytes flash) s (d.secEnd fn 0x050B)) ∧
    (idle → isPf fn = true → d.surveyHeld = false → d.reg .secInLen fn = 0 →
      Runs (.installPolicy fn bytes flash) s (d.secEnd fn 0x0500) ∧
      Runs (.transferOwner fn bytes flash) s (d.secEnd fn 0x0500)) ∧
    (∀ e op, (d.secRunning fn = op ∧ op ≠ 0 ∧ e = d) ∨ (idle ∧ isPf fn = true ∧ d.surveyHeld = false ∧
        d.reg .secInLen fn ≠ 0 ∧ e = d.modSec fun x => { x with
          running := Tbl.set 0 x.running fn op, inLen := Tbl.set 0 x.inLen fn (d.reg .secInLen fn) }) →
      let bs := bytes.take (Tbl.get 0 e.sec.inLen fn)
      let c := policyCode bs d.sec.flash.ownerDigest fun n => decide (d.sec.flash.policySerial < n)
      (op = 3 →
        (c ≠ 0 → Runs (.installPolicy fn bytes flash) s (e.verifyFailed.secEnd fn c)) ∧
        (c = 0 → flash = false → Runs (.installPolicy fn bytes flash) s (e.secEnd fn 0x050A)) ∧
        (c = 0 → flash = true → Runs (.installPolicy fn bytes flash) s ((e.takePolicy bs).secEnd fn 0))) ∧
      (op = 4 →
        let o := bs.take (160 + sigBytes)
        let p := bs.drop (160 + sigBytes)
        let c2 := policyCode p (cutAt o 32 32) fun n => decide (d.sec.flash.policySerial < n)
        (d.ownerCode o ≠ 0 → Runs (.transferOwner fn bytes flash) s (e.verifyFailed.secEnd fn (d.ownerCode o))) ∧
        (d.ownerCode o = 0 → c2 ≠ 0 → Runs (.transferOwner fn bytes flash) s (e.verifyFailed.secEnd fn c2)) ∧
        (d.ownerCode o = 0 → c2 = 0 → flash = false → Runs (.transferOwner fn bytes flash) s (e.secEnd fn 0x050A)) ∧
        (d.ownerCode o = 0 → c2 = 0 → flash = true → Runs (.transferOwner fn bytes flash) s
          (((e.modFlash fun f => { f with ownerDigest := cutAt o 32 32, ownerSerial := leAt o 8 8 }).takePolicy p).secEnd
            fn 0)))) ∧
    (d.secRunning fn ≠ 0 →
      (d.secRunning fn ≠ 3 → Runs (.installPolicy fn bytes flash) s (d.secCode fn 0x050B)) ∧
      (d.secRunning fn ≠ 4 → Runs (.transferOwner fn bytes flash) s (d.secCode fn 0x050B))) ∧
    (idle → isPf fn = true →
      (flash = false → Runs (.raiseFwFloor fn flash) s (d.secEnd fn 0x050A)) ∧
      (flash = true → Runs (.raiseFwFloor fn flash) s ((d.modFlash fun f => { f with
        lkkFloor := max f.lkkFloor d.lkk.svn, hgFloor := max f.hgFloor d.lkk.hgSvn }).secEnd fn 0)) ∧
      ((d.dist k).state ≠ .absent → Runs (.rotateSystem fn k flash) s (d.secEnd fn 0x050B)) ∧
      ((d.dist k).state = .absent → flash = false → Runs (.rotateSystem fn k flash) s (d.secEnd fn 0x050A)) ∧
      ((d.dist k).state = .absent → flash = true → Runs (.rotateSystem fn k flash) s ((d.modFlash fun f => { f with
        sysEpoch := f.sysEpoch.set k ((nth 0 f.sysEpoch k + 1) % 2 ^ 32) }).secEnd fn 0))) ∧
    (d.sec.akRoot = 1 → Runs .akRootReady s
      ((d.modSec fun x => { x with akRoot := 2 }).secServe true d.sec.waiting.length)) ∧
    (d.sec.akRoot ≠ 1 → Leaves .akRootReady s)

/-! ### Power, the Allotment and the time base (16) -/

/-- 16 R360, R361: the power stage feeds from the input in range, A before B; it returns to A after 100 ms; with neither
in range the Silt record is copied and the module powers off. -/
def Obligations.PowerStageSwitchesReturnsAndFails : Prop :=
  ∀ (s : State) (mvA mvB at_ fn : Nat) (v : Word),
    let d := s.dev
    let e := d.advance at_
    let ok (mv : Nat) : Prop := 4000 ≤ mv ∧ mv ≤ 6000
    (d.power.source = 1 → ¬ ok mvA → ok mvB →
      Runs (.supplySwitch mvA mvB) s ((d.setPower { d.power with mv := [mvA, mvB] }).switchTo 2)) ∧
    (d.power.source = 2 → ¬ ok mvB → ok mvA →
      Runs (.supplySwitch mvA mvB) s ((d.setPower { d.power with mv := [mvA, mvB] }).switchTo 1)) ∧
    (∀ t, e.power.source = 2 → e.power.backSince = some t →
      (t + 10 ^ 8 ≤ e.time.osc → Runs (.supplyReturn at_) s (e.switchTo 1)) ∧
      (e.time.osc < t + 10 ^ 8 → Runs (.supplyReturn at_) s e)) ∧
    (d.power.source ≠ 0 → ¬ ok mvA → ¬ ok mvB → Runs (.supplyLoss mvA mvB) s
      ((((d.setPower { d.power with mv := [mvA, mvB] }).siltAt srcWeir 0x0004 0 0 0 0xFFFF (pack16 [mvA, mvB])
        true).copyAll).lostPower)) ∧
    (d.power.source = 2 → ok mvA → Runs (.inputInRange 0 mvA) s
      (d.setPower { d.power with
        mv := d.power.mv.set 0 mvA, backSince := some (d.power.backSince.getD d.time.osc) })) ∧
    (d.power.source = 1 → Runs (.inputInRange 1 mvB) s (d.setPower { d.power with mv := d.power.mv.set 1 mvB })) ∧
    (HostAble fn (.pwrRating fn v) s → isPf fn = true → Runs (.pwrRating fn v) s
      ((d.writeField .pwrRatingB 0 (v.toNat / 2 ^ 16 % 2 ^ 16)).writeField .pwrRatingA 0
        (v.toNat % 2 ^ 16)).limitNow)

/-- 16 R362, R363, R366 to R369: windows, the wait for a grant, charges, and the droop guard. -/
def Obligations.AllotmentWindowsWaitsChargesAndDroop : Prop :=
  ∀ (s : State) (wA wB at_ f sl uj : Nat), f < 16 → sl < 4 → s.dev.dry = false →
    let d := s.dev
    let e := d.advance at_
    let x := e.power
    (e.time.cnt / 10 ^ 7 ≠ x.window → x.acts = [] →
      let y := e.setPower { x with
        window := e.time.cnt / 10 ^ 7, watts := [wA, wB], input := wA + wB, base := wA + wB - x.windowField / 10000
        windowField := 0, overs := if x.windowLimit < wA + wB then sat32 (x.overs + 1) else x.overs
        windowLimit := e.limitW }
      Runs (.allotmentWindow wA wB at_) s (y.setPower { y.power with floorShort := y.floorShort }).pump) ∧
    (e.time.cnt / 10 ^ 7 = x.window → Runs (.allotmentWindow wA wB at_) s e) ∧
    (∀ w, (x.waiting.find? fun q => q.field == f && q.slot == sl) = some w →
      (w.since + 10 ^ 6 * e.reg .altGrantLimit 0 ≤ e.eff → Runs (.altGrantLimit f sl at_) s
        ((e.setPower { x with waiting := x.waiting.filter fun q => !(q.field == f && q.slot == sl) }).stopProg f sl 0x0171
          .programEnd).pump) ∧
      (e.eff < w.since + 10 ^ 6 * e.reg .altGrantLimit 0 → Runs (.altGrantLimit f sl at_) s e)) ∧
    (∀ p, d.prog f sl = some p → (d.field f).held = false →
      let y := d.setPower { d.power with windowField := d.power.windowField + uj }
      Runs (.chargePost (.slot f sl uj)) s
        (((y.setPower { y.power with fieldUj := addAt y.power.fieldUj p.district uj }).chargeGrant p.district f sl
          uj).chargeProg p uj)) ∧
    (Runs (.chargePost (.device uj)) s (d.setPower { d.power with device := d.power.device + uj })) ∧
    (∀ k, k < 16 → Runs (.chargePost (.memory k uj)) s
      (d.setPower { d.power with mem := d.power.mem.set k (nth 0 d.power.mem k + uj) })) ∧
    (let z := d.accountField f
     ((d.field f).droopHalf = false → Runs (.droopEngage f) s
       (z.putField f { z.field f with droopHalf := true, droops := sat32 ((z.field f).droops + 1) })) ∧
     ((d.field f).droopHalf = true → Leaves (.droopEngage f) s) ∧
     (Runs (.droopRestore f) s (z.putField f { z.field f with droopHalf := false })))

/-- 16 R372, R374 to R376, 13 R312: TIM_SET, the edges of TIME_PPS with their drift and slew, holdover, and the held step. -/
def Obligations.TimeBaseSetsFollowsAndHolds : Prop :=
  ∀ (s : State) (at_ fn : Nat) (v : DWord) (present : Bool),
    let d := s.dev
    let e := d.advance at_
    let t := e.time
    (HostAble fn (.timSet fn v) s → isPf fn = true →
      (d.reg .timSetAtPps 0 = 1 → Runs (.timSet fn v) s
        (d.setTime { d.time with pendingSet := some v.toNat }).pump) ∧
      (d.reg .timSetAtPps 0 ≠ 1 → d.time.epochSet = true → v.toNat + 10 ^ 9 < d.time.cnt →
        Runs (.timSet fn v) s (d.putReg .timSetIgnored 0 1).pump) ∧
      (d.reg .timSetAtPps 0 ≠ 1 → d.time.epochSet = false ∨ d.time.cnt ≤ v.toNat + 10 ^ 9 →
        let c := d.time.cnt
        let y := ((d.setTime { d.time with epochSet := true }).putReg .timStepFrom 0 c).putReg .timStepTo 0 v.toNat
        Runs (.timSet fn v) s ((y.setTime { y.time with
          steps := sat32 (y.time.steps + 1), cnt := max c v.toNat, frac := if c ≤ v.toNat then 0 else d.time.frac
          hold := if c ≤ v.toNat then none else some (v.toNat, 0) }).silt2 srcTime 0x0005 c v.toNat).pump)) ∧
    (e.reg .timPpsEn 0 ≠ 1 → Runs (.ppsEdge at_) s e) ∧
    (e.reg .timPpsEn 0 = 1 → t.pendingSet = none →
      let c : Int := (t.cnt : Int) - e.reg .timPpsDelay 0
      let err := c - nearestSecond c
      (∀ l, t.last = some l → c - l < 500000000 →
        Runs (.ppsEdge at_) s (e.setTime { t with ppsIgnored := sat32 (t.ppsIgnored + 1) }).timeMoved) ∧
      ((∀ l, t.last = some l → 500000000 ≤ c - l) → -1000000 ≤ err → err ≤ 1000000 →
        Runs (.ppsEdge at_) s (Dev.timeMoved <| e.setTime { t with
          ppsCount := sat32 (t.ppsCount + 1), lastAcceptOsc := t.osc, holdover := false, last := some c, err := err
          goodEdges := if -1000 ≤ err ∧ err ≤ 1000 then min 3 (t.goodEdges + 1) else 0
          drift := t.drift + err / 8, slew := max (-500000) (min 500000 (-(t.drift + err / 8 + err))) }))) ∧
    (t.lastAcceptOsc + 2500000000 ≤ t.osc →
      Runs (.holdover at_) s (e.setTime { t with holdover := true, slew := -t.drift })) ∧
    (t.osc < t.lastAcceptOsc + 2500000000 → Runs (.holdover at_) s e) ∧
    Runs (.stepHoldEnd at_) s e ∧
    Runs (.ref10mhz present) s (d.setTime { d.time with refPresent := present })

/-! ### Start-up and resets (15, 16, 17) -/

/-- 16 R377, 15 R344, R350: the stages of start-up, each in its turn, from the first supply in range to READY. -/
def Obligations.StartUpStagesRunInOrder : Prop :=
  ∀ (s : State) (at_ mvA mvB dev variant : Nat) (b0 b1 : Bytes) (ok flash : Bool),
    let d := s.dev
    let f := d.sec.flash
    let e := d.advance at_
    let lkkImage (i : Nat) : Bytes := slotImage f.lkkSlots i (if i = 0 then b0 else b1)
    let lkkPick := d.bootSlot 1 f.activeLkk lkkImage
    let lkkSeen := lkkPick.2.modFlash fun f => { f with lkkSlots := [some (lkkImage 0), some (lkkImage 1)] }
    let hgImage (i : Nat) : Bytes := slotImage f.hgSlots i (if i = 0 then b0 else b1)
    let hgPick := d.bootSlot 2 f.activeHg hgImage
    let hgSeen := hgPick.2.modFlash fun f => { f with hgSlots := [some (hgImage 0), some (hgImage 1)] }
    (d.startup.stage = 0 → Runs (.coldReset at_) s
      (e.lostPower.setStartup { e.lostPower.startup with stage := 1, t0 := e.time.osc })) ∧
    (d.startup.stage = 1 → sourceOf mvA mvB ≠ 0 → Runs (.powerGood mvA mvB) s
      ((((d.setPower { d.power with mv := [mvA, mvB], source := sourceOf mvA mvB }).setTime
        { d.time with cnt := 0, frac := 0, lastAcceptOsc := d.time.osc }).inStage 3).siltEv srcWeir 0x0001 0 0 0 1)) ∧
    (Able (.lkkBoot b0 b1 variant) s → d.startup.stage = 3 →
      (lkkPick.1 = none → Runs (.lkkBoot b0 b1 variant) s
        ((lkkSeen.setStartup { lkkSeen.startup with variant := variant }).fatal srcLkk 0x0025 0x0502 0 0 0)) ∧
      (∀ i b, lkkPick.1 = some (i, b) →
        let y := ((lkkSeen.lkkRuns i b).setGen .lkkBoot srcLkk).fillGen variant
        (y.startup.warm = false → Runs (.lkkBoot b0 b1 variant) s
          ((y.setCanal { y.canal with aqStatus := [1, 1, 1, 1] }).inStage 4)) ∧
        (y.startup.warm = true → Runs (.lkkBoot b0 b1 variant) s y.toTraining))) ∧
    (Able (.lkkBoot b0 b1 variant) s → d.startup.stage ≠ 3 →
      (d.startup.gen = .recovery → d.lkk.state = 0 →
        (lkkPick.1 = none → Runs (.lkkBoot b0 b1 variant) s (lkkSeen.fatal srcLkk 0x0025 0x0502 0 0 0)) ∧
        (∀ i b, lkkPick.1 = some (i, b) → Runs (.lkkBoot b0 b1 variant) s (lkkSeen.lkkRuns i b))) ∧
      (d.startup.gen ≠ .recovery ∨ d.lkk.state ≠ 0 → Leaves (.lkkBoot b0 b1 variant) s)) ∧
    (Able (.identity ok flash) s → d.startup.stage = 4 →
      (ok = false → Runs (.identity ok flash) s (d.fatal srcSec 0x0024 0x0501 0 0 0)) ∧
      (ok = true → flash = false → Runs (.identity ok flash) s (d.fatal srcSec 0x0024 0x050A 0 0 0)) ∧
      (ok = true → flash = true → Runs (.identity ok flash) s ((d.modSec fun x => { x with
        identityOk := true, ikNext := x.flash.ikReserved, akNext := x.flash.akReserved
        akCert := akCertBody x.flash.akGen ++ Config.akCertSig x.flash.akGen }).loadPolicy.toTraining))) ∧
    (Able (.memTrain dev ok) s → (d.memDev dev).state = .training →
      (ok = true → Runs (.memTrain dev ok) s (((d.putMemDev dev { d.memDev dev with
        state := .unowned, refresh := false }).available kDevice dev true).trainCheck)) ∧
      (ok = false → Runs (.memTrain dev ok) s ((d.fenceFree kDevice dev srcLkk).trainCheck))) ∧
    (d.dry = false → d.startup.stage = 7 → Runs .surveyLoad s ((d.loadDefault.inStage 8).setGen .headgateLoad srcLkk)) ∧
    (Able (.headgateLoad b0 b1) s → d.startup.stage = 8 →
      (hgPick.1 = none → Runs (.headgateLoad b0 b1) s (hgSeen.fatal srcLkk 0x0025 0x0502 0 0 0)) ∧
      (∀ i b, hgPick.1 = some (i, b) →
        let y := hgSeen.modSec fun x => { x with hgDigest := fwDigest b, flash := { x.flash with activeHg := i } }
        Runs (.headgateLoad b0 b1) s ((y.setLkk { y.lkk with hgSvn := fwSvn b }).toReady))) ∧
    (∀ stg, Able (.stageLimit stg at_) s → e.startup.stage = stg →
      let due := e.startup.t0 + 10 ^ 6 * stageMs e.startup.warm stg ≤ e.time.osc
      (¬ due → Runs (.stageLimit stg at_) s e) ∧
      (due → stg = 1 → Runs (.stageLimit stg at_) s (e.inStage 0)) ∧
      (due → stg = 3 ∨ stg = 8 → Runs (.stageLimit stg at_) s (e.fatal srcLkk 0x0025 0x0502 0 0 0)) ∧
      (due → stg = 4 → Runs (.stageLimit stg at_) s (e.fatal srcSec 0x0024 0x0501 0 0 0)) ∧
      (due → stg = 6 → Runs (.stageLimit stg at_) s e.toSurvey) ∧
      (due → stg = 7 → Runs (.stageLimit stg at_) s (e.commitDefault none).toHeadgates))

/-- 15 R349 to R351: the ROM runs the active slot if its image passes, else the other one if that passes, and counts each
image that fails; an image that passes has the form of its kind, a root key that is not revoked and whose digest is the
fused one, a signature that verifies, and an SVN not below the floor. -/
def Obligations.FirmwareSlotsRunOnlyWhatPasses : Prop :=
  (∀ (d : Dev) (kind active : Nat) (image : Nat → Bytes), active < 2 →
    let passes (i : Nat) : Prop := d.firmwareCode kind (image i) = 0
    (passes active → d.bootSlot kind active image = (some (active, image active), d)) ∧
    (¬ passes active → passes (1 - active) →
      d.bootSlot kind active image = (some (1 - active, image (1 - active)), d.verifyFailed)) ∧
    (¬ passes active → ¬ passes (1 - active) → d.bootSlot kind active image = (none, d.verifyFailed.verifyFailed))) ∧
  (∀ (d : Dev) (kind : Nat) (image : Bytes), kind = 1 ∨ kind = 2 →
    (d.firmwareCode kind image = 0 ↔
      firmwareForm kind image = true ∧ bit d.sec.flash.revoke (leAt image 7 1) = false ∧
      shake256 (cutAt image 32 68) 32 = Config.rootDigest (leAt image 7 1) ∧ signedBy (cutAt image 32 68) image = true ∧
      (if kind = 1 then d.sec.flash.lkkFloor else d.sec.flash.hgFloor) ≤ leAt image 8 4))

/-- 17 R398, 18 R415: WARM restarts the device from READY and is otherwise ignored and counted; FULL copies the Silt
record and restarts the module, in Dry as well, and so does the pin once a low of 10 ms is measured, in which a high shorter
than 1 ms counts as low and which begins with a low of 1 ms or longer. -/
def Obligations.WarmAndFullResetsRestartTheModule : Prop :=
  ∀ (s : State) (port at_ lo hi : Nat) (wave : List (Nat × Nat)), port < 2 →
    let d := s.dev
    let e := d.advance at_
    let gone (d : Dev) : Dev :=
      let c := d.siltCopyFree.copyAll
      let l := c.lostPower
      let y := (l.setPower { l.power with source := c.power.source }).setStartup
        { l.startup with stage := 3, t0 := c.time.osc }
      (y.setTime { y.time with lastAcceptOsc := c.time.osc }).siltEv srcWeir 0x0001 0 0 0 3
    (d.deaf (pf port) = false →
      (d.ready = true → Runs (.warm (pf port)) s ((d.endAllWork.warmUnits.parentPins.retireOfts).siltEv srcLkk 0x0001 0 0 0
        2 |> fun y => y.setStartup
          { Startup.init with stage := 3, t0 := y.time.osc, warm := true, variant := y.startup.variant })) ∧
      (d.ready = false → Runs (.warm (pf port)) s
        (d.setLkk { d.lkk with resetIgnored := sat32 (d.lkk.resetIgnored + 1) })) ∧
      (3 ≤ d.startup.stage → Runs (.full (pf port)) s (gone d))) ∧
    (3 ≤ e.startup.stage → resetAsked none wave = true → Runs (.fullResetN ⟨wave, at_⟩) s (gone e)) ∧
    (e.startup.stage < 3 ∨ resetAsked none wave = false → Runs (.fullResetN ⟨wave, at_⟩) s e) ∧
    resetAsked none [] = false ∧
    (10000000 ≤ lo → resetAsked none ((lo, hi) :: wave) = true) ∧
    (lo < 1000000 → resetAsked none ((lo, hi) :: wave) = resetAsked none wave) ∧
    (1000000 ≤ lo → lo < 10000000 → 1000000 ≤ hi → resetAsked none ((lo, hi) :: wave) = resetAsked none wave) ∧
    (1000000 ≤ lo → lo < 10000000 → hi < 1000000 → ∀ lo' hi', 10000000 ≤ lo + hi + lo' →
      resetAsked none ((lo, hi) :: (lo', hi') :: wave) = true)


/-! ### The cores (04, 12) -/

namespace Sys2Proof.Claims

/-- The control instructions of a core, with their opcodes (04 Table 4-5). -/
def controlTable (core : Nat) : List (Instr × Nat) :=
  [(.nop core, 0x00), (.endInst core, 0x01), (.loop core, 0x02), (.setp core, 0x03), (.addp core, 0x04),
   (.waitg core, 0x05), (.sigg core, 0x06), (.fence core, 0x07), (.sett core, 0x08), (.sete core, 0x09),
   (.sets core, 0x0A), (.dma core, 0x0B), (.dmaw core, 0x0C)]

/-- The tile instructions: opcode, engine class (04 R91), and what each computes. -/
def tileTable (d : Dev) (core : Nat) (merges : List OftMerge) : List (Instr × Nat × Nat × (Env → Nat → Res)) :=
  [(.tload ⟨core, merges⟩, 0x10, 1, tload (d.deltas core merges)), (.tstore core, 0x11, 2, tstore), (.accld core, 0x12, 1, accld),
   (.trans core, 0x13, 4, trans), (.sound core, 0x14, 4, sound), (.mma core, 0x20, 0, mma false true true),
   (.mmaa core, 0x21, 0, mma false true false), (.mmab core, 0x22, 0, mma false false true),
   (.bgrad core, 0x23, 0, bgrad false), (.bgradf core, 0x24, 0, bgrad true), (.imma core, 0x25, 0, mma true true true)]

/-- The vector instructions. -/
def vectorTable (core : Nat) : List (Instr × Nat × Nat × (Env → Nat → Res)) :=
  [(.cvt core, 0x30, 3, conversion false true plainSrc plainDst), (.enc core, 0x31, 3, conversion true true plainSrc Fmt.isBlock),
   (.dec core, 0x32, 3, conversion true false Fmt.isBlock decDst),
   (.vadd core, 0x40, 3, vec2 fun st a b => finish32 st (Val.add a b)),
   (.vsub core, 0x41, 3, vec2 fun st a b => finish32 st (Val.add a (Val.neg b))),
   (.vmul core, 0x42, 3, vec2 fun st a b => finish32 st (Val.mul a b)),
   (.vfma core, 0x43, 3, vec3 fun st a b c => finish32 st (Val.add (Val.mul a b) c)), (.vscale core, 0x44, 3, vscale),
   (.vdiv core, 0x45, 3, vec2 fun st a b => finish32 st (Val.div a b)),
   (.vsqrt core, 0x46, 3, vec1 fun st a => finish32 st (Val.sqrt a)),
   (.vrcp core, 0x47, 3, vec1 fun st a => finish32 st (Val.div (.fin false 1 0) a)),
   (.vrsqrt core, 0x48, 3, vec1 fun st a => finish32 st a.rsqrt),
   (.vexp2 core, 0x49, 3, vec1 fun st a => finish32 st (Val.exp2 a)),
   (.vlog2 core, 0x4A, 3, vec1 fun st a => finish32 st (Val.log2 a)),
   (.vmax core, 0x4B, 3, vec2 fun _ a b => plain32 (Val.max a b)),
   (.vmin core, 0x4C, 3, vec2 fun _ a b => plain32 (Val.min a b)),
   (.vgt core, 0x4D, 3, vec2 fun _ a b => (if Val.gt a b then 0x3F800000 else 0, [])),
   (.vsel core, 0x4E, 3, vec3 fun _ a b c => plain32 (if c.isZero then b else a)),
   (.vmov core, 0x4F, 3, vec1 fun _ a => plain32 a), (.vbcast core, 0x50, 3, vbcast),
   (.vrsum core, 0x51, 3, vecRed 1 fun st l => ([(dotAcc st 0 l).1], (dotAcc st 0 l).2)),
   (.vrmax core, 0x52, 3, fun e w => vecRed 1 (fun _ l =>
     ([to32 ((if bit w 25 then l.map Val.abs else l).foldl Val.max .nan)], [])) e w),
   (.vargmax core, 0x53, 3, vecRed 2 fun _ l => (((falling l).take 1).flatMap fun (v, i) => [to32 v, i], [])),
   (.vtopk core, 0x54, 3, vtopk),
   (.vnfin core, 0x55, 3, vecRed 1 fun _ l => ([(l.filter fun v => v.isNan || v.isInf).length], []))]

/-- A core's next word is w, of an opcode that is defined for it and read without an uncorrectable error, and its
instance y issues now (04 R89, R91 to R94). -/
abbrev Issues (i : Instr) (s : State) (core op : Nat) (y : Inst) (w : Nat) : Prop :=
  Able i s ∧ s.dev.coreReady core = some y ∧ s.dev.coreWord core y = some w ∧ opOf w = op ∧
    coreWordOk (isRunnel core) w = true ∧ s.dev.badIn [(pondBase core + y.pc, 8)] = none

/-- What an engine instruction is computed from: the instance, the tile slots and banks, the pond as its class reads it,
and the draw that numbers its free values. -/
def envOf (d : Dev) (core cls : Nat) (y : Inst) : Env :=
  { runnel := isRunnel core, inst := y, slots := (d.core core).slots, banks := (d.core core).banks
    key := d.draw.2.progKey (match d.prog y.field y.slot with | some p => p.kind | none => .decode 0)
    draw := d.draw.1, rd := d.draw.2.pondRead core y cls d.draw.1 }

end Sys2Proof.Claims

/-- 04 R88, R89, R91 to R94: an instruction of any opcode. A core that may not issue, or that comes to a word of another
instruction, does nothing; past its image it faults with 0x0342; on a word that holds an error no code corrects with 0x0345,
which is counted; an undefined opcode, and a word that is not defined for it, fault with 0x0340. -/
def Obligations.WordsThatMayNotIssueWaitOrFault : Prop :=
  ∀ (s : State) (core : Nat) (merges : List OftMerge) (i : Instr) (op : Nat), core < 256 → s.dev.dry = false →
    (i, op) ∈ controlTable core ++ (tileTable s.dev core merges ++ vectorTable core).map (fun r => (r.1, r.2.1)) →
    let d := s.dev
    (d.coreReady core = none → Leaves i s) ∧
    (∀ y, d.coreReady core = some y →
      (d.coreWord core y = none → Runs i s (d.faultCore core 0x0342).pump) ∧
      (∀ w b, d.coreWord core y = some w → d.badIn [(pondBase core + y.pc, 8)] = some b →
        Runs i s ((d.faultCore core 0x0345).countUe kCore core 0x0345 b).pump) ∧
      (∀ w, d.coreWord core y = some w → d.badIn [(pondBase core + y.pc, 8)] = none →
        ((coreFmt (opOf w)).isSome → opOf w ≠ op → Leaves i s) ∧
        ((coreFmt (opOf w) = none ∨ opOf w = op) → coreWordOk (isRunnel core) w = false →
          Runs i s (d.faultCore core 0x0340).pump)))

/-- 04 R90, R97: NOP, SETP, ADDP, SETT, SETE, SETS and LOOP change the instance's own registers and its pc; pointer
arithmetic is modulo 2²². A body of a LOOP that runs past the image faults with 0x0342, a fifth nested LOOP with 0x0348,
and a LOOP of no words or no passes goes on behind its body. -/
def Obligations.CoreRegisterInstructionsSetTheirInstance : Prop :=
  ∀ (s : State) (core : Nat) (y : Inst) (w : Nat),
    let d := s.dev
    let p := imm32 w
    let r := iPtr w % 16
    let then_ (g : Inst → Inst) : Dev := settled (d.modInst core g) y.ctx
    (Issues (.nop core) s core 0x00 y w → Runs (.nop core) s (then_ Inst.next)) ∧
    (Issues (.setp core) s core 0x03 y w →
      Runs (.setp core) s (then_ fun y => ({ y with ptrs := y.ptrs.set r (p % 2 ^ 22) }).next)) ∧
    (Issues (.addp core) s core 0x04 y w →
      Runs (.addp core) s (then_ fun y => ({ y with ptrs := y.ptrs.set r ((nth 0 y.ptrs r + p) % 2 ^ 22) }).next)) ∧
    (Issues (.sett core) s core 0x08 y w → Runs (.sett core) s (then_ fun y => { y.next with tensor := p })) ∧
    (Issues (.sete core) s core 0x09 y w → Runs (.sete core) s (then_ fun y => { y.next with ebase := p })) ∧
    (Issues (.sets core) s core 0x0A y w → Runs (.sets core) s (then_ fun y => { y.next with stride := p })) ∧
    (Issues (.loop core) s core 0x02 y w →
      let body := imm16 w
      let last := y.pc + 8 + 8 * body
      let end_ := y.codeBase + y.codeLen
      (end_ < last → Runs (.loop core) s (settled (d.faultCore core 0x0342) y.ctx)) ∧
      (last ≤ end_ → body = 0 ∨ p = 0 → Runs (.loop core) s (then_ fun z =>
        { z with loops := (loopStep y.loops last).1, pc := (loopStep y.loops last).2 })) ∧
      (last ≤ end_ → body ≠ 0 → p ≠ 0 → y.loops.length = 4 →
        Runs (.loop core) s (settled (d.faultCore core 0x0348) y.ctx)) ∧
      (last ≤ end_ → body ≠ 0 → p ≠ 0 → y.loops.length ≠ 4 → Runs (.loop core) s (then_ fun z =>
        { z with loops := { start := y.pc + 8, stop := last, left := p - 1 } :: y.loops, pc := y.pc + 8 })))

/-- 04 R92, R96, R424, 12 R288, R289, R293, R294: END waits for the instance's work; WAITG and SIGG act on a Gate that the
context holds (0x0360) with a condition that is defined (0x0363); FENCE and DMAW wait for engine classes and for tags;
DMA starts its descriptor. -/
def Obligations.CoreControlInstructionsWaitAndSignal : Prop :=
  ∀ (s : State) (core : Nat) (y : Inst) (w : Nat),
    let d := s.dev
    let g := imm16 w
    let ends (e : Dev) : Dev := settled e y.ctx
    let state (x : CoreState) (e : Dev) : Dev := e.modCore core fun z => { z with state := x }
    (Issues (.endInst core) s core 0x01 y w →
      Runs (.endInst core) s (ends ((d.modInst core fun z => { z with wait := .ending }).tryEnd core))) ∧
    (Issues (.waitg core) s core 0x05 y w →
      (condOk (iCond w) = false → Runs (.waitg core) s (ends (d.faultCore core 0x0363))) ∧
      (condOk (iCond w) = true → d.holds y.ctx g = false → Runs (.waitg core) s (ends (d.faultCore core 0x0360))) ∧
      (condOk (iCond w) = true → d.holds y.ctx g = true →
        let e := state .waitGate (d.modInst core fun z => { z with wait := .gate })
        let wait : GateWait :=
          { who := .core core, ctx := y.ctx, gate := g, cond := iCond w, operand := imm32 w
            released := condHolds (iCond w) (d.gate g).value.toNat (imm32 w) }
        Runs (.waitg core) s (ends (e.setWaits (d.waits ++ [wait]))))) ∧
    (Issues (.sigg core) s core 0x06 y w →
      (d.holds y.ctx g = false → Runs (.sigg core) s (ends (d.faultCore core 0x0360))) ∧
      (d.holds y.ctx g = true →
        Runs (.sigg core) s (ends ((d.signal g (imm32 w) (srcCore core)).modInst core Inst.next)))) ∧
    (Issues (.fence core) s core 0x07 y w → Runs (.fence core) s
      (ends ((d.modInst core fun z => { z with wait := .fence (g % 64) }).waitsOver core))) ∧
    (Issues (.dmaw core) s core 0x0C y w → Runs (.dmaw core) s
      (ends ((state .waitDma (d.modInst core fun z => { z with wait := .dmaw g })).waitsOver core))) ∧
    (Issues (.dma core) s core 0x0B y w →
      let tag := g % 16
      let a := y.ptr (iPtr w)
      let x := parseDma (d.draw.2.pondRead core y 5 d.draw.1 a 64)
      ((y.tag? tag).isSome = true → Runs (.dma core) s
        (ends (state .waitDma (d.modInst core fun z => { z with wait := .dmaTag tag })))) ∧
      (y.tag? tag = none → a % 64 ≠ 0 → Runs (.dma core) s (ends (d.faultCore core 0x0361))) ∧
      (y.tag? tag = none → a % 64 = 0 → pondSize core < a + 64 →
        Runs (.dma core) s (ends (d.faultCore core 0x0342))) ∧
      (y.tag? tag = none → a % 64 = 0 → a + 64 ≤ pondSize core →
        let z := d.draw.2
        let ok := x.ok (z.pondRead core y 5 d.draw.1 a 64)
        let waits := bit x.flags 0
        let held := (waits = true → z.holds y.ctx x.gateWait = true) ∧ (bit x.flags 1 = true → z.holds y.ctx x.gateSig = true)
        let t : DmaTag :=
          { desc := x, ctx := y.ctx, started := !waits, reissue := false, outstanding := 0, abandoned := 0
            gen := (z.core core).dmaGen, pc := y.pc, since := z.time.osc }
        let put := (z.putTag core tag (some t)).coreNext core
        (ok = false → Runs (.dma core) s (ends (z.faultCore core 0x0361))) ∧
        (ok = true → ¬ held → Runs (.dma core) s (ends (z.faultCore core 0x0360))) ∧
        (ok = true → held → waits = false → Runs (.dma core) s (ends put)) ∧
        (ok = true → held → waits = true → Runs (.dma core) s
          (ends (put.startWait (.dma core tag) y.ctx x.gateWait x.cond x.waitValue)))))

/-- 04 R92, R96, R115, R424, 12 R291, R294: what a core has issued completes: an engine instruction (an uncorrectable error
in what it read takes it back and faults it with 0x0345), a descriptor (its data moves and its signal is applied; it faults
at the instruction that started it), a wait that its condition has released, the instance at END. -/
def Obligations.CoreWorkCompletes : Prop :=
  ∀ (s : State) (core tag cls : Nat) (who : Waiter) (ecc : List EccStrike) (y : Inst), s.dev.dry = false → core < 256 →
    tag < 16 → cls < 5 → waiterOk who = true → (s.dev.core core).inst = some y →
    let d := s.dev
    (y.wait = .ending → y.idle = true → Runs (.instanceEnd core) s (settled (d.endInst core) y.ctx)) ∧
    (y.wait ≠ .ending ∨ y.idle = false → Runs (.instanceEnd core) s (settled d y.ctx)) ∧
    (y.tag? tag = none → Runs (.coreDmaDone core tag ecc) s (settled d y.ctx)) ∧
    (∀ t, y.tag? tag = some t →
      let z := d.spoil ecc
      let src := z.dmaReads core y.ctx t.desc
      let moved := if linkLost ecc src then .error 0x0322 else z.moveRows core y.ctx t.desc
      (t.started = false ∨ t.reissue = true → Runs (.coreDmaDone core tag ecc) s (settled d y.ctx)) ∧
      (∀ c, t.started = true → t.reissue = false → moved = .error c → z.badIn src = none →
        Runs (.coreDmaDone core tag ecc) s (settled ((z.faultAt core c t.pc).strikes ecc) y.ctx)) ∧
      (∀ e, t.started = true → t.reissue = false → moved = .ok e →
        let signalled := if bit t.desc.flags 1 then e.signal t.desc.gateSig t.desc.sigValue (srcCore core) else e
        Runs (.coreDmaDone core tag ecc) s
          (settled ((((signalled.putTag core tag none).waitsOver core).trySuspend core).strikes ecc) y.ctx))) ∧
    ((d.core core).stopped = true ∨ (∀ x ∈ y.flight, x.cls ≠ cls) → Leaves (.instructionDone core cls ecc) s) ∧
    (∀ x, (d.core core).stopped = false → (y.flight.find? fun z => z.cls == cls) = some x →
      (lostAt ecc = none → x.report = none → Runs (.instructionDone core cls ecc) s
        (((((d.modInst core fun z => { z with flight := z.flight.erase x }).waitsOver core).resettle y.ctx).strikes ecc).pump)) ∧
      (∀ r p, lostAt ecc = none → x.report = some r → d.prog y.field y.slot = some p →
        Runs (.instructionDone core cls ecc) s
          ((((((d.sendReport core p.district r).modInst core fun z => { z with flight := z.flight.erase x }).waitsOver
            core).resettle y.ctx).strikes ecc).pump)) ∧
      (∀ a, lostAt ecc = some a →
        let taken := (d.draw.2.spoil ecc).unwind core cls (Config.freeNat d.draw.1)
          (y.flight.dropWhile fun z => z != x).reverse []
        Runs (.instructionDone core cls ecc) s
          (settled (((taken.faultAt core 0x0345 x.pc).countUe kCore core 0x0345 a).strikes ecc) y.ctx))) ∧
    (d.waitOf who = none → Leaves (.waitRelease who) s) ∧
    (∀ x, d.waitOf who = some x →
      (x.released = false → Leaves (.waitRelease who) s) ∧
      (x.released = true →
        let startTag (tag : Nat) (y : Inst) : Inst := match y.tag? tag with
          | some t => { y with tags := Tbl.set none y.tags tag (some { t with started := true, since := d.time.osc }) }
          | none => y
        (∀ i, who = .core i → Runs (.waitRelease who) s (settled
          (((d.endWait who).modInst i Inst.next).modCore i fun z => { z with state := .running }) x.ctx)) ∧
        (∀ i t, who = .dma i t → Runs (.waitRelease who) s (settled ((d.endWait who).modInst i (startTag t)) x.ctx)) ∧
        (∀ f sl img run idx, who = .inst f sl img run idx →
          Runs (.waitRelease who) s (settled ((d.endWait who).modSuspended who Inst.next) x.ctx)) ∧
        (∀ f sl img run idx t, who = .instDma f sl img run idx t → Runs (.waitRelease who) s
          (settled ((d.endWait who).modSuspended (.inst f sl img run idx) (startTag t)) x.ctx)) ∧
        (∀ f sl, who = .steward f sl →
          Runs (.waitRelease who) s (settled ((d.endWait who).modProg f sl Prog.next) x.ctx)) ∧
        (∀ o, who = .order o →
          Runs (.waitRelease who) s (settled ((d.endWait who).modOrder o fun z => { z with released := true }) x.ctx))))

/-- 04 R89, R91, R92, R95, 03 R62 to R84: a tile or vector instruction faults with the code of its operands, retires
without effect, faults with 0x0345 where what it reads holds an error no code corrects, or has its effect: its writes, its
pointers' advance and its events, and it is in flight until it completes. TLOAD merges the Offtakes' deltas (10 R252). 07
R179, R180: OPTW waits for the Gauge's verdict in the optimiser image, and then updates the weights by it. -/
def Obligations.EngineInstructionsFaultRetireOrHaveTheirEffect : Prop :=
  (∀ (s : State) (core : Nat) (merges : List OftMerge) (i : Instr) (op cls : Nat) (f : Env → Nat → Res) (y : Inst)
      (w : Nat), (i, op, cls, f) ∈ tileTable s.dev core merges ++ vectorTable core → Issues i s core op y w →
    let d := s.dev
    (∀ c, f (envOf d core cls y) w = .error c → Runs i s (settled (d.draw.2.faultCore core c) y.ctx)) ∧
    (f (envOf d core cls y) w = .ok none → Runs i s (settled (d.draw.2.coreNext core) y.ctx)) ∧
    (∀ e, f (envOf d core cls y) w = .ok (some e) →
      let bad := d.draw.2.badIn (e.reads.map fun r => (pondBase core + r.1, r.2))
      (∀ b, bad = some b →
        Runs i s (settled ((d.draw.2.faultCore core 0x0345).countUe kCore core 0x0345 b) y.ctx)) ∧
      (bad = none → Runs i s (settled (d.draw.2.launch core cls w e) y.ctx)))) ∧
  (∀ (s : State) (core : Nat) (y : Inst) (w : Nat) (p : Prog), Issues (.optw core) s core 0x58 y w →
    s.dev.prog y.field y.slot = some p →
    let d := s.dev
    let x := d.gauge p.district
    let inOpt := d.inOptImage y
    (inOpt = true → vCount w ≠ 0 → x.verdict = 0 → Leaves (.optw core) s) ∧
    (inOpt = false ∨ vCount w = 0 ∨ x.verdict ≠ 0 →
      let r := optw inOpt x.verdict x.vscale (envOf d core 3 y) w
      (∀ c, r = .error c → Runs (.optw core) s (settled (d.draw.2.faultCore core c) y.ctx)) ∧
      (r = .ok none → Runs (.optw core) s (settled (d.draw.2.coreNext core) y.ctx)) ∧
      (∀ e, r = .ok (some e) →
        let bad := d.draw.2.badIn (e.reads.map fun r => (pondBase core + r.1, r.2))
        (∀ b, bad = some b →
          Runs (.optw core) s (settled ((d.draw.2.faultCore core 0x0345).countUe kCore core 0x0345 b) y.ctx)) ∧
        (bad = none → Runs (.optw core) s (settled (d.draw.2.launch core 3 w e) y.ctx)))))

/-! ### The field stewards and their units (04, 05, 06, 08) -/

namespace Sys2Proof.Claims

/-- The steward of a slot issues w, of an opcode, for its program p (04 R106). -/
abbrev StewIssues (i : Instr) (s : State) (f sl op : Nat) (kicking : Bool) (p : Prog) (w : Nat) : Prop :=
  Able i s ∧ s.dev.stewReady f sl kicking = some p ∧ p.word = some w ∧ opOf w = op

/-- The steward's instructions, with their opcodes (04 Table 4-13). -/
def stewardTable (f sl : Nat) : List (Instr × Nat) :=
  [(.fnop f sl, 0x80), (.frun f sl, 0x81), (.fjoin f sl, 0x82), (.fgrant f sl, 0x83), (.foppt f sl, 0x84),
   (.fwaitg f sl, 0x85), (.fsigg f sl, 0x86), (.floop f sl, 0x87), (.fsetp f sl, 0x89), (.fend f sl, 0x8A)]

/-- The jobs of FKICK: unit and job kind (04 R109, 05 R120, 08 R209). -/
def kickTable (f sl : Nat) : List (Instr × KickOf) :=
  [(.headExact f sl, { unit := 1, job := 1 }), (.headTopk f sl, { unit := 1, job := 2 }), (.featMse f sl, { unit := 1, job := 3 }),
   (.featCos f sl, { unit := 1, job := 4 }), (.post f sl, { unit := 2, job := 1 }), (.dispatch f sl, { unit := 3, job := 1 }),
   (.combine f sl, { unit := 3, job := 2 })]

end Sys2Proof.Claims

/-- 04 R106, R107: a steward that may not issue, or that comes to a word of another opcode, does nothing; past its code
it faults with 0x034B. FNOP goes on, FEND ends the program, FSETP sets a pointer of FRUN, FLOOP loops as LOOP does. -/
def Obligations.StewardInstructionsControlTheirProgram : Prop :=
  ∀ (s : State) (f sl : Nat) (p : Prog) (w : Nat), f < 16 → sl < 4 → s.dev.dry = false →
    let d := s.dev
    let ends (e : Dev) : Dev := settled e p.ctx
    let bad (c : Nat) : Dev := ends (d.faultProg f sl c)
    let then_ (g : Prog → Prog) : Dev := ends (d.modProg f sl g)
    (∀ i op, (i, op) ∈ stewardTable f sl →
      let answers (e : Dev) : Prop := if i = .frun f sl then UnitRuns i s e else Runs i s e
      (d.stewReady f sl false = none → answers d) ∧
      (d.stewReady f sl false = some p →
        (p.word = none → answers (d.faultProg f sl 0x034B).pump) ∧
        (p.word = some w → opOf w ≠ op → answers d))) ∧
    (StewIssues (.fnop f sl) s f sl 0x80 false p w → Runs (.fnop f sl) s (then_ Prog.next)) ∧
    (StewIssues (.fend f sl) s f sl 0x8A false p w →
      Runs (.fend f sl) s (then_ fun q => { q with wait := .fend })) ∧
    (StewIssues (.fsetp f sl) s f sl 0x89 false p w →
      (12 < iPtr w → Runs (.fsetp f sl) s (bad 0x034B)) ∧
      (iPtr w ≤ 12 → Runs (.fsetp f sl) s
        (ends ((d.modProg f sl fun q => { q with setp := Tbl.set 0 q.setp (iPtr w) (imm32 w) }).modProg f sl Prog.next)))) ∧
    (StewIssues (.floop f sl) s f sl 0x87 false p w →
      let body := imm16 w
      let last := p.pc + 8 + 8 * body
      (p.code.length < last → Runs (.floop f sl) s (bad 0x034B)) ∧
      (last ≤ p.code.length → body = 0 ∨ imm32 w = 0 → Runs (.floop f sl) s (then_ fun q =>
        { q with loops := (loopStep p.loops last).1, pc := (loopStep p.loops last).2 })) ∧
      (last ≤ p.code.length → body ≠ 0 → imm32 w ≠ 0 → p.loops.length = 4 → Runs (.floop f sl) s (bad 0x0348)) ∧
      (last ≤ p.code.length → body ≠ 0 → imm32 w ≠ 0 → p.loops.length ≠ 4 → Runs (.floop f sl) s (then_ fun q =>
        { q with loops := { start := p.pc + 8, stop := last, left := imm32 w - 1 } :: p.loops, pc := p.pc + 8 })))

/-- 04 R107, R108, 12 R293, R294, 13 R305, 16 R363: FGRANT returns the slot's grant and asks for one, FOPPT asks for an operating
point, FWAITG and FSIGG act on a Gate that the context holds, FJOIN waits for the instances of an image, FRUN faults on
its operands (0x034B, 0x0349, 0x034A) or takes a time mark and binds instances when cores are free. -/
def Obligations.StewardInstructionsGrantSignalRunAndJoin : Prop :=
  ∀ (s : State) (f sl : Nat) (p : Prog) (w : Nat),
    let d := s.dev
    let g := imm16 w
    let ends (e : Dev) : Dev := settled e p.ctx
    let bad (c : Nat) : Dev := ends (d.faultProg f sl c)
    let goesOn (e : Dev) : Dev := e.modProg f sl Prog.next
    (StewIssues (.fgrant f sl) s f sl 0x83 false p w →
      (imm32 w = 0 ∨ g = 0 → Runs (.fgrant f sl) s (bad 0x034B)) ∧
      (imm32 w ≠ 0 → g ≠ 0 →
        let e := (goesOn (d.returnGrant f sl)).modProg f sl fun q => { q with wait := .fgrant }
        let ask : GrantReq :=
          { field := f, slot := sl, district := p.district, energy := imm32 w, dur := g
            since := (goesOn (d.returnGrant f sl)).eff, resume := false }
        Runs (.fgrant f sl) s (ends (e.setPower { e.power with waiting := e.power.waiting ++ [ask] })))) ∧
    (StewIssues (.foppt f sl) s f sl 0x84 false p w →
      (d.clock.length ≤ g → Runs (.foppt f sl) s (bad 0x034B)) ∧
      (g < d.clock.length → Runs (.foppt f sl) s
        (ends ((goesOn (d.modProg f sl fun q => { q with foppt := some g })).retune f)))) ∧
    (StewIssues (.fwaitg f sl) s f sl 0x85 false p w →
      (condOk (iPtr w) = false → Runs (.fwaitg f sl) s (bad 0x0363)) ∧
      (condOk (iPtr w) = true → d.holds p.ctx g = false → Runs (.fwaitg f sl) s (bad 0x0360)) ∧
      (condOk (iPtr w) = true → d.holds p.ctx g = true → Runs (.fwaitg f sl) s (ends
        ((d.modProg f sl fun q => { q with wait := .gate }).startWait (.steward f sl) p.ctx g (iPtr w) (imm32 w))))) ∧
    (StewIssues (.fsigg f sl) s f sl 0x86 false p w →
      (d.holds p.ctx g = false → Runs (.fsigg f sl) s (bad 0x0360)) ∧
      (d.holds p.ctx g = true → Runs (.fsigg f sl) s (ends (goesOn (d.signal g (imm32 w) (srcSteward f)))))) ∧
    (StewIssues (.fjoin f sl) s f sl 0x82 false p w →
      (g ≠ 0xFFFF → p.imgs.length ≤ g → Runs (.fjoin f sl) s (bad 0x034B)) ∧
      (g = 0xFFFF ∨ g < p.imgs.length → Runs (.fjoin f sl) s
        (ends ((goesOn d).modProg f sl fun q => { q with wait := .fjoin g })))) ∧
    (StewIssues (.frun f sl) s f sl 0x81 false p w →
      (p.imgs[g]? = none → UnitRuns (.frun f sl) s (bad 0x034B)) ∧
      (∀ m, p.imgs[g]? = some m →
        let n := (d.usableOf f m.runnel).length
        (d.planFault p g = true → UnitRuns (.frun f sl) s (bad 0x034B)) ∧
        (d.planFault p g = false → n < m.countMin → UnitRuns (.frun f sl) s (bad 0x0349)) ∧
        (d.planFault p g = false → m.countMin ≤ n → d.grant? f sl = none → UnitRuns (.frun f sl) s (bad 0x034A)) ∧
        (d.planFault p g = false → m.countMin ≤ n → (d.grant? f sl).isSome = true →
          let t := d.mark (srcSteward f)
          UnitRuns (.frun f sl) s (ends (((t.2.modProg f sl fun q =>
            { q with wait := .frun g, waitMark := t.1, runs := q.runs ++ [g], afterRecompute := none }).optFirst p g).tryBind f
              sl))))) ∧
    (Able (.frunBind f sl) s → d.prog f sl = some p → p.ending = none → (d.field f).state = .active → (d.field f).held = false →
      (d.field f).opChange = none → (d.field f).inTest = false → d.frozen = false →
      UnitRuns (.frunBind f sl) s (ends (d.tryBind f sl))) ∧
    (Able (.frunBind f sl) s → d.prog f sl = none → UnitRuns (.frunBind f sl) s d)

/-- 04 R109: an FKICK with a wrong unit, instance or descriptor faults with 0x034B; a unit refuses it (the program ends
with the code), makes it wait, or takes it. Each job's command acts on the kicks of its unit and job kind only. A kick of
the Gauge lets the steward go on (the model's reading, log entry 41). -/
def Obligations.KicksAreTakenRefusedOrWait : Prop :=
  ∀ (s : State) (f sl : Nat) (i : Instr) (k : KickOf) (p : Prog) (w : Nat), (i, k) ∈ kickTable f sl ∨ i = .fkick f sl →
    StewIssues i s f sl 0x88 true p w → (i ≠ .fkick f sl → kickOf p w = k) →
    let d := s.dev
    let unit := iPtr w
    let o := imm32 w
    let ends (e : Dev) : Dev := settled e p.ctx
    let b := p.dataAt o (kickBytes unit)
    let ok := unit ≠ 0 ∧ unit ≤ 4 ∧ imm16 w ≤ 3 ∧ o + kickBytes unit ≤ 65536
    (¬ ok → UnitRuns i s (ends (d.faultProg f sl 0x034B))) ∧
    (ok → unit = 4 → UnitRuns i s (ends (d.modProg f sl Prog.next))) ∧
    (∀ r, ok → unit ≠ 4 →
      (if unit = 1 then d.kickFlume (imm16 w) f sl p b
        else if unit = 2 then d.kickPost f p b else d.kickDiv (imm16 w) f sl p b) = r →
      UnitRuns i s (ends (match r with
        | .refused c => d.stopProg f sl c .programEnd
        | .wait => d.modProg f sl fun q => { q with wait := .kick }
        | .done e => e.modProg f sl Prog.next)))

/-- 05 R122, R123, R128, R129, R142: a free engine of a Flume takes a slot of a job whose program runs (one that breaks
R129 ends the job and the program with 0x01A3), and ends it; a Diversion's expert becomes ready, and a job with nothing
pending ends. -/
def Obligations.FlumeSlotsAndDiversionJobsRun : Prop :=
  ∀ (s : State) (n j e x : Nat), n < 4 → s.dev.dry = false →
    let d := s.dev
    let z := d.fjob n j
    let freeEngine := (d.flume n).engines.contains none
    (j < 8 →
      (z.state = .free → UnitRuns (.flumeSlotTake n j) s d) ∧
      (z.state ≠ .free → d.progSuspended z.field z.pslot = true ∨ freeEngine = false →
        UnitRuns (.flumeSlotTake n j) s (settled d z.ctx)) ∧
      (z.state ≠ .free → d.progSuspended z.field z.pslot = false → freeEngine = true →
        (d.slotBreaks n j = true → UnitRuns (.flumeSlotTake n j) s
          (settled ((d.endFjob n j 0x01A3).stopProg z.field z.pslot 0x01A3 .programEnd) z.ctx)) ∧
        (d.slotBreaks n j = false → UnitRuns (.flumeSlotTake n j) s (settled (d.takeFlumeSlot n j) z.ctx)))) ∧
    (e < 4 →
      (nth none (d.flume n).engines e = none → UnitRuns (.flumeSlotDone n e) s d) ∧
      (∀ c r, nth none (d.flume n).engines e = some (c, r) →
        UnitRuns (.flumeSlotDone n e) s (settled (d.finishFlumeSlot n e) (d.fjob n c).ctx))) ∧
    (j < 4 →
      (d.divJob n j = none → UnitRuns (.diversionJobEnd n j) s d ∧ (x < 4096 → UnitRuns (.expertReady n j x) s d)) ∧
      (∀ y, d.divJob n j = some y →
        (x < 4096 → UnitRuns (.expertReady n j x) s (settled (d.expertReady n j x) y.ctx)) ∧
        (y.copied = true → y.pending = [] → UnitRuns (.diversionJobEnd n j) s (settled (d.endDivJob n j) y.ctx)) ∧
        (y.copied = false ∨ y.pending ≠ [] → UnitRuns (.diversionJobEnd n j) s d)))

/-! ### Scheduling (06, 13, 17) -/

/-- 04 R93, R110, R111, 13 R307 to R309: a core stops for its cycle limit (0x0346), for a cause, at a tile boundary, where
the instance of a program that ends is discarded and any other is kept; its instance is saved, its core cleared, an
instance restored (an error in its record that no code corrects faults its program with 0x0322); a late answer is counted
off. -/
def Obligations.CoresStopSaveClearAndRestore : Prop :=
  ∀ (s : State) (core at_ tag gen : Nat) (cause : StopCause) (ecc : List EccStrike), core < 256 → tag < 16 →
    s.dev.dry = false →
    let d := s.dev
    let x := d.core core
    let e := (d.advance at_).account core
    (x.inst = none → Leaves (.stopRequest core cause) s ∧ Leaves (.tileBoundaryStop core) s) ∧
    ((e.core core).inst = none → Runs (.cycleLimit core at_) s e) ∧
    (∀ y p, (e.core core).inst = some y → e.prog y.field y.slot = some p →
      (p.cycleLimit * 65536 < y.ran → Runs (.cycleLimit core at_) s (e.faultCore core 0x0346).pump) ∧
      (y.ran ≤ p.cycleLimit * 65536 → Runs (.cycleLimit core at_) s e)) ∧
    (∀ y p, x.inst = some y → d.prog y.field y.slot = some p →
      (StopCause.ends cause = true → p.ending = none → Leaves (.stopRequest core cause) s) ∧
      (StopCause.ends cause = false ∨ p.ending.isSome = true → Runs (.stopRequest core cause) s (d.stopCore core cause)) ∧
      (x.stop = none ∨ x.stopped = true → Runs (.tileBoundaryStop core) s (settled d y.ctx)) ∧
      (∀ c, x.stop = some c → x.stopped = false →
        let cut := d.cutFlights core y y.flight
        let z := cut.1.modInst core fun y => { y with flight := cut.2 }
        let gone := StopCause.ends c = true ∨ z.ends y.field y.slot = true
        (gone → Runs (.tileBoundaryStop core) s (settled (z.dropInst core .idle) y.ctx)) ∧
        (¬ gone → Runs (.tileBoundaryStop core) s
          (settled (((z.joinPool core).modCore core fun x => { x with stopped := true }).trySuspend core) y.ctx)))) ∧
    (x.saving = true → Runs (.instanceSaveDone core) s (d.saveDone core).pump) ∧
    (x.saving = false → Leaves (.instanceSaveDone core) s) ∧
    (x.toClear = true → Runs (.coreClearDone core) s (((d.account core).clearCore core).prepare core).pump) ∧
    (x.toClear = false → Leaves (.coreClearDone core) s) ∧
    (x.restoring = none → Leaves (.instanceRestoreDone core ecc) s) ∧
    (∀ y, x.restoring = some y →
      let z := d.spoil ecc
      let done (w : Dev) : Prop := Runs (.instanceRestoreDone core ecc) s ((w.resettle y.ctx).strikes ecc).pump
      let fault (a : Nat) : Dev := (z.faultProg y.field y.slot 0x0322).ueAt a
      (x.saving = true ∨ x.toClear = true → Leaves (.instanceRestoreDone core ecc) s) ∧
      (x.saving = false → x.toClear = false →
        (∀ b, z.recordBad y = some b → done (fault b)) ∧
        (∀ a, z.recordBad y = none → lostAt ecc = some a → done (fault a)) ∧
        (z.recordBad y = none → lostAt ecc = none → done (z.restoreDone core)))) ∧
    (∀ y, x.inst = some y → x.held = none → x.restoring = none → (∀ r ∈ d.saves, r.core ≠ core) →
      let z := d.putCore core { x with late := x.late.erase (tag, gen), inst := some (y.answered tag gen) }
      Runs (.lateResponse core tag gen) s ((z.setSaves d.saves).resettle y.ctx).pump)

/-- 04 R108, R112, 13 R301, R306, R307: a field powers off behind its delay and wakes; a scheduling quantum lets fields
and evictions proceed; a drain stops what still runs; operating points and translation roots take effect. -/
def Obligations.FieldsGateWakeAndTakeTheirQuantum : Prop :=
  ∀ (s : State) (f c at_ : Nat), f < 16 → c < 1040 → s.dev.dry = false →
    let d := s.dev
    let e := d.advance at_
    let x := e.field f
    let gates := x.state = .gated ∧ x.progs = [] ∧ x.queue = [] ∧ (∀ i ∈ coresIn f, (e.core i).held = none) ∧
      x.idleSince + 1000 * e.reg .fldPgDelay 0 ≤ e.time.osc
    (gates → Runs (.fldPgDelay f at_) s (e.powerOff f .off)) ∧
    (¬ gates → Runs (.fldPgDelay f at_) s e) ∧
    ((d.field f).state ≠ .waking → Leaves (.fieldWake f) s) ∧
    ((d.field f).state = .waking →
      let y := d.putField f { d.field f with
        state := if (d.field f).progs.isEmpty then .gated else .active, idleSince := d.time.osc }
      Runs (.fieldWake f) s ((coresIn f).foldl (fun d i => d.modCore i fun x =>
        { x with state := match x.state with | .off => .idle | z => z }) y).pump) ∧
    (e.eff < e.sched.lastQuantum + e.quantum → Runs (.schQuantum at_) s e) ∧
    (e.sched.lastQuantum + e.quantum ≤ e.eff →
      let y := e.setSched { e.sched with lastQuantum := e.eff }
      let z := (List.range 16).foldl Dev.quantumField (y.cores.foldl (fun d i => d.account i.1) y)
      Runs (.schQuantum at_) s (z.swappedReady.foldl Dev.quantumEvict z).pump) ∧
    Runs (.schDrain c at_) s (settled ((e.coresOf c).foldl Dev.drainCore e) c) ∧
    ((d.ctx c).rootLoading = false → Leaves (.translationRootLoad c) s) ∧
    ((d.ctx c).rootLoading = true → Runs (.translationRootLoad c) s
      (settled (d.putCtx c { d.ctx c with rootLoading := false, residentSince := d.eff }) c)) ∧
    ((d.field f).opChange = none → Leaves (.operatingPointChange f) s) ∧
    (∀ q, (d.field f).opChange = some q →
      let y := d.accountField f
      Runs (.operatingPointChange f) s
        ((y.putField f { y.field f with opPoint := q, opChange := none }).retune f).pump)

/-- 13 R312, R313, 17 R390, R391: the entry in force is the one that started last in the frame of the time base, and it
takes effect whenever the device settles, which the start of an entry, its end and its lead, SCH_RT_LEAD.US before its
start, bring about; a self-test piece tests a field in a TEST entry that fits it; its 24th piece completes the test. -/
def Obligations.RotationEntriesStartTestAndEnd : Prop :=
  ∀ (s : State) (f j at_ : Nat) (failing : List Nat) (steward : Bool), f < 16 → j < 4096 → s.dev.dry = false →
    (∀ p ∈ failing, p < 16) →
    let d := s.dev
    let e := d.advance at_
    let lead := 1000 * e.reg .schRtLead 0
    (∀ z : Dev, z.pump = (z.rotSync.pumpN 65).drainCheck ∧ z.rotSync.sched.rot = z.rotNow) ∧
    (e.rotTable.2[j]? = none → Runs (.rotationLead ⟨j, at_⟩) s e) ∧
    (∀ r, e.rotTable.2[j]? = some r →
      (e.time.cnt + lead < e.rotNext r → Runs (.rotationLead ⟨j, at_⟩) s e) ∧
      (e.rotNext r ≤ e.time.cnt + lead → Runs (.rotationLead ⟨j, at_⟩) s e.pump)) ∧
    (e.rotNow = none → Runs (.rotationEntryStart j at_) s e) ∧
    (∀ k start, e.rotNow = some (k, start) →
      (k ≠ j → Runs (.rotationEntryStart j at_) s e) ∧ (k = j → Runs (.rotationEntryStart j at_) s e.pump)) ∧
    (e.sched.rot = none → Runs (.rotationEntryEnd j at_) s e) ∧
    (∀ k start, e.sched.rot = some (k, start) →
      (k ≠ j ∨ e.rotNow = some (k, start) → Runs (.rotationEntryEnd j at_) s e) ∧
      (k = j → e.rotNow ≠ some (k, start) → Runs (.rotationEntryEnd j at_) s e.pump)) ∧
    (let run : Instr := .selftestPiece f failing steward at_
      let fits := (e.field f).inTest = true ∧ e.testWanted f = true ∧ e.pieceFits f = true ∧ e.fieldEmpty f = true
      let y := (coresIn f).foldl (fun d i => d.clearCore i) e
      (¬ fits → Runs run s e) ∧
      (fits → steward = true ∨ failing ≠ [] → Runs run s (y.testFail f failing steward).pump) ∧
      (fits → steward = false → failing = [] → (y.field f).testPieces + 1 = 24 → Runs run s (y.testOver f 1 24)) ∧
      (fits → steward = false → failing = [] → (y.field f).testPieces + 1 ≠ 24 → Runs run s
        (y.putField f { y.field f with testPieces := (y.field f).testPieces + 1 })))

/-- 13 R315, R316: a physical function resets or tears down a context; a torn-down context is done once all it had has
stopped. -/
def Obligations.ContextsResetAndTearDown : Prop :=
  ∀ (s : State) (fn c : Nat), c < 1040 → s.dev.dry = false →
    let d := s.dev
    (HostAble fn (.resetContext fn c) s →
      (isPf fn = true → Runs (.resetContext fn c) s (settled (d.schReset (portOf fn) c) c)) ∧
      (isPf fn = false → Leaves (.resetContext fn c) s)) ∧
    (HostAble fn (.teardown fn c) s →
      (isPf fn = true → Runs (.teardown fn c) s (d.schTeardown (portOf fn) c).pump) ∧
      (isPf fn = false → Leaves (.teardown fn c) s)) ∧
    ((d.ctx c).state = .teardown → d.stoppedAll c = true → Runs (.teardownDone c) s (settled (d.endTeardown c) c)) ∧
    ((d.ctx c).state ≠ .teardown ∨ d.stoppedAll c = false → Leaves (.teardownDone c) s)

/-! ### The memory tiers (10, 11, 17) -/

/-- 11 R264, R272, R273, 12 R286, 16 R371: a CXL port links in stage 6 or behind it; a violation or a failed
link is counted and fences the port; poison, media errors and patrol scrub act on a device that is up; an Aqueduct
degrades to half width, or fails the device. -/
def Obligations.MemoryTiersLinkFailAndScrub : Prop :=
  ∀ (s : State) (n x at_ ce addr : Nat) (devs : List CxlDev) (req : MemReq), n < 4 → x < 32 → s.dev.dry = false →
    let d := s.dev
    let linked (p : Dev) : Dev := p.linkCheck
    (Able (.cxlLinkUp n devs) s →
      (6 ≤ d.startup.stage → d.cxlUp n = false → d.fenced kCxl n = false →
        Runs (.cxlLinkUp n devs) s (linked (d.cxlLink n devs))) ∧
      (d.startup.stage < 6 ∨ d.cxlUp n = true ∨ d.fenced kCxl n = true → Leaves (.cxlLinkUp n devs) s)) ∧
    (let e := d.advance at_
     let late := ∃ t ∈ e.portSince n, t + 1000000 * e.reg .cxlTimeout 0 ≤ e.time.osc
     (late → Runs (.cxlTimeout n at_) s (e.cxlViolation n 0)) ∧ (¬ late → Runs (.cxlTimeout n at_) s e)) ∧
    Runs (.cxlMalformed n) s (d.cxlViolation n 1) ∧
    Runs (.cxlLink n) s (d.cxlViolation n 2) ∧
    (d.cxlUp n = false → Leaves (.cxlMedia n addr) s ∧ (Able (.cxlPoison n req) s → Leaves (.cxlPoison n req) s)) ∧
    (d.cxlUp n = true →
      Runs (.cxlMedia n addr) s ((d.cxlCount n 5).unitRecord (srcCxl n) 0x0425 [n, addr]) ∧
      (∀ c, c < 1040 → req = .context c → Runs (.cxlPoison n req) s
        (settled ((d.cxlCount n 3).poison n req) c))) ∧
    (d.memUp x = false → Leaves (.patrolScrub x ce none) s ∧ Leaves (.selfRefresh x) s) ∧
    (d.memUp x = true →
      let y := d.unrefresh x
      let z := (y.putMemDev x { y.memDev x with ce := sat32 ((y.memDev x).ce + ce) }).countCe kDevice x ce
      Runs (.patrolScrub x ce none) s z ∧
      (z.devOf addr = some x → Runs (.patrolScrub x ce (some addr)) s ((z.spoil [.uncorrectable addr]).deviceUe x addr).pump) ∧
      (z.devOf addr ≠ some x → Runs (.patrolScrub x ce (some addr)) s (z.deviceUe x addr).pump) ∧
      Runs (.selfRefresh x) s (d.putMemDev x { d.memDev x with refresh := true })) ∧
    Runs (.aqueductDegraded n true) s (d.setCanal { d.canal with aqStatus := d.canal.aqStatus.set n 2 }) ∧
    Runs (.aqueductDegraded n false) s
      ((d.setCanal { d.canal with aqStatus := d.canal.aqStatus.set n 0 }).fatal srcLkk 0x0026 0 kAqueduct n n)

/-! ### The Lockkeeper and RAS (17) -/

namespace Sys2Proof.Claims

/-- A message of a command and a length stands in a Sluice whose receiver is the Lockkeeper, which runs; it is new, its
sender is one of those permitted, and its form is the command's (17 R393). -/
abbrev Received (i : Instr) (s : State) (sl cmd len : Nat) (fromHeadgates : Bool) : Prop :=
  let d := s.dev
  let x := d.sluice sl
  Able i s ∧ x.full = true ∧ x.receiver = idLkk ∧ x.command = cmd ∧ d.lkk.state = 1 ∧ d.frozen = false ∧
    x.duplicate = false ∧ (isPfId x.sender = true ∨ (fromHeadgates = true ∧ isHgId x.sender = true)) ∧ x.length = len ∧
    leAt x.bytes 3 1 = 0

end Sys2Proof.Claims

/-- 17 R386, R388, R390, R393, R405: FENCE fences a unit that exists (never a Headgate whose partner is fenced), RETURN
queues the test of a fenced unit, NOTE and COPY_SILT write the Silt record, SELFTEST requests a field's test; a bad
payload is acknowledged with 0x0101. -/
def Obligations.LockkeeperMessagesFenceReturnNoteAndTest : Prop :=
  ∀ (s : State) (sl : Nat),
    let d := s.dev
    let x := d.sluice sl
    let b := x.bytes.drop 4
    let kind := leAt b 0 1
    let u := leAt b 2 2
    let unitOk := kind ≤ 5 ∧ leAt b 1 1 = 0 ∧ u < nth 0 [0, 16, 256, 32, 4, 8] kind
    let took (p : Instr) (e : Dev) (code : Nat) : Prop := Runs p s (e.take sl code)
    (Received (.lkkFence sl) s sl 0x0101 4 true →
      (¬ unitOk → took (.lkkFence sl) d 0x0101) ∧
      (unitOk → kind = kHeadgate → d.fenced kHeadgate (partner u) = true → took (.lkkFence sl) d 0x0101) ∧
      (unitOk → kind ≠ kHeadgate ∨ d.fenced kHeadgate (partner u) = false →
        took (.lkkFence sl) (d.fenceFree kind u srcLkk) 1)) ∧
    (Received (.returnUnit sl) s sl 0x0102 4 false →
      (¬ unitOk → took (.returnUnit sl) d 0x0101) ∧
      (unitOk → (d.unit kind u).state = .fenced →
        let y := d.modUnit kind u fun x => { x with state := .testing }
        took (.returnUnit sl) (y.setLkk { d.lkk with tests := d.lkk.tests ++ [(kind, u)] }) 2) ∧
      (unitOk → (d.unit kind u).state ≠ .fenced → took (.returnUnit sl) d 2)) ∧
    (Received (.note sl) s sl 0x0103 8 true →
      took (.note sl) (d.siltAt srcLkk 0x0030 0 0 x.sender 0xFFFF (leAt b 0 8) false) 1) ∧
    (Received (.selftest sl) s sl 0x0104 1 false →
      (16 ≤ kind → took (.selftest sl) d 0x0101) ∧
      (kind < 16 → took (.selftest sl) (d.putField kind { d.field kind with testDue := true }) 1)) ∧
    (Received (.copySilt sl) s sl 0x0105 0 false → took (.copySilt sl) d.siltCopyFree.copyAll 1)

/-- 17 R385, R388, R394, R405, R406: a return test ends with the unit returned or fenced; a Headgate that misses its
watchdog restarts and resumes; temperatures warn once at WARN_C, warn again after a fall of 5 °C, and are fatal at the
critical limit; Silt copies are made and dumped. -/
def Obligations.UnitsReturnHeadgatesRestartAndTemperaturesWarn : Prop :=
  ∀ (s : State) (kind u h t temp fn : Nat), h < 8 → t < 5 → s.dev.dry = false →
    let d := s.dev
    let e := d.setLkk { d.lkk with temps := d.lkk.temps.set t temp }
    let hg := nth Headgate.init d.lkk.hgs h
    let off := d.setLkk { d.lkk with tests := d.lkk.tests.erase (kind, u) }
    ((kind, u) ∈ d.lkk.tests → d.lkk.state = 1 →
      (Able (.returnTestDone kind u true) s → Runs (.returnTestDone kind u true) s (off.returned kind u)) ∧
      (Able (.returnTestDone kind u false) s → Runs (.returnTestDone kind u false) s
        ((off.modUnit kind u fun x => { x with state := .fenced }).unitRecord srcLkk 0x0233 [kind, u]))) ∧
    (hg.state = 0 → d.ready = true → Runs (.hgWatchdog h) s (d.hgRestart h)) ∧
    (hg.state ≠ 0 ∨ d.ready = false → Leaves (.hgWatchdog h) s) ∧
    (hg.state = 1 → Runs (.hgRestart h) s
      ((d.standStill h (d.eff - hg.since)).setLkk { d.lkk with hgs := d.lkk.hgs.modify h fun x => { x with state := 0 } }).pump) ∧
    (hg.state ≠ 1 → Leaves (.hgRestart h) s) ∧
    (d.lkk.state = 1 → Runs .watchdogKick s (d.setLkk { d.lkk with lastKick := d.time.osc })) ∧
    (d.lkk.state ≠ 1 → Leaves .watchdogKick s) ∧
    (e.reg .rasWarn 0 ≤ temp → nth false d.lkk.warned t = false → Runs (.thermalWarn t temp) s
      (((e.setLkk { e.lkk with warned := d.lkk.warned.set t true }).siltEv srcLkk 0x0016 0 (sensorKind t) (sensorUnit t)
        temp).pldmEvent 0x0016 temp)) ∧
    (temp < e.reg .rasWarn 0 ∨ nth false d.lkk.warned t = true → Runs (.thermalWarn t temp) s e) ∧
    (temp + 5 ≤ e.reg .rasWarn 0 → Runs (.temperatureFall t temp) s
      (e.setLkk { e.lkk with warned := d.lkk.warned.set t false })) ∧
    (e.reg .rasWarn 0 < temp + 5 → Runs (.temperatureFall t temp) s e) ∧
    (t < 4 → critC ≤ temp → d.startup.stage ≠ 0 →
      Runs (.thermalCrit t temp) s (e.fatal srcLkk 0x0017 0 kUncore t temp)) ∧
    (t < 4 → temp < critC ∨ d.startup.stage = 0 → Runs (.thermalCrit t temp) s e) ∧
    Runs .flashCopy s d.copyDone ∧
    (Able (.dumpRam fn) s → d.deaf fn = false → isPf fn = true →
      let out (k : Option Bytes) : Dev := match k with
        | none => d
        | some bs => (d.hostWrite (portOf fn) (4096 * d.reg .sltOutAddr 0) bs).siltEnd 0
      (d.ready = false → Leaves (.dumpRam fn) s ∧ Leaves (.dumpFlash0 fn) s ∧ Leaves (.dumpFlash1 fn) s) ∧
      (d.ready = true → Runs (.dumpRam fn) s (out (some (siltSlots d.silt.entries))) ∧
        Runs (.dumpFlash0 fn) s (out (some (flashBytes (nth none d.silt.flash 0)))) ∧
        Runs (.dumpFlash1 fn) s (out (some (flashBytes (nth none d.silt.flash 1))))))

/-- 17 R392, R395 to R397, 01 R36: a failure of the Lockkeeper is a takeover; the third within 60 s, and one in start-up,
enters Dry. Cause 1, the watchdog, comes no earlier than 100 ms after the last kick. The end of a recovery unfreezes the
device, whose deadlines have stood still. -/
def Obligations.LockkeeperFailuresTakeOverOrEnterDry : Prop :=
  ∀ (s : State) (cause : Nat), Able (.lkkFail cause) s →
    let d0 := s.dev
    let d := if cause = 1 then d0.advance (d0.lkk.lastKick + 100000000) else d0
    let fails := (d.lkk.fails.filter fun t => decide (d.time.osc < t + 60 * 10 ^ 9)) ++ [d.time.osc]
    let n := fails.length
    let counted := (d.setLkk { d.lkk with fails, takeovers := sat32 (d.lkk.takeovers + 1) }).mark srcWeir
    let e := ((counted.2.putReg .lkkFailTime 0 counted.1).putReg .lkkFailCause 0 cause).siltAt srcWeir 0x0020 0 0 0 0xFFFF
      (pack16 [cause, n]) true
    let g := d0.startup.gen
    (g = .none ∨ g = .dry → Leaves (.lkkFail cause) s) ∧
    (g = .lkkBoot ∨ g = .memTrain ∨ g = .surveyLoad ∨ g = .headgateLoad → Runs (.lkkFail cause) s (e.enterDry 0x0020)) ∧
    (g = .ready ∨ g = .recovery →
      (3 ≤ n → Runs (.lkkFail cause) s (e.enterDry 0x0020)) ∧
      (n < 3 → Runs (.lkkFail cause) s (e.takeOver cause n))) ∧
    (g ≠ .recovery → Leaves .recoveryDone s) ∧
    (g = .recovery →
      let t := d0.time.frozenAt.getD d0.time.osc
      let lost := d0.time.osc - t
      let f := (d0.setTime { d0.time with frozenTotal := d0.time.frozenTotal + lost, frozenAt := none }).abandonSurvey
      let h := (f.setLkk { f.lkk with state := 1, lastKick := f.time.osc, pendingFence := [] }).setGen .ready srcLkk
      Runs .recoveryDone s ((h.siltEv srcLkk 0x0021 0 0 0 (h.time.osc - t)).unitRecord srcLkk 0x0235 []).pump)

/-! ### Management (17) -/

/-- 17 R396, R399, R401, R403: a message reaches the Lockkeeper through a binding that is up; a frozen device drops and counts
it; a malformed packet and an unknown type are recorded; the MCTP control, PLDM base and monitoring commands are
answered. The command and completion codes that the spec does not give are the model's (log entry 64). -/
def Obligations.ManagementCommandsAreAnswered : Prop :=
  ∀ (s : State) (b v : Nat), b < 3 → s.dev.dry = false →
    let d := s.dev
    let dropped := d.setLkk { d.lkk with dropped := sat32 (d.lkk.dropped + 1) }
    let up := d.frozen = false ∧ d.lkk.state = 1 ∧
      (if b = 0 then d.reg .lkkSmbEn 0 = 1 else (nth Port.init d.ports (b - 1)).linkUp = true)
    let answers (i : Instr) (e : Dev) : Prop :=
      (d.frozen = true → Runs i s dropped) ∧ (d.frozen = false → ¬ up → Leaves i s) ∧ (up → Runs i s e)
    let id := v % 256
    let eid := d.setLkk { d.lkk with eids := d.lkk.eids.set b id }
    let noId := id = 0 ∨ id = 0xFF
    answers (.mctpMalformed b) (d.mgmtRecord 0x0440) ∧ answers (.mctpType b) (d.mgmtRecord 0x0441) ∧
    (b = 0 → answers .smbusStuck (d.mgmtRecord 0x0446)) ∧
    (noId → answers (.setEndpointId b v) (d.respond b 0x01 2 []) ∧ answers (.setTid b v) (d.respond b 0x101 2 [])) ∧
    (¬ noId → answers (.setEndpointId b v) (eid.respond b 0x01 0 [id]) ∧
      answers (.setTid b v) ((d.setLkk { d.lkk with tid := id }).respond b 0x101 0 [])) ∧
    answers (.getEndpointId b) (d.respond b 0x02 0 [nth 0 d.lkk.eids b]) ∧
    answers (.getEndpointUuid b) (d.respond b 0x03 0 Config.uuid) ∧
    answers (.getMctpVersionSupport b) (d.respond b 0x04 0 [1, 3]) ∧
    answers (.getMessageTypeSupport b) (d.respond b 0x05 0 [0, 1]) ∧
    answers (.getTid b) (d.respond b 0x102 0 [d.lkk.tid]) ∧
    answers (.getPldmVersion ⟨b, 2⟩) (d.respond b 0x103 0 [1, 2]) ∧ answers (.getPldmVersion ⟨b, 5⟩) (d.respond b 0x103 0 [1, 1]) ∧
    (let n := Config.freeNat d.draw.1
     answers (.getPldmVersion ⟨b, 0⟩) (d.draw.2.respond b 0x103 0 [n % 256, n / 256 % 256])) ∧
    answers (.getPldmTypes b) (d.respond b 0x104 0 [0, 2, 5]) ∧
    answers (.getPldmCommands ⟨b, 0⟩) (d.respond b 0x105 0 [1, 2, 3, 4, 5]) ∧
    answers (.getPldmCommands ⟨b, 2⟩) (d.respond b 0x105 0 [0x04, 0x0A, 0x11, 0x21, 0x50, 0x51]) ∧
    answers (.getPldmCommands ⟨b, 5⟩) (d.respond b 0x105 0 [0x10, 0x13, 0x14, 0x1A, 0x1B, 0x1C, 0x1D]) ∧
    (v ≠ 0 → v ≠ 2 → v ≠ 5 → answers (.getPldmVersion ⟨b, v⟩) (d.respond b 0x103 0x83 []) ∧
      answers (.getPldmCommands ⟨b, v⟩) (d.respond b 0x105 0x83 [])) ∧
    answers (.errorUnsupportedPldmCmd b) (d.respond b 0x100 5 []) ∧
    answers (.getPdrRepositoryInfo b) (d.respond b 0x350 0 [sensorCount]) ∧
    (1 ≤ v → v ≤ sensorCount → answers (.getPdr b v) (d.respond b 0x351 0 [v])) ∧
    (v = 0 ∨ sensorCount < v → answers (.getPdr b v) (d.respond b 0x351 0x82 [])) ∧
    (∀ x, d.sensor v = some x → answers (.getSensorReading b v) (d.respond b 0x311 0 [x])) ∧
    (d.sensor v = none → answers (.getSensorReading b v) (d.respond b 0x311 0x80 [])) ∧
    answers (.getStateSensorReadings b sensorCount) (d.respond b 0x321 0 [d.startup.gen.code]) ∧
    (v ≠ sensorCount → answers (.getStateSensorReadings b v) (d.respond b 0x321 0x80 [])) ∧
    answers (.setEventReceiver b v) ((d.setLkk { d.lkk with receiver := some (b, v % 256) }).respond b 0x304 0 []) ∧
    answers (.platformEventMessage b) (d.respond b 0x30A 0 [])

/-- 17 R402, R403: one firmware update runs at a time, through its states, on one binding; a malformed command is
answered and recorded, one outside its state is not expected; an image that passes verification is activated by the
change of the active slot; an update with no command for 120 s ends. The codes are the model's (log entry 64). -/
def Obligations.FirmwareUpdatesRunThroughTheirStates : Prop :=
  ∀ (s : State) (b at_ off comp : Nat) (bytes : Bytes) (self : Bool), b < 3 → s.dev.dry = false →
    let d := s.dev
    let e := d.advance at_
    let u := d.lkk.update
    let kept := { u with lastReq := d.time.osc }
    let put (v : Update) : Dev := d.setLkk { d.lkk with update := v }
    let stored (fl : Flash) : Flash :=
      if u.component = 1 then { fl with lkkSlots := fl.lkkSlots.set (1 - fl.activeLkk) (some u.image) }
      else { fl with hgSlots := fl.hgSlots.set (1 - fl.activeHg) (some u.image) }
    let verified (l : List Nat) : Dev := ((put kept).modFlash stored).modUpdate fun v =>
      { v with state := 2, component := 0, image := [], verified := l }
    let ok (c : Nat) (x : Dev) : Dev := x.respond b (0x600 + c) 0 []
    let early (c : Nat) : Dev := (d.respond b (0x600 + c) 0x88 []).mgmtRecord 0x0443
    let bad (c : Nat) : Dev := (d.draw.2.respond b (0x600 + c) (if Config.freeBool d.draw.1 then 2 else 3) []).mgmtRecord 0x0442
    let isIn (st : Nat) : Prop := u.binding = b ∧ u.state = st
    (d.frozen = false → d.mctpUp b = true →
      (Runs (.requestUpdate b false) s (bad 0x10) ∧ Runs (.passComponentTable b false) s (bad 0x13) ∧
        Runs (.updateComponent b comp false) s (bad 0x14) ∧ Runs (.activateFirmware b false self) s (bad 0x1A)) ∧
      (u.state ≠ 0 → Runs (.requestUpdate b true) s (d.respond b 0x610 0x81 [])) ∧
      (u.state = 0 → Runs (.requestUpdate b true) s
        (ok 0x10 (put { Update.init with state := 1, binding := b, lastReq := d.time.osc }))) ∧
      (isIn 1 → Runs (.passComponentTable b true) s (ok 0x13 (put { kept with state := 2 }))) ∧
      (¬ isIn 1 → Runs (.passComponentTable b true) s (early 0x13)) ∧
      (isIn 2 → comp = 1 ∨ comp = 2 → Runs (.updateComponent b comp true) s
        ((put { kept with state := 3, component := comp, image := [] }).respond b 0x614 0 [0])) ∧
      (isIn 2 → comp ≠ 1 → comp ≠ 2 → Runs (.updateComponent b comp true) s ((put kept).respond b 0x614 0 [1])) ∧
      (¬ isIn 2 → Runs (.updateComponent b comp true) s (early 0x14) ∧ Runs (.activateFirmware b true self) s (early 0x1A)) ∧
      (isIn 2 → Runs (.activateFirmware b true true) s ((put kept).respond b 0x61A 0x8C []) ∧
        Runs (.activateFirmware b true false) s (ok 0x1A (((put kept).modFlash fun f => { f with
          activeLkk := if 1 ∈ u.verified then 1 - f.activeLkk else f.activeLkk
          activeHg := if 2 ∈ u.verified then 1 - f.activeHg else f.activeHg }).modUpdate fun _ => Update.init))) ∧
      (isIn 3 → Runs (.requestFirmwareData b off bytes) s (put { kept with image := imagePut u.image off bytes }) ∧
        Runs (.cancelUpdateComponent b) s (ok 0x1C (put { kept with state := 2, component := 0, image := [] })) ∧
        (d.firmwareCode u.component u.image = 0 → Runs (.verifyComplete b) s
          ((verified (u.verified.filter (· != u.component) ++ [u.component])).respond b 0x617 0 [0])) ∧
        (d.firmwareCode u.component u.image ≠ 0 → Runs (.verifyComplete b) s
          (((verified (u.verified.filter (· != u.component))).respond b 0x617 0 [1]).verifyFailed.mgmtRecord 0x0445))) ∧
      (¬ isIn 3 → Runs (.requestFirmwareData b off bytes) s (early 0x15) ∧ Runs (.verifyComplete b) s (early 0x17) ∧
        Runs (.cancelUpdateComponent b) s (early 0x1C)) ∧
      (isIn 1 ∨ isIn 2 ∨ isIn 3 → Runs (.cancelUpdate b) s (ok 0x1D (put Update.init))) ∧
      (¬ (isIn 1 ∨ isIn 2 ∨ isIn 3) → Runs (.cancelUpdate b) s (early 0x1D)) ∧
      (u.binding = b → Runs (.getStatus b) s ((put kept).respond b 0x61B 0 [u.state])) ∧
      (u.binding ≠ b → Runs (.getStatus b) s (d.respond b 0x61B 0 [u.state]))) ∧
    (e.lkk.update.state ≠ 0 → e.lkk.update.lastReq + 120 * 10 ^ 9 ≤ e.time.osc → Runs (.pldmUpdateTimeout at_) s
      ((e.setLkk { e.lkk with update := Update.init }).mgmtRecord 0x0444)) ∧
    (e.lkk.update.state = 0 ∨ e.time.osc < e.lkk.update.lastReq + 120 * 10 ^ 9 → Runs (.pldmUpdateTimeout at_) s e)

/-! ### Register writes (00) -/

/-- 00 R8, R13, 11 R257, 16 R380: a write of the host reaches the fields of its block's words, one after another; one of
another width or alignment is a violation, one through a port in Retry Status has no effect. A field that must not be
zero is left as it is by a zero, and the other fields of the same write take effect: each field's write stands apart. A
plain field takes the value, one with bounds the nearest bound. -/
def Obligations.RegisterWritesReachTheirFieldsAndZeroIsRefused : Prop :=
  ∀ (s : State) (fn off len : Nat) (data : DWord), fn < 1026 →
    let i : Instr := .registerWrite fn off len data
    let d := s.dev
    let slot := (window fn off).1
    let ws := wordsOf (window fn off).2 len data.toNat
    let aligned := (len = 4 ∨ len = 8) ∧ off % len = 0
    let fields := Reg.all.filter fun r => r.info.slot == slot && !r.commanded
    (d.deaf fn = true → Leaves i s) ∧
    (d.deaf fn = false → d.dry = false → ¬ aligned → Runs i s (d.violation fn 0x0401)) ∧
    (d.deaf fn = false → aligned → msixAt fn ≤ off → Runs i s
      ((wordsOf (off - msixAt fn) len data.toNat).foldl (fun e w => e.msixWrite fn w.1 w.2) d)) ∧
    (d.deaf fn = false → d.dry = false → aligned → off < msixAt fn → slot ∉ [1, 6, 7, 9, 15, 16, 17, 18, 19, 21, 22, 24, 25] →
      Runs i s (fields.foldl (fun e r => e.writeReg fn ws r) d)) ∧
    (∀ (e : Dev) (r : Reg), r.info.nz = true →
      (∀ b old, merged ws b r.info.lo r.info.width old false = none ∨ merged ws b r.info.lo r.info.width old false = some 0) →
      e.writeReg fn ws r = e) ∧
    (∀ (e : Dev) (r : Reg) (c v : Nat), v < 2 ^ r.info.width → r.info.type ≠ .rw1c → r.multiple = 1 → r.info.width ≤ 64 →
      (r.info.nz = false → r.info.bound = .none → (e.writeField r c v).reg r c = v) ∧
      (v ≠ 0 → r.info.bound = .near → (e.regRange r c).2 < 2 ^ r.info.width → (e.regRange r c).1 < 2 ^ r.info.width →
        (e.writeField r c v).reg r c = max (e.regRange r c).1 (min (e.regRange r c).2 v)))

/-! ### Time marks, memory and errors (00, 11, 17) -/

namespace Sys2Proof.Claims

/-- What a sequence of events, each at an oscillator instant and of a source, is marked with. -/
def stamped (d : Dev) : List (Nat × Nat) → List (Nat × Nat)
  | [] => []
  | e :: r => (((d.advance e.1).mark e.2).1, e.2) :: stamped ((d.advance e.1).mark e.2).2 r

end Sys2Proof.Claims

/-- 00 R15: the marks of one source rise strictly, whatever other sources do and however time advances between its
events; a second event in the same nanosecond takes the next one; a pair (mark, source) never comes twice. -/
def Obligations.TimeMarksAreUniqueForEachSource : Prop :=
  (∀ (d : Dev) (l : List (Nat × Nat)), (stamped d l).Nodup) ∧
  (∀ (d : Dev) (l : List (Nat × Nat)) (src : Nat),
    ((stamped d l).filter fun x => x.2 == src).Pairwise fun x y => x.1 < y.1) ∧
  (∀ (d : Dev) (src : Nat), ((d.mark src).2.mark src).1 = (d.mark src).1 + 1) ∧
  (∀ k < 256, srcCore k < 2 ^ 16 ∧ srcSteward k < 2 ^ 16 ∧ srcHeadgate k < 2 ^ 16 ∧ srcFlume k < 2 ^ 16 ∧ srcCfl k < 2 ^ 16 ∧
    srcDiv k < 2 ^ 16 ∧ srcGauge k < 2 ^ 16 ∧ srcMem k < 2 ^ 16 ∧ srcCxl k < 2 ^ 16 ∧ srcDma k < 2 ^ 16 ∧
    srcGate k < 2 ^ 16 ∧ srcRing k < 2 ^ 16) ∧
  srcTime < 2 ^ 16 ∧ srcLkk < 2 ^ 16 ∧ srcWeir < 2 ^ 16 ∧ srcSec < 2 ^ 16 ∧ srcAllot < 2 ^ 16 ∧ srcPower < 2 ^ 16

/-- 11 R255, R261: every byte of memory reads as what was last written to it, a scrubbed one as zero, every other byte as
before; and the memory keeps its one form. That an unwritten byte reads 0 is the model's choice (log entry 66). -/
def Obligations.MemoryReadsBackWhatWasWritten : Prop :=
  Memory.wf State.reset.dev.mem = true ∧
  ∀ (d : Dev) (a n : Nat) (bs : Bytes),
    (Memory.wf d.mem = true → Memory.wf (d.write a bs).mem = true ∧ Memory.wf (d.scrub a n).mem = true) ∧
    (∀ b, (a ≤ b → b < a + bs.length → some ((d.write a bs).byte b) = bs[b - a]?) ∧
      (b < a ∨ a + bs.length ≤ b → (d.write a bs).byte b = d.byte b)) ∧
    (∀ b, (a ≤ b → b < a + n → (d.scrub a n).byte b = 0) ∧
      (b < a ∨ a + n ≤ b → (d.scrub a n).byte b = d.byte b)) ∧
    (d.write a bs).read a bs.length = bs

/-- 11 R258: the interleave of a district places its addresses one to one on the members of its set: each address lies
on a member, in a half and at an offset of that half, and no two share a place. -/
def Obligations.InterleaveIsOneToOne : Prop :=
  ∀ (set : List Nat), set.Nodup →
    (∀ a, a / homeBytes ∈ set → (locate a set).1 ∈ set ∧ (locate a set).2.1 < homeBytes ∧ (locate a set).2.2.1 < 2 ∧
      2 * (locate a set).2.2.2 < homeBytes) ∧
    (∀ a b, a / homeBytes ∈ set → b / homeBytes ∈ set → (locate a set).1 = (locate b set).1 →
      ((locate a set).2.1 = (locate b set).2.1 → a = b) ∧
      ((locate a set).2.2.1 = (locate b set).2.2.1 → (locate a set).2.2.2 = (locate b set).2.2.2 → a = b)) ∧
    (∀ a b, a / homeBytes ∈ set → a / chunkBytes = b / chunkBytes → (locate a set).1 = (locate b set).1)

/-- 17 R383: a corrected error counts in its unit; the counts 1, 16, 256, 4,096 and 65,536 each write one Silt entry
CE_THRESHOLD into the slot of its sequence number; and no error record is written. -/
def Obligations.CorrectedErrorsCountAndMarkTheirThresholds : Prop :=
  ∀ (d : Dev) (kind u n : Nat),
    let a := (d.unit kind u).ce
    let steps : List Nat := [1, 16, 256, 4096, 65536]
    let b := min (a + n) (2 ^ 32 - 1)
    let e := d.countCe kind u n
    let old := d.silt.next
    e.unit kind u = { d.unit kind u with ce := b } ∧
    (∀ k v, unitKey k v ≠ unitKey kind u → e.unit k v = d.unit k v) ∧
    e.errs = d.errs ∧ e.out = d.out ∧ e.mem = d.mem ∧ e.regs = d.regs ∧
    e.silt.next = old + (steps.filter fun t => decide (a < t ∧ t ≤ b)).length ∧
    (n = 1 → a + 1 ∉ steps → e.silt = d.silt) ∧
    (n = 1 → a + 1 ∈ steps → ∃ m : Nat, e.silt = { d.silt with
      next := old + 1
      ring := Tbl.set none d.silt.ring (old % 8192) (some
        { mark := m, seq := old % 2 ^ 32, source := srcLkk, event := 0x0010, status := 0, kind, flags := 0, unit := u
          ctx := 0xFFFF, detail := a + 1 }) })

/-! ### Reset and Dry (00, 14, 17) -/

/-- 00 R5, 02 R48, 14 R336, 17 R396: after a cold reset no command waits, no image is staged or committed, no memory is
listed, every stored register field holds its Reset column, and every Sluice is EMPTY with its binding of Table 14-9. -/
def Obligations.ResetLeavesTheResetColumns : Prop :=
  let d := State.reset.dev
  let bound (sl x y : Nat) : Prop :=
    (d.sluice sl).sender = x ∧ (d.sluice sl).receiver = y ∧ (d.sluice sl).full = false
  State.reset.pending = [] ∧ d.startup.gen = .none ∧ d.survey.staged = none ∧ d.survey.committed = none ∧ d.survey.cmd = none ∧ d.mem = [] ∧
    d.orders = [] ∧ d.time.cnt = 0 ∧ d.frozen = false ∧
    (∀ r i, r.resetOf i < 2 ^ 64 → d.reg r i = r.resetOf i) ∧
    (∀ fn pair, (d.ring fn pair).state = .disabled) ∧
    (∀ t, t < 1024 → bound t t (0x500 + t / 128)) ∧ bound 1024 0x400 0x600 ∧ bound 1025 0x401 0x600 ∧
    bound 1026 0x400 0x500 ∧ bound 1027 0x401 0x506 ∧ (∀ h, h < 8 → bound (1028 + h) (0x500 + h) 0x600) ∧
    (∀ k, k < 4 → bound (1036 + k) 0xFFFF 0xFFFF)

namespace Sys2Proof.Claims

/-- Run n steps; none where one stops. -/
def runSteps : Nat → State → Option State
  | 0, s => some s
  | n + 1, s => match step s with
    | .next t => runSteps n t
    | .fault _ => none
    | .refused _ => none

/-- The commands that may leave Dry: a FULL reset, by its own row, by the pin or by a write of LKK_RESET, and the loss of
both supplies (17 R398, 16 R361). -/
def mayLeaveDry : Instr → Bool
  | .full _ => true
  | .fullResetN _ => true
  | .supplyLoss _ _ => true
  | .registerWrite fn off _ _ => isPf fn && (window fn off).1 == 25
  | _ => false

/-- The device is in Dry behind its power-up, and no command that waits may leave it. -/
abbrev InDry (s : State) : Prop := s.dev.dry = true ∧ 3 ≤ s.dev.startup.stage ∧ ∀ c ∈ s.pending, mayLeaveDry c = false

end Sys2Proof.Claims

/-- 17 R397, R398: Dry is left only by FULL or by the loss of both supplies: any other step from Dry leaves the device in
Dry, and it does no work: memory, orders, rings, Gates, contexts, districts, fields and cores stand as they stood. -/
def Obligations.DryIsLeftOnlyByFullOrSupplyLoss : Prop :=
  ∀ s t : State, InDry s → step s = .next t →
    InDry t ∧ t.dev.mem = s.dev.mem ∧ t.dev.orders = s.dev.orders ∧ t.dev.rings = s.dev.rings ∧ t.dev.gates = s.dev.gates ∧
      t.dev.ctxs = s.dev.ctxs ∧ t.dev.dists = s.dev.dists ∧ t.dev.fields = s.dev.fields ∧ t.dev.cores = s.dev.cores

/-- Every command answers a next state and never touches the queue; one that names a unit the device does not have leaves
the device as it is (the model's choice, log entry 115). So a device never stops: after any number of steps from any state,
the first commands have left the queue in order, and the rest wait. -/
def Obligations.AWellFormedQueueRunsToItsEnd : Prop :=
  (∀ (i : Instr) (s : State),
    (∃ d : Dev, exec i s = .next { s with dev := d }) ∧ (i.wf = false → exec i s = .next s)) ∧
  Safety.QueueWf State.reset ∧
  ∀ (n : Nat) (s : State),
    ∃ t, runSteps n s = some t ∧ t.pending = s.pending.drop n ∧ (Safety.QueueWf s → Safety.QueueWf t)
end

