-- ==== Sys2Proof/Laws/Ops.lean ====
section
/-!
SUPPORT. What the three shapes of a command can answer: a command on the device, a write of the host, and a command
that Dry does not stop. Each answers a next state that keeps the queue; one that names no unit changes nothing.
-/
namespace Sys2Proof.Machine

variable {i : Instr} {s : State} {f : Dev → Dev} {fn : Nat}

theorem live_ok (hw : i.wf = true) (hd : s.dev.dry = false) : live i s f = .next { s with dev := f s.dev } := by
  simp [live, hw, hd]

theorem live_dry (hw : i.wf = true) (hd : s.dev.dry = true) : live i s f = .next s := by simp [live, hw, hd]

theorem live_bad (hw : i.wf = false) : live i s f = .next s := by simp [live, hw]

theorem live_next (hw : i.wf = true) : ∃ d, live i s f = .next { s with dev := d } := ⟨_, if_pos hw⟩

theorem always_ok (hw : i.wf = true) : always i s f = .next { s with dev := f s.dev } := if_pos hw

theorem always_bad (hw : i.wf = false) : always i s f = .next s := by simp [always, hw]

theorem always_next (hw : i.wf = true) : ∃ d, always i s f = .next { s with dev := d } := ⟨_, if_pos hw⟩

theorem hosted_ok (hw : i.wf = true) (hd : s.dev.dry = false) (hf : s.dev.deaf fn = false) :
    hosted fn i s f = .next { s with dev := f s.dev } := by simp [hosted, live, hw, hd, hf]

/-- 16 R380: a write through a port that answers Retry Status is discarded. -/
theorem hosted_deaf (hw : i.wf = true) (hf : s.dev.deaf fn = true) : hosted fn i s f = .next s := by
  cases hd : s.dev.dry <;> simp [hosted, live, hw, hf, hd]

theorem hosted_dry (hw : i.wf = true) (hd : s.dev.dry = true) : hosted fn i s f = .next s := live_dry hw hd

theorem hosted_bad (hw : i.wf = false) : hosted fn i s f = .next s := live_bad hw

theorem hosted_next (hw : i.wf = true) : ∃ d, hosted fn i s f = .next { s with dev := d } := live_next hw

end Sys2Proof.Machine
end

