-- ==== Sys2Proof/Machine/Pins.lean ====
section
/-!
DEFINITION. The pins that the module drives, as functions of its state (18 R413, R414, R416): none while a pin floats,
else whether it is high or released.
-/
namespace Sys2Proof.Machine

/-- The module has its supply: its start-up has begun (16 R377). -/
def Dev.powered (d : Dev) : Bool := d.startup.stage != 0

/-- DRY_N: low while GEN_STATE is DRY; floating while the module is unpowered. -/
def Dev.dryN (d : Dev) : Option Bool := if d.powered then some !d.dry else none

/-- THERM_N: low while any terrace reads at or above RAS_THERMAL.WARN_C; floating while the module is unpowered. -/
def Dev.thermN (d : Dev) : Option Bool :=
  if d.powered then some ((d.lkk.temps.take 4).all fun t => decide (t < d.reg .rasWarn 0)) else none

/-- CXL_PERST_n_N: low until start-up stage 6 begins, and while the return test of port n resets it before it links
again (17 R388). -/
def Dev.cxlPerstN (d : Dev) (n : Nat) : Option Bool :=
  if d.powered then some (decide (6 ≤ d.startup.stage) && (d.unit kCxl n).state != .testing) else none

/-- SMB_CLK and SMB_DAT are driven: the firmware of the Lockkeeper runs, from stage 3 on. -/
def Dev.smbDriven (d : Dev) : Bool := decide (3 ≤ d.startup.stage) && d.lkk.state == 1

end Sys2Proof.Machine
end

