-- ==== Sys2Proof/Tests/Slice0.lean ====
section
/-!
SUPPORT. The author's own tests: an ill-formed command of each kind that the check refuses, a state and operands that
meet the hypotheses of each statement (and of each of its clauses, at the ends of their ranges), and single steps whose
results the spec gives.
-/
open Sys2Proof Sys2Proof.Machine Sys2Proof.Claims
namespace Sys2Proof.Tests
set_option Elab.async false

/-! ### Small devices -/

/-- A district of a role with one field, one device and Gates 256 to 319. -/
def ent (role : Nat) : DistEnt :=
  { role, requireRunnel := false, fieldMask := 1, deviceMask := 1, wayMask := 1, flumeShare := 1, conflShare := 1,
    cisternResMib := 0, cisternSpillGib := 0, scratchMib := 0, cxl := [], maxBasinLent := 2, minBasinPrefill := 0,
    maxRunnelLent := 2, minRunnelDecode := 0, contW := 100, floorW := 10, opMin := 0, gateFirst := 256, gateCount := 64,
    perTenantMax := 16, pinBudgetGib := 1, stagingGib := 0, backing := 2, drySteps := 4, crushPerMille := 10,
    ratioHi := 0, mode := 0, convNan := 0, scaleDivLog2 := 0, nonfinite := 0, raiseSteps := 0, initScaleLog2 := 0,
    deadlineUs := 100, deadlineMaxUs := 100 }

/-- District 0 trains on field 0 for tenant 0; district 1 serves on field 1 for tenant 1. -/
def image : Image :=
  { serial := 1, bound := false, deviceBind := 0, policyId := 0, signerKey := 0, districts := [(0, ent 1), (1, ent 2)],
    tenants := [(0, { district := 0, weight := 1, quotaGib := 1, energyW := 100 }),
      (1, { district := 1, weight := 1, quotaGib := 1, energyW := 100 })],
    plan := List.replicate 4 PlanEnt.none, clock := [(1000, 800), (500, 700)], rotation := none }

/-- A device that is READY, its Lockkeeper running, with nothing committed. -/
def bare : Dev := (Dev.reset.setStartup { Startup.init with gen := .ready, stage := 9, availCores := 2 ^ 256 - 1 }).setLkk { Lkk.init with state := 1 }

/-- Where the tenants' 64 KiB stand in their memory, and in that of device x. -/
def va : Nat := 0x20000000000
def phys (x : Nat) : Nat := x * homeBytes + 0x200000

/-- The same with the two districts, their four contexts resident in slots 0 to 3, and fields 0 and 1 active. -/
def ready : Dev :=
  let ctx (n : Nat) : Ctx := { Ctx.init with state := .runnable, slot := n, keyGen := 1 }
  let map (x : Nat) : Mapping := { va, bytes := 0x10000, phys := phys x, page := 4096, write := true, fixed := false }
  let b := ((bare.setSurvey { Survey.init with committed := some image, committedSerial := 1 }).setDists
    [(0, { Dist.init with state := .active, ent := some (ent 1), fields := 1, devices := [0] }),
     (1, { Dist.init with state := .active, ent := some (ent 2), fields := 2, devices := [1] })]).setCtxs
      [(0, { ctx 0 with maps := [map 0] }), (1, { ctx 1 with maps := [map 1] }), (1024, ctx 2), (1025, ctx 3)]
  (((b.putReg .intQuota 0 1).putReg .intQuota 1 1).setFields [(0, { Field.init with state := .active, district := some 0 }),
    (1, { Field.init with state := .active, district := some 1 })]).setDevs
      [(0, { MemDev.init with state := .active }), (1, { MemDev.init with state := .active })]

def at_ (d : Dev) : State := { pending := [], dev := d }

/-- An order of a function's first ring, dispatched. -/
def ord (fn op : Nat) (body : Bytes) : Order :=
  { id := ⟨fn, 0, 0⟩, mark := 1, opcode := op, flags := 0, cond := 0, ctx := fn, tag := 0, energyUj := 0, waitGate := 0,
    sigGate := 0, sigValue := 0, waitValue := 0, body := body ++ List.replicate (32 - body.length) 0, raw := [],
    phase := .dispatched, dispatched := true, since := 0, checked := true, released := false, status := 0, noop := false, records := false, charged := 0,
    source := 0, fieldsLeft := [], orphan := false, abandoned := 0 }

/-- The ready device with one order. -/
def withOrd (o : Order) : Dev := ready.setOrders [o]

/-! ### Commands that name no unit -/

/-- One ill-formed command for each check of WellFormed, at the first value that it refuses. -/
theorem test_ill_formed_commands_are_refused :
    let l : List Instr :=
      [.pcieBarMiss 1026, .orderDispatch 0 8, .orderDispatch 1025 64, .dmaOrder ⟨1023, 8, 0⟩, .perstAssert 2, .decodeStep 16,
       .droopEngage 16, .fnop 15 4, .nop 256, .tload ⟨256, []⟩, .selftestPiece 0 [16] true 0, .coreDmaDone 255 16 [],
       .teardownDone 1040, .vfFunctionLevelReset 1024, .selfRefresh 32, .ping 1040, .getTid 3, .getPldmVersion ⟨3, 0⟩,
       .hgWatchdog 8, .thermalCrit 4 0, .thermalWarn 5 0, .cxlMalformed 4, .flumeSlotTake 3 8, .diversionJobEnd 3 4,
       .flumeSlotDone 3 4, .expertReady 3 3 4096, .instructionDone 255 5 [], .stageLimit 9 0, .cacheLoadDone 131072 true [],
       .rotationLead ⟨4096, 0⟩, .slcMsgWrite 0 0 0 2 0, .slcMsgWrite 0 0 16 4 0, .slcSend 65536 0 0,
       .pcieCplTimeout (.ringFetch 0 8), .pcieCplError (.order ⟨1026, 0, 0⟩), .pcieCplError (.security 1026),
       .waitRelease (.order ⟨0, 8, 0⟩), .waitRelease (.core 256), .waitRelease (.dma 0 16), .waitRelease (.steward 0 4),
       .waitRelease (.inst 16 0 0 0 0), .waitRelease (.instDma 0 0 0 0 0 16),
       .cxlPoison 0 (.core 0 16), .cxlPoison 0 (.order ⟨0, 8, 0⟩), .cxlPoison 0 (.context 1040),
       .chargePost (.slot 16 0 0), .chargePost (.memory 16 0), .chargePost (.idle 16 0)]
    l.all (fun i => !i.wf) = true := by decide +kernel

/-- Log entry 115: a command that names a core the device does not have reaches none. -/
theorem test_an_ill_formed_command_reaches_no_unit : exec (.nop 256) (at_ ready) = .next (at_ ready) := rfl

/-- No word spells a command: the table gives its rows no bits. -/
theorem test_no_word_spells_a_command : decodeTableWord 0 0 = none ∧ decodeTableWord 64 1 = none := ⟨rfl, rfl⟩

/-! ### Values that the spec gives -/

/-- 12 Table 12-4: GE32 compares modulo 2³²; the next reserved condition holds never and is refused. -/
theorem test_conditions :
    condHolds 0 5 5 = true ∧ condHolds 1 5 5 = true ∧ condHolds 2 5 5 = false ∧ condHolds 3 5 5 = false ∧
    condHolds 4 1 0xFFFFFFFF = true ∧ condHolds 4 0x7FFFFFFF 0xFFFFFFFF = false ∧ condOk 4 = true ∧ condOk 5 = false := by
  decide

/-- 10 Table 10-3: the positions and masks of a tree. -/
theorem test_tree_masks :
    let node (x : Nat × Nat) : Bytes := le 4 x.1 ++ le 1 x.2 ++ zeros 3
    let b := le 1 6 ++ zeros 15 ++ [(17, 0xFF), (905, 0xFF), (44, 0), (3021, 0), (8, 2), (512, 3)].flatMap node
    rowPlan 4099 (treeOf b 8 4096) = [some (4099, 0), some (4100, 1), some (4100, 2), some (4101, 5), some (4101, 9),
      some (4102, 0x15), some (4102, 0x29)] := by decide +kernel

/-- 10 R252, 03 R68: 1 + 2⁻⁸ is a tie and goes to 1; the largest BF16 value twice overflows to infinity with 0x0645. -/
theorem test_merged_weights :
    let v (n : Nat) : Val := decodeElem .bf16 n
    mergeRow [v 0x3F80, v 0x3F80, v 0x7F7F] [v 0x3B80, v 0x7F7F] 1 = ([v 0x3F80, v 0x3F80, v 0x7F80], [5]) := by
  decide +kernel

/-- 15 R349: SHAKE256 of no bytes begins as FIPS 202 has it. -/
theorem test_shake256_of_nothing : shake256 [] 4 = [0x46, 0xB9, 0xDD, 0x2B] := by decide +kernel

/-- 18 R415: a low of 9.5 ms with a high of 0.5 ms and a low of 1 ms is one low of 11 ms; with a high of 1 ms it is none;
a low of 0.9 ms begins nothing. -/
theorem test_full_reset_pin :
    resetAsked none [(9500000, 500000), (1000000, 0)] = true ∧ resetAsked none [(9500000, 1000000), (1000000, 0)] = false ∧
    resetAsked none [(900000, 100000), (9500000, 0)] = false ∧ resetAsked none [(10000000, 0)] = true := by decide

/-- 18 Table 18-4: the output pins of an unpowered, a ready and a hot module (WARN_C resets to 0x5F). -/
theorem test_output_pins :
    Dev.reset.dryN = none ∧ ready.dryN = some true ∧ ready.thermN = some true ∧
    (ready.setLkk { ready.lkk with temps := [0, 0, 95, 0, 0] }).thermN = some false ∧
    (ready.setLkk { ready.lkk with temps := [0, 0, 0, 0, 95] }).thermN = some true ∧
    ready.cxlPerstN 3 = some true ∧ ready.smbDriven = true ∧ Dev.reset.smbDriven = false := by decide

/-- 03 R74, 04 R102: FP32 arithmetic. 1 + 2, 1 × −2, 1 ÷ 4, √9, and the infinities' difference, a NaN. -/
theorem test_vector_arithmetic :
    (finish32 false (Val.add (decodeElem .fp32 0x3F800000) (decodeElem .fp32 0x40000000))).1 = 0x40400000 ∧
    (finish32 false (Val.mul (decodeElem .fp32 0x3F800000) (decodeElem .fp32 0xC0000000))).1 = 0xC0000000 ∧
    (finish32 false (Val.div (decodeElem .fp32 0x3F800000) (decodeElem .fp32 0x40800000))).1 = 0x3E800000 ∧
    (finish32 false (Val.sqrt (decodeElem .fp32 0x41100000))).1 = 0x40400000 ∧
    (finish32 false (Val.add (decodeElem .fp32 0x7F800000) (decodeElem .fp32 0xFF800000))).1 = 0x7FC00000 := by decide +kernel

/-- 00 R15: two events of one source in one nanosecond; 04 R97: a fifth LOOP; 04 R90: a pointer wraps at 2²². -/
theorem test_marks_and_pointers :
    (ready.mark 5).1 = 0 ∧ ((ready.mark 5).2.mark 5).1 = 1 ∧ ((ready.mark 5).2.mark 6).1 = 0 ∧
    (2 ^ 22 - 1 + 1) % 2 ^ 22 = 0 := by decide +kernel

/-- 02 R49, 14 Table 14-9: the bindings of the last tenant's Sluice and of the Headgates'. -/
theorem test_sluice_bindings :
    ((State.reset.dev.sluice 1023).sender, (State.reset.dev.sluice 1023).receiver) = (1023, 0x507) ∧
    ((State.reset.dev.sluice 1035).sender, (State.reset.dev.sluice 1035).receiver) = (0x507, 0x600) := by decide +kernel

/-! ### The queue, rings and orders -/

theorem wit_StepRunsTheFrontCommand :
    step { at_ bare with pending := [.watchdogKick, .flashCopy] } =
      exec .watchdogKick { at_ bare with pending := [.flashCopy] } := rfl

theorem wit_EmptyQueueCountsOneNanosecond :
    State.reset.pending = [] ∧ State.reset.dev.time.hold = none ∧ State.reset.dev.time.slew = 0 := by decide

/-- A ring pair of tenant 0 in a state, with nothing fetched or written. -/
def ringed (st : RingState) : Dev := ready.putRing 0 0 { Ring.init with state := st }

/-- HR_TAIL at the last value that the ring holds, one further, and on a ring that may not be rung; TR_HEAD likewise. -/
theorem wit_DoorbellsMoveTheirCountsOrFault :
    HostAble 0 (.hrTail 0 0 16) (at_ (ringed .active)) ∧ HostAble 0 (.trHead 0 0 1) (at_ (ringed .active)) ∧
    ((ringed .active).ring 0 0).state = .active ∧ (ringed .active).hrEntries 0 0 = 16 ∧
    ¬ 16 < w32 (16 + 2 ^ 32 - ((ringed .active).ring 0 0).fetched) ∧
    16 < w32 (17 + 2 ^ 32 - ((ringed .active).ring 0 0).fetched) ∧
    ((ringed .active).ring 0 0).written < 1 ∧ ¬ ((ringed .active).ring 0 0).written < 0 ∧
    HostAble 1025 (.hrTail 1025 63 0) (at_ ready) ∧ (ready.ring 1025 63).state = .disabled ∧
    ((ringed .resetting).ring 0 0).state = .resetting ∧ HostAble 0 (.pcieDoorbell 0 0 1 4) (at_ ready) := by decide +kernel

/-- A full request ring with room for one completion; an order that may be dispatched, and one that has ended. -/
theorem wit_OrdersAreFetchedDispatchedAndCompleted :
    let d := ready.putRing 0 0 { Ring.init with state := .active, hrTail := 16 }
    let bytes := List.replicate 64 0
    let r := d.ring 0 0
    let o := { ord 0 opDma [] with phase := .fetched }
    let e := withOrd o
    let x := { ord 0 opDma [] with phase := .ended }
    let h := ready.putRing 0 0 { Ring.init with state := .active, deferred := true, lastFire := some 5 }
    (Able (.orderFetch 0 0 bytes) (at_ d) ∧ d.ready = true ∧ r.state = .active ∧ 0 < w32 (r.hrTail + 2 ^ 32 - r.fetched) ∧
      w32 (r.hrTail + 2 ^ 32 - r.fetched) = d.hrEntries 0 0 ∧
      d.ringLive 0 0 + w32 (r.written + 2 ^ 32 - r.trHead) < d.trEntries 0 0) ∧
    (Able (.orderDispatch 0 0) (at_ e) ∧ e.front 0 0 = some o ∧ e.hgUp o.ctx = true ∧ o.checked = true ∧
      e.waitOver o = true ∧ e.fenceOver o = true ∧ e.mayStart o.ctx = true ∧ e.drainCode o = 0) ∧
    (Able (.orderComplete x.id) (at_ (withOrd x)) ∧ (withOrd x).order? x.id = some x ∧ x.phase = .ended ∧
      x.orphan = false) ∧
    (Able (.holdoffExpiry 0 0 5) (at_ h) ∧
      5 + 1000 * (h.advance 5).reg .hifHoldoff (ringKey 0 0) ≤ (h.advance 5).time.osc) := by decide +kernel

theorem wit_OrderHeaderStandsAsTable14_3 :
    (List.replicate 32 (255 : Nat)).length = 32 ∧ 0xFF < 2 ^ 8 ∧ 0xFFFF < 2 ^ 16 ∧ 0xFFFFFFFF < 2 ^ 32 ∧
    0xFFFFFFFFFFFFFFFF < 2 ^ 64 := by decide

theorem wit_RingControlStartsDrainsAndAborts :
    let on : Word := 0x80000000
    let stop : Word := 0xC0000000
    (HostAble 0 (.ringEnable 0 0 on) (at_ ready) ∧ bit on.toNat 31 = true ∧ bit on.toNat 30 = false ∧
      (ready.ring 0 0).state = .disabled) ∧
    ((ringed .draining).ring 0 0).state = .draining ∧ HostAble 0 (.ringEnable 0 0 on) (at_ (ringed .draining)) ∧
    (HostAble 0 (.ringDisable 0 0 0) (at_ (ringed .active)) ∧ bit (0 : Word).toNat 31 = false ∧
      ((ringed .error).ring 0 0).state = .error) ∧
    (HostAble 0 (.abort 0 0 stop) (at_ (ringed .active)) ∧ bit stop.toNat 31 = true ∧ bit stop.toNat 30 = true) ∧
    (HostAble 0 (.errorRingEnable 0 0x104) (at_ ready) ∧ ready.reg .hifErrEnable 0 = 0) ∧
    HostAble 0 (.errorRingEnable 0 0) (at_ (ready.putReg .hifErrEnable 0 1)) ∧
    (ready.putReg .hifErrEnable 0 1).reg .hifErrEnable 0 = 1 := by decide +kernel

/-! ### Sluices -/

/-- Sluice 1024 (physical function A to the Lockkeeper) with a header, EMPTY or FULL. -/
def sluiced (full : Bool) (command length : Nat) : Dev :=
  ready.putSluice 1024 { ready.sluice 1024 with
    msg := (command + 2 ^ 16 * length) :: List.replicate 15 0, full }

theorem wit_SluiceWritesAndSendsFollowR338 :
    let e := sluiced false 1 0
    let f := sluiced true 1 0
    let down := e.setLkk { e.lkk with state := 2 }
    ready.dry = false ∧ ready.deafMaster 0x400 = false ∧
    ((e.sluice 1024).bound 0x400 = true ∧ (e.sluice 1024).full = false) ∧
    ((f.sluice 1024).bound 0x400 = true ∧ (f.sluice 1024).full = true) ∧
    ((e.sluice 1024).bound 0x401 = false) ∧ ((e.sluice 1039).bound 65535 = false ∨ (e.sluice 1039).bound 0 = false) ∧
    ((sluiced false 1 60).sluice 1024).length = 60 ∧ ((sluiced false 1 61).sluice 1024).length = 61 ∧
    ((sluiced false 0 0).sluice 1024).command = 0 ∧ e.receiverDown (e.receiverOf (e.sluice 1024)) = false ∧
    down.receiverDown (down.receiverOf (down.sluice 1024)) = true ∧
    (let dry := e.setStartup { e.startup with gen := .dry }
     dry.dry = true ∧ (dry.sluice 1024).bound 0x400 = true ∧ (dry.sluice 1024).full = false) := by decide +kernel

/-- Row by row: a 64-bit write at word 15 is misaligned, at word 14 it is not; a write that no sender is bound for. -/
theorem test_message_words_are_aligned :
    exec (.slcMsgWrite 0x400 1024 15 8 0) (at_ ready) = .next (at_ (ready.sluiceRecord 0x400 0x0401)) ∧
    exec (.sluiceUnbound 0x401 1024) (at_ ready) = .next (at_ (ready.sluiceRecord 0x401 0x0413)) := ⟨rfl, rfl⟩

theorem wit_SluiceTakesAndTimeoutsAcknowledge :
    let p := sluiced true 1 0
    let k := sluiced true 0x0105 0
    let u := sluiced true 0x0106 0
    let x := k.sluice 1024
    let again := k.putSluice 1024 { x with lastTaken := some (x.seq, x.msg) }
    ((p.sluice 1024).full = true ∧ (p.sluice 1024).command = 1 ∧ (p.sluice 1024).length = 0) ∧
    ((u.sluice 1024).full = true ∧ (u.sluice 1024).command = 0x0106) ∧
    (x.full = true ∧ x.receiver = 0x600 ∧ x.command = 0x0105 ∧ x.lastTaken ≠ some (x.seq, x.msg)) ∧
    ((again.sluice 1024).lastTaken = some (x.seq, x.msg)) ∧ ((sluiced true 0x0101 4).sluice 1024).command = 0x0101 ∧
    (let limit := x.sentAt + 1000000 * k.reg .slcTimeout 0
     limit ≤ (k.advance limit).time.osc ∧ (k.advance (limit - 1)).time.osc < limit) ∧
    (refusalCodes.any fun r => decide (r.1 ≤ 0x0101 ∧ 0x0101 ≤ r.2)) = true ∧
    (refusalCodes.any fun r => decide (r.1 ≤ 0x0106 ∧ 0x0106 ≤ r.2)) = false := by decide +kernel

/-! ### The PCIe ports -/

theorem wit_PcieViolationsAreAnswered :
    let d := ready.putRing 0 0 { Ring.init with state := .active, hrTail := 1 }
    let x := { ord 0 opDma [0, 0, 3] with phase := .running }
    Able (.pcieBarMiss 1025) (at_ ready) ∧ Able (.pcieMalformed 0) (at_ ready) ∧ ready.deaf 0 = false ∧
    ¬ ((4 = 4 ∨ 4 = 8) ∧ 2 % 4 = 0) ∧ ¬ ((2 = 4 ∨ 2 = 8) ∧ 2 % 2 = 0) ∧
    (Able (.pcieCplTimeout (.ringFetch 0 0)) (at_ d) ∧ d.mayFetch 0 0 = true) ∧
    (Able (.pcieCplTimeout (.order x.id)) (at_ (withOrd x)) ∧ (withOrd x).order? x.id = some x ∧ x.opcode = opDma ∧
      x.phase = .running) := by decide +kernel

theorem wit_FunctionsAndPortsResetAndComeUp :
    let d := ready.setPorts [{ Port.init with perstReleased := true }, Port.init]
    Able (.vfFunctionLevelReset 1023) (at_ ready) ∧ Able (.pfFunctionLevelReset 1) (at_ ready) ∧
    Able (.vfEnableClear 1) (at_ ready) ∧ (ready.startup.gen = .ready) ∧ Dev.reset.startup.gen = .none ∧
    ((nth Port.init d.ports 0).perstReleased = true ∧ (nth Port.init d.ports 0).linkUp = false ∧
      2 ≤ d.startup.stage) := by decide +kernel

theorem wit_VirtualFunctionResetStopsItsRings :
    (ready.ctx 2).state = .absent ∧ (ready.ctx 0).state = .runnable ∧
    ((ready.putCtx 1023 { Ctx.init with state := .teardown }).ctx 1023).state = .teardown ∧
    ((ready.putCtx 0 { ready.ctx 0 with state := .faulted }).ctx 0).state = .faulted := by decide +kernel

/-! ### Orders on memory and Gates -/

theorem wit_DmaOrdersStartAndMoveTheirBytes :
    let fromHost := ord 0 opDma (zeros 8 ++ le 8 va ++ le 8 16 ++ [1])
    let toHost := ord 0 opDma (zeros 16 ++ le 8 1 ++ [2])
    let host := ord 0 opDma (zeros 16 ++ le 8 1 ++ [3])
    let empty := ord 0 opDma []
    let out (x : Order) : Bool := let d := withOrd x; let b := dmaFields x.body
      (!b.srcHost && d.outside x.ctx b.src b.bytes) || (!b.dstHost && d.outside x.ctx b.dst b.bytes)
    (Handed (.dmaOrder fromHost.id) (at_ (withOrd fromHost)) fromHost opDma ∧ (ready.ctx 0).slot ≠ 0xFF ∧
      (ready.ctx 0).rootLoading = false ∧ (ready.ctx 0).state ≠ .draining ∧ (dmaFields fromHost.body).bytes ≠ 0 ∧
      out fromHost = false ∧ ((withOrd fromHost).range 0 va 16 true).isOk = true) ∧
    ((dmaFields empty.body).bytes = 0 ∧ Handed (.dmaOrder empty.id) (at_ (withOrd empty)) empty opDma) ∧
    ((dmaFields toHost.body).bytes = 1 ∧ out toHost = true ∧ ((withOrd toHost).range 0 0 1 false).isOk = false) ∧
    ((dmaFields host.body).srcHost = true ∧ (dmaFields host.body).dstHost = true ∧ out host = false) ∧
    (let x := { fromHost with phase := .running }
     Able (.systemDmaDone x.id ⟨zeros 16, []⟩) (at_ (withOrd x)) ∧ (withOrd x).order? x.id = some x) := by decide +kernel

/-- The four combinations of memories that a transfer reads and writes, the fault of a page that is not there, a burst whose
link failed, and a location that a strike has spoilt. -/
theorem wit_DmaOrdersEndWithTheirBytesOrAFault :
    let a := va
    let run (flags src dst : Nat) : Order := { ord 0 opDma (le 8 src ++ le 8 dst ++ le 8 16 ++ le 1 flags) with phase := .running }
    let moved (x : Order) : Bool := ((withOrd x).moveDma x (zeros 16)).isOk
    let isErr (d : Dev) (x : Order) (c : Nat) : Bool := match d.moveDma x (zeros 16) with | .error e => e == c | .ok _ => false
    let back := run 2 a 0
    let e := (withOrd back).spoil [.uncorrectable 0x200008]
    ((dmaFields (run 3 0 0).body).srcHost = true ∧ (dmaFields (run 3 0 0).body).dstHost = true ∧ moved (run 3 0 0) = true) ∧
    ((dmaFields (run 1 0 a).body).dstHost = false ∧ moved (run 1 0 a) = true ∧
      ((withOrd (run 1 0 a)).range 0 a 16 true).isOk = true) ∧
    ((dmaFields back.body).srcHost = false ∧ (dmaFields back.body).dstHost = true ∧ moved back = true) ∧
    moved (run 0 a (a + 4096)) = true ∧ isErr (withOrd (run 0 0 a)) (run 0 0 a) 0x0320 = true ∧
    (linkLost [.linkFailed 0x200008] ((withOrd back).orderReads back) = true ∧
      linkLost [.retried 0x200008 1] ((withOrd back).orderReads back) = false) ∧
    (e.badIn (e.orderReads back) = some 0x200000 ∧ isErr e back 0x0322 = true ∧ eccCode 0x200000 = 0x0322 ∧
      (withOrd back).badIn ((withOrd back).orderReads back) = none) := by
  refine ⟨?_, ?_, ?_, ?_, ?_, ?_, ?_⟩ <;> decide +kernel

/-- A GATE order of tenant 0. -/
def gateOrd (op count first : Nat) : Order := ord 0 opGate (le 2 op ++ le 2 count ++ le 2 first ++ le 2 0xFFFF)

/-- The last 16 Gates of the pool are all that a tenant may hold; the Gate behind the pool it may not. -/
theorem wit_GateOrdersAllocateFreeAndSignal :
    let a := gateOrd 1 16 304
    let b := gateOrd 1 1 320
    let f := gateOrd 2 1 256
    let held := ready.putGate 256 { Gate.init with holder := 0 }
    let wait : GateWait := { who := .core 0, ctx := 0, gate := 256, cond := 0, operand := 1, released := false }
    (bodyCtx a 0xFFFF = some 0 ∧ (ready.districtOf 0).isSome = true) ∧
    (Handed (.alloc a.id) (at_ (withOrd a)) a opGate ∧ leAt a.body 0 1 = 1 ∧ leAt a.body 2 2 = 16 ∧
      (∀ i < 16, ready.mayHold 0 (304 + i) = true ∧ (ready.gate (304 + i)).holder = 0x7FF) ∧
      ready.gateRoom 0 16 = true ∧ ready.gateRoom 0 17 = false) ∧
    (Handed (.alloc b.id) (at_ (withOrd b)) b opGate ∧ ready.mayHold 0 320 = false ∧ ready.mayHold 0 255 = false) ∧
    (Handed (.free f.id) (at_ (held.setOrders [f])) f opGate ∧ leAt f.body 0 1 = 2 ∧ held.holds 0 256 = true ∧
      held.holds 0 257 = false ∧ (held.setOrders [f]).gateBusy f.id 256 = false ∧
      (held.setWaits [wait]).gateBusy f.id 256 = true) ∧
    (let o := gateOrd 3 1 256; Handed (.set o.id) (at_ (held.setOrders [o])) o opGate ∧ leAt o.body 0 1 = 3) ∧
    (let o := gateOrd 4 1 256; Handed (.add o.id) (at_ (held.setOrders [o])) o opGate ∧ leAt o.body 0 1 = 4) := by
  decide +kernel

/-- A wait at the Gate that the signal releases, one that it does not, one at another Gate; the value wraps. -/
theorem wit_SignalsUpdateOneGateAndReleaseItsWaits :
    condHolds 0 ((2 ^ 64 - 1 + 1) % 2 ^ 64) 0 = true ∧ condHolds 0 ((2 ^ 64 - 1 + 1) % 2 ^ 64) 1 = false ∧
    (257 : Nat) ≠ 256 := by decide

/-- A MEMORY order of tenant 0 on whole pages. -/
def memOrd (op flags va bytes : Nat) : Order :=
  ord 0 opMemory (le 2 op ++ le 2 flags ++ le 4 0xFFFF ++ le 8 va ++ le 8 bytes)

theorem wit_MemoryOrdersMapUnmapAndProtect :
    let u := memOrd 2 0 va 0x10000
    let p := memOrd 3 1 va 4096
    let far := memOrd 2 0 va 0x11000
    let m := memOrd 1 1 (va + 0x10000) 4096
    let clash := memOrd 1 1 (va + 0xF000) 4096
    let covers (x : Order) : Bool := let b := memFields x.body; covered (ready.ctx 0).maps b.page b.va b.bytes == b.bytes
    let ok (x : Order) : Bool := (withOrd x).memCode x == 0 && (withOrd x).memTarget x == some (0, 0)
    let meets (x : Order) : Bool := let b := memFields x.body
      (ready.ctx 0).maps.any fun q => overlap b.va b.bytes q.va q.bytes
    (bodyCtx u 0xFFFF = some 0 ∧ ready.districtOf 0 = some 0) ∧
    (Handed (.unmap u.id) (at_ (withOrd u)) u opMemory ∧ ok u = true ∧ covers u = true) ∧
    (Handed (.unmap far.id) (at_ (withOrd far)) far opMemory ∧ ok far = true ∧ covers far = false) ∧
    (Handed (.protect p.id) (at_ (withOrd p)) p opMemory ∧ ok p = true ∧ covers p = true) ∧
    (Handed (.map m.id) (at_ (withOrd m)) m opMemory ∧ ok m = true ∧ meets m = false ∧ meets clash = true ∧
      ready.quotaRoom 0 (2 ^ 30 - 0x10000) = true ∧ ready.quotaRoom 0 (2 ^ 30 - 0xF000) = false) := by decide +kernel

/-- A MAP whose frames are there, one whose district has none left, and a fixed one in the pool. -/
theorem wit_MapTakesFrames :
    (ready.frames 0 4096 4096).2 = 0 ∧ (ready.frames 3 4096 4096).2 ≠ 0 := by decide +kernel

/-- A CACHE order of tenant 0 that names entry 5. -/
def cacheOrd (op : Nat) : Order := ord 0 opCache (le 4 op ++ le 4 5 ++ le 8 va)

/-- The ready device with entry 5 in a state. -/
def cached (st : EntState) (pins : Nat) : Dev :=
  ready.putEntry 5 { CacheEnt.init with live := true, state := st, backing := 2, bytes := 64, pins }

theorem wit_CacheOrdersCreateLoadPinAndDrop :
    let on (x : Order) (e : Dev) : Dev := e.setOrders [x]
    let named (e : Dev) : Prop := e.handle? 5 ((e.districtOf 0).getD 16) = some 5
    let c := cacheOrd 1
    let full := ready.putEntry 5 { (cached .backed 0).entry 5 with bytes := 2 ^ 50 }
    (Handed (.load (cacheOrd 2).id) (at_ (on (cacheOrd 2) (cached .resident 0))) (cacheOrd 2) opCache ∧
      named (cached .resident 0) ∧ named (cached .loading 0) ∧ named (cached .backed 0) ∧
      ((cached .resident 0).entry 5).state = .resident ∧ ((cached .loading 0).entry 5).state = .loading ∧
      ((cached .backed 0).entry 5).state = .backed) ∧
    (Handed (.pin (cacheOrd 3).id) (at_ (on (cacheOrd 3) (cached .resident 0))) (cacheOrd 3) opCache ∧
      (cached .resident 0).pinRoom 5 = true) ∧
    (Handed (.unpin (cacheOrd 4).id) (at_ (on (cacheOrd 4) (cached .resident 1))) (cacheOrd 4) opCache ∧
      ((cached .resident 1).entry 5).pins = 1 ∧ ((cached .resident 0).entry 5).pins = 0) ∧
    (Handed (.drop (cacheOrd 5).id) (at_ (on (cacheOrd 5) (cached .resident 0))) (cacheOrd 5) opCache ∧
      ((cached .resident 0).entry 5).usePins = 0) ∧
    (named (cached .staged 0) ∧ ((cached .staged 0).entry 5).state = .staged ∧ ((cached .staged 0).startLoad 5 false).isSome = true ∧
      ((cached .backed 0).startLoad 5 false).isSome = true ∧ (full.startLoad 5 false).isSome = false ∧
      full.handle? 5 0 = some 5 ∧ full.pinRoom 5 = false ∧ ready.handle? 5 0 = none) ∧
    (Handed (.create c.id) (at_ (on c ready)) c opCache ∧ leAt c.body 0 1 = 1 ∧
      (ready.readCtx (ready.hgAcc 0) 0 (leAt c.body 8 8) 64).isOk = true ∧ ready.freeIndex = some 0) ∧
    (Able (.cacheLoadDone 5 true []) (at_ (cached .loading 0)) ∧ ((cached .loading 0).entry 5).live = true ∧
      ((cached .loading 0).entry 5).backing = 2 ∧ ((cached .loading 0).entry 5).toStaging = false) ∧
    ((ready.backingBytes ((cached .loading 0).entry 5) []).isSome = true ∧
      (ready.backingBytes { (cached .loading 0).entry 5 with backing := 1, backAddr := phys 31 } []).isNone = true) := by
  refine ⟨?_, ?_, ?_, ?_, ?_, ?_, ?_, ?_⟩ <;> decide +kernel

/-- A descriptor of an entry in the host's memory, with PIN and without, and one of zeros (11 Table 11-5). -/
theorem wit_CreateTakesADescriptor :
    let b (pin : Nat) : Bytes :=
      le 8 7 ++ zeros 8 ++ le 1 1 ++ le 1 pin ++ le 1 2 ++ le 1 0 ++ le 4 0xFFFFFFFF ++ le 8 65536 ++ zeros 32
    let ok (pin : Nat) : Bool := ready.descOk (parseEntry 0 (b pin)) (b pin)
    ok 0 = true ∧ ok 1 = true ∧ bit (leAt (b 1) 17 1) 0 = true ∧ bit (leAt (b 0) 17 1) 0 = false ∧ ready.descOk (parseEntry 0 (zeros 64)) (zeros 64) = false := by
  decide +kernel

/-! ### Training, running and serving -/

/-- A program of one Basin image of one word, END, whose steward's code is FEND (04 Tables 04-6, 04-7). -/
def program : Bytes :=
  le 4 0x47525046 ++ le 2 1 ++ le 2 0x100 ++ le 4 96 ++ le 4 80 ++ le 4 8 ++ le 4 96 ++ le 4 0 ++ le 4 1 ++ zeros 32 ++
    le 4 0x00010101 ++ le 4 88 ++ le 4 8 ++ le 4 0 ++ le 8 (0x8A * 2 ^ 56) ++ le 8 (0x01 * 2 ^ 56)

/-- A program of two such images with a plan in its data whose recompute area is larger than the Cistern's share (06
Tables 06-2, 06-3). -/
def planned : Bytes :=
  le 4 0x47525046 ++ le 2 1 ++ le 2 0x200 ++ le 4 208 ++ le 4 96 ++ le 4 8 ++ le 4 112 ++ le 4 96 ++ le 4 1 ++ zeros 32 ++
    (le 4 0x00010101 ++ le 4 104 ++ le 4 8 ++ le 4 0) ++ (le 4 0x00010101 ++ le 4 104 ++ le 4 8 ++ le 4 0) ++
    le 8 (0x8A * 2 ^ 56) ++ le 8 (0x01 * 2 ^ 56) ++
    (zeros 64 ++ le 4 0x50545343 ++ le 4 0x0010FF01 ++ le 4 65536 ++ le 4 0 ++ le 4 0x00FF0100 ++ zeros 12)

/-- An order of a tenant whose body names the program at the start of its mapping, field 0 and a number of
micro-batches. -/
def trainOrd (op va mbs : Nat) : Order := ord 0 op (le 8 va ++ le 2 1 ++ le 2 mbs ++ le 4 0 ++ le 8 1 ++ le 8 1)

/-- Whether an order's program may start on the ready device with a program in its memory. -/
def starts (b : Bytes) (x : Order) : Option Nat :=
  let d := (((ready.putReg .cisWork0 0 1).putReg .cisWork1 0 1).write 0x200000 b).setOrders [x]
  (d.bodyProg x).map fun y => d.startCode 0 y [0] true

theorem wit_TrainStepAndRunOrdersStartTheirPrograms :
    let x := trainOrd opTrain va 1
    let z := trainOrd opTrain va 0
    let r := trainOrd opRun va 1
    let held := { x with phase := .held }
    let d := (ready.write 0x200000 program).setOrders [held]
    let st : StepOrd :=
      { o := ⟨0, 1, 0⟩, district := 0, started := true, epoch := 0, ls := 0, attempt := 0, seed := 0, step := 0,
        microBatches := 1, hasOpt := true, optBegun := false, optEnded := false, verdict := false, optLost := false,
        stopped := false, skip := 0, fields := [0] }
    (Handed (.trainStep x.id) (at_ (withOrd x)) x opTrain ∧ ready.districtOf x.ctx = some 0 ∧
      bitsOf (leAt x.body 8 2) 16 = [0] ∧ leAt x.body 10 2 = 1 ∧ leAt z.body 10 2 = 0) ∧
    (starts program x = some 0 ∧ starts [] x = some 0x01B0 ∧ (withOrd (trainOrd opTrain 4096 1)).bodyProg (trainOrd opTrain 4096 1) = none ∧
      (bytesPlan program).isNone = true) ∧
    (starts planned x = some 0 ∧ ∃ p, bytesPlan planned = some p ∧ ready.reserveEver x.id 0 0 1 p = false) ∧
    (Able (.trainStepStart x.id) (at_ d) ∧ d.order? x.id = some held ∧ d.stepBlocked x.id 0 = false ∧
      (d.dist 0).state = .active ∧ (d.setSteps [st]).stepBlocked x.id 0 = true) ∧
    (Handed (.run r.id) (at_ (withOrd r)) r opRun ∧ starts program r = some 0) := by
  refine ⟨?_, ?_, ⟨?_, _, rfl, ?_⟩, ?_, ?_⟩ <;> decide +kernel

/-- A REQUEST of tenant 1 whose descriptor stands at the start of its mapping. -/
def reqOrd (addr : Nat) : Order := ord 1 opRequest (le 8 addr)

/-- A request descriptor: 64 prompt tokens, one new token, its prompt, ring and tail in the mapping (09 Table 09-1). -/
def descriptor (profile : Nat) : Bytes :=
  le 8 7 ++ le 4 profile ++ le 4 64 ++ le 4 1 ++ le 4 0 ++ le 4 0 ++ le 4 0 ++ le 8 va ++ le 8 (va + 4096) ++ le 4 16 ++
    le 4 0 ++ le 8 (va + 8192) ++ le 8 0 ++ le 2 0xFFFF ++ le 2 0 ++ le 4 0 ++ zeros 48

/-- The ready device with a serving profile, parcels, and a full token bucket. -/
def serving : Dev :=
  let p : Profile :=
    { teacher := 0, student := 0, parcelBytes := 4096, maxContext := 128, tpms := 1, epUj := 1, edUj := 1,
      prefillProg := 0, decodeProg := 0 }
  (((((ready.modServe 1 fun x => { x with profiles := [p] }).putReg .intParcelCount 1 4).putReg .intParcelStride 1 4096).putReg
    .intParcelBase 1 (homeBytes / 4096)).putReg .intReqMax 1 1).putTen 1 { Tenant.init with bucket := 10 ^ 9 }

/-- What Intake answers to the descriptor: 0 when it admits it. -/
def answer (d : Dev) (b : Bytes) : Nat :=
  let r := parseReq b
  if r.ok b = false then 0x0120 else if d.reqState 1 ≠ 0 then d.reqState 1 else if d.reqRanges 1 r = false then 0x0128
  else match d.reqNames 1 1 r with
    | .error c => c
    | .ok p => d.admitCode 1 r (d.admitOf 1 1 p r)

theorem wit_RequestsAreTestedInOrderAndCancelled :
    let x := reqOrd va
    let d := (serving.write (phys 1) (descriptor 0)).setOrders [x]
    let c := ord 1 opCancel (le 8 7)
    Handed (.request x.id) (at_ d) x opRequest ∧ leAt x.body 0 8 % 64 = 0 ∧ allZero (x.body.drop 8) = true ∧
    leAt (reqOrd 63).body 0 8 % 64 ≠ 0 ∧ (d.readCtx (d.hgAcc 1) 1 va 128).isOk = true ∧
    (d.readCtx (d.hgAcc 1) 1 0 128).isOk = false ∧
    answer d (descriptor 64) = 0x0120 ∧ answer d (descriptor 63) = 0x0126 ∧
    answer (d.modDist 1 fun x => { x with state := .draining }) (descriptor 0) = 0x018C ∧
    Handed (.cancel c.id) (at_ (withOrd c)) c opCancel ∧ allZero (c.body.drop 8) = true := by decide +kernel

/-- A descriptor that Intake admits, and one that finds no parcel. -/
theorem wit_RequestIsAdmitted :
    (parseReq (descriptor 0)).ok (descriptor 0) = true ∧ answer serving (descriptor 0) = 0 ∧
    answer (serving.putReg .intParcelCount 1 2) (descriptor 0) = 0x0121 := by decide +kernel

/-- A live request of tenant 1 in a state. -/
def request (st : ReqState) : Req :=
  { num := 0, order := ⟨1, 0, 0⟩, tenant := 1, district := 1, desc := parseReq (descriptor 0), markA := 1, state := st,
    chunks := [{ tokens := 64, start := 0, tag := 64, dispatched := false, left := [] }], decodeTag := 0,
    parcels := [0, 1, 2], hits := [], uncached := 64, digests := [], domain := 0, remainder := 0, charged := 0, emitted := 0,
    records := 0, held := [], finish := none, stallSince := none, stalled := false, lastMark := 0, steps := 0, limit := 0,
    fr := 0, gr := 0, plain := 0, probe := false, version := 0, plan := [] }

theorem wit_IntakeDispatchesStallsAndLends :
    let d := serving.setReqs [{ request .queued with state := .queued }]
    let e := serving.setReqs [request .decode]
    let s := serving.setReqs [{ request .decode with stallSince := some 0 }]
    let limit := 10 ^ 6 * s.reg .intStallLimit 1
    d.dry = false ∧ d.ready = true ∧ d.rtFields 1 = [] ∧ (d.nextChunk 1 false).isSome = true ∧ d.serveFields 1 = [1] ∧
    (e.serve 1).step = none ∧ e.fillStep (e.reg .intDecodeRows 1) (e.decodable 1 false) ≠ [] ∧
    ((e.modServe 1 fun x => { x with step := some { reqs := [], left := [] } }).serve 1).step.isSome = true ∧
    (Instr.stepCommit 1 ⟨[]⟩).wf = true ∧ e.stepReady { reqs := [], left := [] } ⟨[]⟩ = true ∧
    ((s.advance (limit + 1)).req? 0).isSome = true ∧ 0 + limit < (s.advance (limit + 1)).eff ∧ (s.advance limit).eff ≤ 0 + limit ∧
    (∃ n, ready.ent? 1 = some n ∧ n.role = 2) ∧ (ready.serve 1).lastLend + 10 ^ 7 ≤ (ready.advance (10 ^ 7)).eff ∧
    (ready.advance (10 ^ 7 - 1)).eff < (ready.serve 1).lastLend + 10 ^ 7 := by
  refine ⟨?_, ?_, ?_, ?_, ?_, ?_, ?_, ?_, ?_, ?_, ?_, ?_, ?_, ⟨_, rfl, ?_⟩, ?_, ?_⟩ <;> decide +kernel

/-- A profile table of no rows, one whose row is bad (its bytes are zero), and a live request. -/
theorem wit_ServingRegistersLoadFlushShareAndCapture :
    HostAble 1024 (.loadProfiles 1024 1) (at_ ready) ∧ isPf 1025 = true ∧ ready.isServe 1 = true ∧ ready.reqsOf 1 = [] ∧
    (serving.setReqs [request .queued]).reqsOf 1 ≠ [] ∧ (ready.readCtx (ready.hgAcc 1025) 1025 0 0).isOk = true ∧
    (parseProfile (zeros 64)).ok (zeros 64) 4096 = false ∧
    HostAble 1025 (.flushPrefixes 1025 1) (at_ ready) ∧ HostAble 1 (.intVfShare 1 255) (at_ ready) ∧
    Able (.captureRingWrite 1 true 0x1FFFF) (at_ ready) ∧
    ((ready.reqsOf 1).any fun r => r.desc.capture) = false ∧
    (((serving.setReqs [{ request .queued with desc := { parseReq (descriptor 0) with flags := 16 } }]).reqsOf 1).any
      fun r => r.desc.capture) = true := by decide +kernel

/-- An OFFTAKE order of tenant 1. -/
def oftOrd (op n : Nat) : Order := ord 1 op (le 8 va ++ le 4 n)

theorem wit_OfftakesInstallSwitchAndRemove :
    let x := oftOrd opInstall 64
    let v : OftVer :=
      { tenant := 1, variant := 3, version := 1, base := 0, district := 1, charge := 0, place := [], current := true, pins := 0 }
    let run := { x with phase := .running }
    let d := (ready.setOrders [run]).setOftInsts [{ order := x.id, ver := v }]
    let r := ord 1 opRemove (le 2 3)
    (Handed (.offtakeInstall x.id) (at_ (withOrd x)) x opInstall ∧ leAt x.body 0 8 % 64 = 0 ∧
      allZero (x.body.drop 12) = true ∧ leAt x.body 8 4 = 64 ∧ leAt (oftOrd opInstall 0).body 8 4 = 0 ∧
      (ready.readCtx (ready.hgAcc 1) 1 va 64).isOk = true ∧ ready.installCode 1 1 (zeros 64) ≠ 0) ∧
    (Able (.offtakeSwitch x.id) (at_ d) ∧ d.order? x.id = some run ∧
      (d.oftInsts.find? fun z => z.order == x.id) = some { order := x.id, ver := v }) ∧
    (Handed (.offtakeRemove r.id) (at_ (withOrd r)) r opRemove ∧ allZero (r.body.drop 2) = true ∧
      ready.oftCurrent 1 3 = none ∧ (ready.setOfts [v]).oftCurrent 1 3 = some v) := by decide +kernel

/-! ### The Confluence and the Gauge -/

/-- A CONFLUENCE order of tenant 0, and its descriptor (08 Table 08-4) of an operation over the one bucket; its key and
token count are 1 or 0. -/
def cflOrd : Order := ord 0 opConfluence (le 8 va)
def cflDesc (op fmt flags origin base aux dest key : Nat) : Bytes :=
  le 1 op ++ le 1 fmt ++ le 2 flags ++ le 2 0 ++ le 2 1 ++ le 4 key ++ le 2 256 ++ le 2 origin ++ le 8 base ++ le 8 aux ++ le 8 dest ++
    le 8 key ++ le 8 0 ++ le 2 0 ++ zeros 6

/-- The ready device with a bucket, a Gate that tenant 0 holds, a round in a state, and a descriptor in memory. -/
def confluent (st : RoundState) (b : Bytes) : Dev :=
  let bucket : Bucket := { elements := 256, offset := 0, tensor := 0, elemBase := 0, outAddr := 0, outFmt := 1, inst := 0 }
  let r : Round := { Round.init with state := st, step := 1 }
  (((ready.putGate 256 { Gate.init with holder := 0 }).modCfl 0 fun c => { c with table := [bucket], round := r }).write 0x200000
    b).setOrders [cflOrd]

/-- The code of a descriptor on it; 0 when it is valid. -/
def cflCodeOf (d : Dev) (b : Bytes) : Option Nat :=
  match d.readCtx (orderAcc (d.gaugeInst 0) cflOrd.id) 0 va 64 with
  | .error _ => none
  | .ok (c, e) => if c = b then some (e.cflCode 0 0 (parseCfl c) c) else none

theorem wit_ConfluenceOrdersImportExportRingAndFinish :
    let a := va + 4096
    let i := cflDesc 2 1 0 1 a 0 0 1
    let f := cflDesc 3 1 1 0 a 0 0 1
    let x := cflDesc 4 1 0 0 a a a 0
    let r := cflDesc 5 1 0 0 a a a 0
    (Handed (.importPart cflOrd.id) (at_ (confluent .none i)) cflOrd opConfluence ∧
      (confluent .none i).districtOf cflOrd.ctx = some 0 ∧ leAt cflOrd.body 0 8 % 64 = 0 ∧
      allZero (cflOrd.body.drop 8) = true ∧ (parseCfl i).tagCount ≠ 0 ∧ (parseCfl i).op = 2) ∧
    cflCodeOf (confluent .none i) i = some 0 ∧ (confluent .none i).hasImport 0 1 (1, 0) = false ∧
    cflCodeOf (confluent .awaitFinal f) f = some 0 ∧ (parseCfl f).op = 3 ∧ bit (parseCfl f).flags 0 = true ∧
    ((confluent .awaitFinal f).cfl 0).round.state = .awaitFinal ∧ ((confluent .awaitFinal f).cfl 0).round.key = (1, 0) ∧
    cflCodeOf (confluent .awaitFinal x) x = some 0 ∧ (parseCfl x).op = 4 ∧
    cflCodeOf (confluent .awaitFinal r) r = some 0 ∧ (parseCfl r).op = 5 ∧
    (cflCodeOf (confluent .none (i.take 63 ++ [1])) (i.take 63 ++ [1]) = some 0x0190 ∧
      cflCodeOf (confluent .none (i.take 6 ++ zeros 2 ++ i.drop 8)) (i.take 6 ++ zeros 2 ++ i.drop 8) = some 0 ∧
      (parseCfl (i.take 6 ++ zeros 2 ++ i.drop 8)).tagCount = 0) := by decide +kernel

theorem wit_ConfluenceRoundsCloseReduceAndExpire :
    let d := ready.modCfl 0 fun c => { c with round := { Round.init with state := .admitting, deadline := some 5 } }
    let e := ready.modCfl 0 fun c => { c with round := { Round.init with state := .awaitFinal, finalEnd := 5 } }
    let r := ready.modCfl 0 fun c => { c with round := { Round.init with state := .reducing } }
    ready.dry = false ∧ (((d.advance 5).cfl 0).round.deadline = some 5 ∧ (d.advance 5).eff = 5 ∧ (d.advance 4).eff = 4) ∧
    ((e.advance 5).cfl 0).round.finalEnd = 5 ∧ (r.cfl 0).round.state = .reducing ∧ ready.deaf 1025 = false ∧
    isPf 1025 = true ∧ ready.isTrain 1 = false ∧ ready.isTrain 0 = true ∧ ready.liveTrain 0 = false ∧
    (withOrd (trainOrd opTrain 0 1)).liveTrain 0 = true ∧
    ready.bucketTable 0 0 0 = some [] ∧ ready.bucketTable 0 0 1 = none ∧
    (ready.modCfl 0 fun c => { c with held := [] }).isTrain 0 = true := by decide +kernel

theorem wit_GaugeCommandsLoadSetAndClear :
    let ls (n : Nat) : Dev := ready.putReg .gauLsSetLs 0 n
    isPf 1024 = true ∧ ready.deaf 1024 = false ∧ ready.isTrain 1 = false ∧ ready.isTrain 0 = true ∧
    ready.liveTrain 0 = false ∧ (withOrd (trainOrd opTrain 0 1)).liveTrain 0 = true ∧ ready.reg .gauTableCount 0 = 0 ∧
    parseWatch (zeros 8) 1 = none ∧ parseWatch [0, 0, 0, 0, 1, 0, 0, 0] 1 = some [Watch.of 0 1 0] ∧
    ready.ownRange 0 0 64 = true ∧ ready.ownRange 0 (64 * 2 ^ 30) 8 = false ∧
    (ls 127).reg .gauLsSetLs 0 = 127 ∧ (ls 128).reg .gauLsSetLs 0 = 128 := by decide +kernel

/-! ### The survey unit and the Security block -/

theorem wit_SurveyCommandsStageCommitAndDrain :
    let own := ready.setSurvey { ready.survey with staged := some (pf 0, image, []) }
    let busy := ready.setSurvey { ready.survey with cmd := some (1, 1, 0) }
    let above := ready.setSec { ready.sec with flash := { ready.sec.flash with surveyFloor := 1 } }
    ready.dry = false ∧ ready.deaf (pf 1) = false ∧ busy.survey.cmd.isSome = true ∧ Dev.reset.ready = false ∧
    ready.survey.cmd = none ∧ ready.ready = true ∧ ready.ownImage 0 = none ∧ own.survey.staged.isSome = true ∧
    own.ownImage 1 = none ∧ own.ownImage 0 = some (image, []) ∧ (own.dist 0).state ≠ .absent ∧
    (bare.dist 15).state = .absent ∧ own.judgeCode [] true none ≠ 0 ∧ own.judgeCode [] true (some 15) ≠ 0 ∧
    above.survey.committedSerial ≤ above.sec.flash.surveyFloor ∧
    ready.sec.flash.surveyFloor < ready.survey.committedSerial := by decide +kernel

theorem wit_SurveyReadsDrainsAndApplies :
    let d := ready.setSurvey { ready.survey with cmd := some (1, 1, 0) }
    let e := ready.setSurvey { ready.survey with state := .draining, cmd := some (1, 3, 15), drainStart := 0 }
    let a := ready.setSurvey { ready.survey with state := .applying, cmd := some (0, 3, 0) }
    let limit := 1000000 * ready.reg .srvDrainLimit 1
    d.survey.cmd = some (1, 1, 0) ∧ d.verifyImage [] (some 0) false = 0x0180 ∧
    ((e.advance limit).survey.state = .draining ∧ (e.advance limit).survey.cmd = some (1, 3, 15) ∧
      0 + limit ≤ (e.advance limit).eff ∧ (e.advance (limit - 1)).eff < 0 + limit) ∧
    (a.ready = true ∧ a.survey.state = .applying ∧ a.survey.cmd = some (0, 3, 0)) := by decide +kernel

theorem wit_SecurityCommandsAttestInstallAndRotate :
    let ok := ready.modSec fun x => { x with identityOk := true }
    let busy := ready.modSec fun x => { x with running := [(1025, 3)] }
    let len := ready.putReg .secInLen 1025 1
    let root := ready.modSec fun x => { x with akRoot := 1 }
    ready.dry = false ∧ ready.deaf 1025 = false ∧ ready.secRunning 1025 = 0 ∧ busy.secRunning 1025 ≠ 0 ∧
    ready.sec.identityOk = false ∧ ok.sec.identityOk = true ∧ isPf 1023 = false ∧ isPf 1025 = true ∧
    ready.surveyHeld = false ∧ len.reg .secInLen 1025 ≠ 0 ∧ policyCode [0] ready.sec.flash.ownerDigest (fun _ => true) = 0x0500 ∧
    ready.ownerCode [0] = 0x0500 ∧ (ready.dist 0).state ≠ .absent ∧ (ready.dist 15).state = .absent ∧
    root.sec.akRoot = 1 ∧ ready.sec.akRoot ≠ 1 ∧ busy.secRunning 1025 = 3 ∧
    (ready.modSec fun x => { x with running := [(1025, 4)] }).secRunning 1025 = 4 := by decide +kernel

/-! ### Power, time and start-up -/

theorem wit_PowerStageSwitchesReturnsAndFails :
    let src (n : Nat) : Dev := ready.setPower { ready.power with source := n }
    let back := ready.setPower { ready.power with source := 2, backSince := some 7 }
    (src 1).power.source = 1 ∧ (src 2).power.source = 2 ∧ ¬ (4000 ≤ 3999 ∧ 3999 ≤ 6000) ∧ (4000 ≤ 6000 ∧ 6000 ≤ 6000) ∧
    ¬ (4000 ≤ 6001 ∧ 6001 ≤ 6000) ∧ ((back.advance (7 + 10 ^ 8)).power.backSince = some 7 ∧
      7 + 10 ^ 8 ≤ (back.advance (7 + 10 ^ 8)).time.osc ∧ (back.advance (6 + 10 ^ 8)).time.osc < 7 + 10 ^ 8) ∧
    HostAble 1025 (.pwrRating 1025 0xFFFFFFFF) (at_ ready) ∧ isPf 1025 = true := by decide +kernel

/-- A program of tenant 0 in slot 0 of field 0, at the start of its code. -/
def prog (words : List Nat) : Prog :=
  { kind := .order ⟨0, 0, 0⟩, ctx := 0, district := 0, pool := .train, strict := false, convNan := false,
    imgs := [{ runnel := false, countMin := 1, countMax := 12, code := le 8 (2 ^ 56), pondBase := 0 }], cycleLimit := 1,
    code := words.flatMap (le 8), data := [], pc := 0, loops := [], setp := [], foppt := none, wait := .none, rank := 0,
    events := List.replicate 8 0, waitMark := 0, ending := none, runs := [], afterRecompute := none, table := [] }

/-- The ready device with a program in slot 0 of field 0. -/
def stewarding (p : Prog) : Dev := ready.modField 0 fun x => { x with slots := [some p, none, none, none] }

theorem wit_AllotmentWindowsWaitsChargesAndDroop :
    let ask : GrantReq := { field := 15, slot := 3, district := 0, energy := 1, dur := 1, since := 0, resume := false }
    let w := ready.setPower { ready.power with waiting := [ask] }
    let limit := 10 ^ 6 * ready.reg .altGrantLimit 0
    let d := stewarding (prog [])
    ready.dry = false ∧ (ready.advance (10 ^ 7)).time.cnt / 10 ^ 7 ≠ (ready.advance (10 ^ 7)).power.window ∧
    (ready.advance (10 ^ 7 - 1)).time.cnt / 10 ^ 7 = (ready.advance (10 ^ 7 - 1)).power.window ∧ ready.power.acts = [] ∧
    (((w.advance limit).power.waiting.find? fun q => q.field == 15 && q.slot == 3) = some ask ∧
      ask.since + limit ≤ (w.advance limit).eff ∧ (w.advance (limit - 1)).eff < ask.since + limit) ∧
    (d.prog 0 0 = some (prog []) ∧ (d.field 0).held = false ∧ (d.field 0).droopHalf = false ∧
      ((d.putField 0 { d.field 0 with droopHalf := true }).field 0).droopHalf = true) := by decide +kernel

theorem wit_TimeBaseSetsFollowsAndHolds :
    let pps := (ready.putReg .timPpsEn 0 1)
    let seen := pps.setTime { pps.time with last := some 0 }
    let set := ready.setTime { ready.time with epochSet := true, cnt := 10 ^ 9 + 1 }
    HostAble 1024 (.timSet 1024 0) (at_ set) ∧ isPf 1024 = true ∧ (ready.putReg .timSetAtPps 0 1).reg .timSetAtPps 0 = 1 ∧
    set.reg .timSetAtPps 0 ≠ 1 ∧ 0 + 10 ^ 9 < set.time.cnt ∧ set.time.cnt ≤ 1 + 10 ^ 9 ∧
    pps.reg .timPpsEn 0 = 1 ∧ ready.reg .timPpsEn 0 ≠ 1 ∧ pps.time.pendingSet = none ∧
    ((seen.advance 499999999).time.cnt : Int) - (seen.advance 499999999).reg .timPpsDelay 0 - 0 < 500000000 ∧
    500000000 ≤ ((seen.advance (10 ^ 9 + 10 ^ 6)).time.cnt : Int) - (seen.advance (10 ^ 9 + 10 ^ 6)).reg .timPpsDelay 0 - 0 ∧
    ((seen.advance (10 ^ 9 + 10 ^ 6)).time.cnt : Int) - nearestSecond (10 ^ 9 + 10 ^ 6) = 1000000 ∧
    (ready.advance 2500000000).time.lastAcceptOsc + 2500000000 ≤ (ready.advance 2500000000).time.osc ∧
    (ready.advance 2499999999).time.osc < (ready.advance 2499999999).time.lastAcceptOsc + 2500000000 := by decide +kernel

/-- A firmware image of a kind in the form of 15 Table 15-4, with root slot 3, one byte of code, a key whose OID is the
one the spec names, and a signature of zeros. -/
def fwImage (kind : Nat) : Bytes :=
  le 4 0x57464649 ++ le 2 1 ++ le 1 kind ++ le 1 3 ++ le 4 7 ++ le 4 1 ++ zeros 16 ++ (xmssOid ++ zeros 64) ++ zeros 28 ++
    zeros (1 + sigBytes)

/-- A device in a stage of its start-up. -/
def stage (n : Nat) : Dev := Dev.reset.setStartup { Startup.init with stage := n }

/-- Slots that hold no image; that an image passes rests on the root digest, which is free (log entry 30). -/
theorem wit_StartUpStagesRunInOrder :
    let limit (n : Nat) : Nat := 10 ^ 6 * stageMs false n
    let t := (stage 6).putMemDev 31 { MemDev.init with state := .training }
    let empty (i : Nat) : Bytes := slotImage [none, none] i []
    let back := (stage 5).setStartup { (stage 5).startup with gen := .recovery }
    let boots (i : Nat) (b : Bytes) : Dev := (((stage 3).lkkRuns i b).setGen .lkkBoot srcLkk).fillGen 0
    let again := (stage 3).setStartup { (stage 3).startup with warm := true }
    (stage 0).startup.stage = 0 ∧ (stage 1).startup.stage = 1 ∧ sourceOf 3999 6000 = 2 ∧ sourceOf 4000 0 = 1 ∧
    (Able (.lkkBoot [] [] 0) (at_ (stage 3)) ∧ ((stage 3).bootSlot 1 0 empty).1 = none ∧ (boots 0 []).startup.warm = false ∧
      (((again.lkkRuns 0 []).setGen .lkkBoot srcLkk).fillGen 0).startup.warm = true) ∧
    (Able (.lkkBoot [] [] 0) (at_ back) ∧ back.startup.stage ≠ 3 ∧ back.startup.gen = .recovery ∧ back.lkk.state = 0 ∧
      (back.bootSlot 1 0 empty).1 = none ∧ (stage 5).startup.gen ≠ .recovery) ∧
    (Able (.identity true true) (at_ (stage 4)) ∧ Able (.memTrain 31 false) (at_ t) ∧ (t.memDev 31).state = .training) ∧
    ((stage 7).dry = false ∧ (stage 7).startup.stage = 7 ∧ Able (.headgateLoad [] []) (at_ (stage 8)) ∧
      ((stage 8).bootSlot 2 0 empty).1 = none) ∧
    (∀ n, n = 1 ∨ n = 3 ∨ n = 4 ∨ n = 6 ∨ n = 7 ∨ n = 8 → Able (.stageLimit n (limit n)) (at_ (stage n)) ∧
      ((stage n).advance (limit n)).startup.stage = n ∧
      ((stage n).advance (limit n)).startup.t0 + limit n ≤ ((stage n).advance (limit n)).time.osc) := by
  refine ⟨?_, ?_, ?_, ?_, ?_, ?_, ?_, ?_, ?_⟩
  case refine_9 => rintro n (rfl | rfl | rfl | rfl | rfl | rfl) <;> decide +kernel
  all_goals decide +kernel

/-- An image that passes in the active slot, in the other one, or in none. -/
theorem wit_ASlotThatPassesIsTaken (d : Dev) (b : Bytes) (h : d.firmwareCode 1 b = 0) :
    (d.bootSlot 1 0 fun i => if i = 0 then b else []).1 = some (0, b) ∧
    (d.bootSlot 1 0 fun i => if i = 0 then [] else b).1 = some (1, b) := by
  have e : d.firmwareCode 1 [] = 0x0500 := by
    have : firmwareForm 1 [] = false := by decide +kernel
    simp [Dev.firmwareCode, this]
  simp [Dev.bootSlot, h, e]

/-- Everything that a check of an image reads and that is not a free constant: the form, a root key that is revoked and
one that is not, the floor at the image's SVN of 7. -/
theorem wit_FirmwareSlotsRunOnlyWhatPasses :
    let old := Dev.reset.modFlash fun f => { f with revoke := 8 }
    let b := fwImage 1
    firmwareForm 1 b = true ∧ firmwareForm 2 (fwImage 2) = true ∧ firmwareForm 2 b = false ∧ firmwareForm 1 (b.drop 1) = false ∧
    leAt b 7 1 = 3 ∧ bit Dev.reset.sec.flash.revoke 3 = false ∧ old.firmwareCode 1 b = 0x0505 ∧ leAt b 8 4 = 7 ∧
    Dev.reset.sec.flash.lkkFloor ≤ leAt b 8 4 ∧ Dev.reset.firmwareCode 1 [] = 0x0500 := by decide +kernel

theorem wit_WarmAndFullResetsRestartTheModule :
    ready.deaf (pf 1) = false ∧ ready.ready = true ∧ (stage 3).ready = false ∧ 3 ≤ (stage 3).startup.stage ∧
    ¬ 3 ≤ (stage 2).startup.stage ∧ 3 ≤ ((stage 3).advance 5).startup.stage ∧
    resetAsked none [(10000000, 0)] = true ∧ resetAsked none [(9999999, 999999), (1, 0)] = true ∧
    resetAsked none [(9999999, 1000000), (999999, 0)] = false ∧ resetAsked none [(999999, 0), (9999999, 0)] = false := by
  decide +kernel

/-! ### The cores -/

/-- An instance of tenant 0 on core 0 of field 0, of one word of code; its sixteen pointers all read 0x1000 but PTR_1. -/
def inst (core : Nat) : Inst :=
  { ctx := 0, field := core / 16, slot := 0, image := 0, index := 0, pc := 0, codeBase := 0, codeLen := 8,
    ptrs := 0x1000 :: 0x2000 :: List.replicate 14 0x1000, loops := [], tensor := 0, ebase := 0, stride := 0, strict := false,
    convNan := false, events := List.replicate 8 0, wait := .none, flight := [], tags := [], ran := 0, accountedAt := 0,
    resumedAt := 0, run := 1, boot := [] }

/-- The ready device whose core runs an instance at a word, for a program of tenant 0. -/
def coring (core : Nat) (y : Inst) (w : Nat) : Dev :=
  ((stewarding (prog [])).putCore core { Core.init with state := .running, pool := .train, inst := some y }).write
    (pondBase core) (le 8 w)

/-- Every opcode of the tables issues on Basin core 0, with the word of that opcode whose other bits are 0; a word whose
location a strike has spoilt, and one past the image, may not. -/
theorem wit_WordsThatMayNotIssueWaitOrFault :
    let all := controlTable 0 ++ (tileTable ready 0 [] ++ vectorTable 0).map fun r => (r.1, r.2.1)
    let past := { inst 0 with pc := 8 }
    let spoilt := (coring 0 (inst 0) 0).spoil [.uncorrectable (pondBase 0)]
    (∀ r ∈ all, Issues r.1 (at_ (coring 0 (inst 0) (r.2 * 2 ^ 56))) 0 r.2 (inst 0) (r.2 * 2 ^ 56)) ∧
    ready.coreReady 0 = none ∧ ready.coreReady 255 = none ∧
    ((coring 0 past 0).coreReady 0 = some past ∧ (coring 0 past 0).coreWord 0 past = none) ∧
    (spoilt.coreReady 0 = some (inst 0) ∧ spoilt.coreWord 0 (inst 0) = some 0 ∧
      spoilt.badIn [(pondBase 0 + (inst 0).pc, 8)] = some (pondBase 0)) ∧
    coreWordOk false (0xFF * 2 ^ 56) = false ∧ coreFmt 0xFF = none ∧ coreWordOk true (0x13 * 2 ^ 56) = false := by
  refine ⟨?_, ?_, ?_, ?_, ?_, ?_, ?_, ?_⟩
  case refine_1 =>
    intro r hr
    have h : ∀ q ∈ controlTable 0 ++ (tileTable ready 0 [] ++ vectorTable 0).map (fun r => (r.1, r.2.1)),
        Issues q.1 (at_ (coring 0 (inst 0) (q.2 * 2 ^ 56))) 0 q.2 (inst 0) (q.2 * 2 ^ 56) := by decide +kernel
    exact h r hr
  all_goals decide +kernel

/-- LOOP at its ends: a body up to the last word of the image, one further, none, and the fifth level. -/
theorem wit_CoreRegisterInstructionsSetTheirInstance :
    let w (op imm : Nat) : Nat := op * 2 ^ 56 + imm
    let loop := 0x02 * 2 ^ 56 + 2 ^ 32 + 1
    let two := { inst 0 with codeLen := 16 }
    Issues (.nop 0) (at_ (coring 0 (inst 0) 0)) 0 0 (inst 0) 0 ∧
    (∀ op, op = 0x03 ∨ op = 0x04 ∨ op = 0x08 ∨ op = 0x09 ∨ op = 0x0A →
      (coring 0 (inst 0) (w op (2 ^ 32 - 1))).coreWord 0 (inst 0) = some (w op (2 ^ 32 - 1)) ∧
      coreWordOk false (w op (2 ^ 32 - 1)) = true) ∧
    (Issues (.loop 0) (at_ (coring 0 two loop)) 0 0x02 two loop ∧ imm16 loop = 1 ∧ imm32 loop = 1 ∧
      two.pc + 8 + 8 * imm16 loop = two.codeBase + two.codeLen) ∧
    (Issues (.loop 0) (at_ (coring 0 (inst 0) loop)) 0 0x02 (inst 0) loop ∧
      (inst 0).codeBase + (inst 0).codeLen < (inst 0).pc + 8 + 8 * imm16 loop) ∧
    (imm16 (0x02 * 2 ^ 56) = 0 ∧ Issues (.loop 0) (at_ (coring 0 two (0x02 * 2 ^ 56))) 0 0x02 two (0x02 * 2 ^ 56)) ∧
    (List.replicate 4 ({ start := 8, stop := 16, left := 1 } : Loop)).length = 4 := by
  refine ⟨?_, ?_, ?_, ?_, ?_, ?_⟩
  case refine_2 => rintro op (rfl | rfl | rfl | rfl | rfl) <;> decide +kernel
  all_goals decide +kernel

/-- A condition that is defined and the first that is not; a Gate that is held and one that is not; a descriptor at the
last 64 bytes of the pond and behind them, in order and not. -/
theorem wit_CoreControlInstructionsWaitAndSignal :
    let w (op cond g : Nat) : Nat := op * 2 ^ 56 + cond * 2 ^ 48 + g * 2 ^ 32
    let held (x : Nat) : Dev := (coring 0 (inst 0) x).putGate 256 { Gate.init with holder := 0 }
    let dmaAt (a : Nat) : Inst := { inst 0 with ptrs := a :: List.replicate 15 0 }
    let last := pondSize 0 - 64
    let x := w 0x0B 0 15
    let d := (coring 0 (dmaAt last) x).write (pondBase 0 + last) [1]
    let tag : DmaTag :=
      { desc := parseDma (zeros 64), ctx := 0, started := true, reissue := false, outstanding := 0, abandoned := 0, gen := 0,
        pc := 0, since := 0 }
    let read (d : Dev) (a : Nat) (bs : Bytes) (ok : Bool) : Prop :=
      let e := d.write (pondBase 0 + a) bs
      let b := e.draw.2.pondRead 0 (dmaAt a) 5 e.draw.1 a 64
      (parseDma b).ok b = ok ∧ bit (parseDma b).flags 0 = false ∧ bit (parseDma b).flags 1 = false
    Issues (.endInst 0) (at_ (coring 0 (inst 0) (w 1 0 0))) 0 1 (inst 0) (w 1 0 0) ∧
    (Issues (.waitg 0) (at_ (held (w 5 4 256))) 0 5 (inst 0) (w 5 4 256) ∧ condOk (iCond (w 5 4 256)) = true ∧
      condOk (iCond (w 5 5 256)) = false ∧ Issues (.waitg 0) (at_ (held (w 5 5 256))) 0 5 (inst 0) (w 5 5 256) ∧
      (held 0).holds 0 256 = true ∧ (held 0).holds 0 16383 = false ∧ imm16 (w 5 4 256) = 256) ∧
    Issues (.sigg 0) (at_ (held (w 6 0 256))) 0 6 (inst 0) (w 6 0 256) ∧
    Issues (.fence 0) (at_ (coring 0 (inst 0) (w 7 0 63))) 0 7 (inst 0) (w 7 0 63) ∧
    Issues (.dmaw 0) (at_ (coring 0 (inst 0) (w 12 0 65535))) 0 12 (inst 0) (w 12 0 65535) ∧
    (Issues (.dma 0) (at_ d) 0 0x0B (dmaAt last) x ∧ imm16 x % 16 = 15 ∧ (dmaAt last).tag? 15 = none ∧
      (dmaAt last).ptr 0 % 64 = 0 ∧ (dmaAt last).ptr 0 + 64 ≤ pondSize 0 ∧ read d last [1] true ∧ read d last [0] false ∧
      pondSize 0 < (dmaAt (last + 64)).ptr 0 + 64 ∧ (dmaAt 63).ptr 0 % 64 ≠ 0 ∧
      (Inst.tag? { dmaAt last with tags := [(15, some tag)] } 15).isSome = true) := by
  refine ⟨?_, ?_, ?_, ?_, ?_, ?_, ?_, ?_, ?_, ?_, ?_, ?_, ?_, ?_, ?_⟩ <;> decide +kernel

/-- A descriptor that waits at Gate 256 and signals it, which its context holds, and one that names a Gate it does not
hold. -/
theorem wit_CoreDescriptorsWaitAndSignal :
    let b (g : Nat) : Bytes := le 1 1 ++ le 1 3 ++ le 1 4 ++ zeros 37 ++ le 2 g ++ le 2 g ++ zeros 20
    let held := (coring 0 (inst 0) 0).putGate 256 { Gate.init with holder := 0 }
    let x := parseDma (b 256)
    x.ok (b 256) = true ∧ bit x.flags 0 = true ∧ bit x.flags 1 = true ∧ held.holds 0 x.gateWait = true ∧
    held.holds 0 x.gateSig = true ∧ held.holds 0 (parseDma (b 257)).gateWait = false := by decide +kernel

/-- A transfer of 16 bytes from the start of a mapping to the core's own pond, which moves; one from where nothing is
mapped, which faults; an instruction in flight, a strike on what it read, and each kind of waiter. -/
theorem wit_CoreWorkCompletes :
    let y := { inst 0 with wait := .ending }
    let f (r : Option GaugeRep) : Flight :=
      { cls := 4, pc := 0, old := [], slots := [], banks := [], elems := 0, step := 0, atEnd := false, rest := [], report := r }
    let g := { inst 0 with flight := [f none] }
    let x (src flags : Nat) : DmaDesc := parseDma (le 1 1 ++ le 1 (16 + flags) ++ zeros 2 ++ le 4 1 ++ le 4 16 ++ zeros 4 ++ le 8 src ++ le 8 0x3000 ++ zeros 32)
    let tag (src : Nat) (started : Bool) : DmaTag :=
      { desc := x src 0, ctx := 0, started, reissue := false, outstanding := 0, abandoned := 0, gen := 0, pc := 0, since := 0 }
    let wait (r : Bool) (who : Waiter) : GateWait := { who, ctx := 0, gate := 256, cond := 0, operand := 0, released := r }
    let w (r : Bool) (who : Waiter) : Dev := (coring 0 (inst 0) 0).setWaits [wait r who]
    let found (who : Waiter) : Bool := (w true who).waitOf who == some (wait true who)
    let d := coring 0 (inst 0) 0
    (ready.dry = false ∧ waiterOk (.core 255) = true) ∧
    (((coring 0 y 0).core 0).inst = some y ∧ y.wait = .ending ∧ y.idle = true) ∧ (inst 0).wait ≠ .ending ∧
    ((∀ x ∈ (inst 0).flight, x.cls ≠ 4) ∧ (g.flight.find? fun z => z.cls == 4) = some (f none) ∧ (f none).report = none) ∧
    (({ inst 0 with tags := [(15, some (tag va true))] } : Inst).tag? 15 = some (tag va true) ∧ (inst 0).tag? 15 = none) ∧
    ((d.moveRows 0 0 (x va 0)).isOk = true ∧ (d.moveRows 0 0 (x 0 0)).isOk = false ∧
      linkLost [.linkFailed (phys 0)] (d.dmaReads 0 0 (x va 0)) = true ∧ linkLost [] (d.dmaReads 0 0 (x va 0)) = false ∧
      d.badIn (d.dmaReads 0 0 (x va 0)) = none) ∧
    (lostAt [.corrected 0, .uncorrectable 64] = some 64 ∧ lostAt [.corrected 0] = none) ∧
    ((w false (.core 0)).waitOf (.core 0) = some (wait false (.core 0)) ∧ (w true (.core 0)).waitOf (.core 1) = none) ∧
    ([.core 0, .dma 255 15, .steward 15 3, .order ⟨0, 0, 0⟩, .inst 15 3 0 1 0, .instDma 15 3 0 1 0 15] : List Waiter).all
      found = true := by
  refine ⟨?_, ?_, ?_, ?_, ?_, ?_, ?_, ?_, ?_⟩ <;> decide +kernel

/-- VMOV of one element has its effect, of none it retires, past the pond it faults, and what it reads may be spoilt; OPTW
outside the optimiser image faults, and in it stalls until a verdict is formed. -/
theorem wit_EngineInstructionsFaultRetireOrHaveTheirEffect :
    let w (n : Nat) : Nat := 0x4F * 2 ^ 56 + 2 ^ 48 + n
    let run (n : Nat) : Res := vec1 (fun _ a => plain32 a) (envOf (coring 0 (inst 0) (w n)) 0 3 (inst 0)) (w n)
    let o := 0x58 * 2 ^ 56 + 1
    let d := coring 0 (inst 0) o
    let e := d.spoil [.uncorrectable (pondBase 0 + 0x2000)]
    let plan : Bytes := zeros 64 ++ le 4 0x50545343 ++ le 4 0x000000FF ++ le 8 0 ++ le 4 0x00FFFFFF ++ zeros 12
    let opt := d.modField 0 fun z => { z with slots := [some { prog [] with data := plan }, none, none, none] }
    (Issues (.vmov 0) (at_ (coring 0 (inst 0) (w 1))) 0 0x4F (inst 0) (w 1)) ∧
    ((match run 0 with | .ok none => true | _ => false) = true) ∧
    ((match run 1 with
      | .ok (some x) => x.writes == [(0x1000, [0, 0, 0, 0])] &&
          (e.draw.2.badIn (x.reads.map fun r => (pondBase 0 + r.1, r.2))).isSome &&
          (d.draw.2.badIn (x.reads.map fun r => (pondBase 0 + r.1, r.2))).isNone
      | _ => false) = true) ∧
    ((match run (2 ^ 20) with | .error _ => true | _ => false) = true) ∧
    (Issues (.optw 0) (at_ d) 0 0x58 (inst 0) o ∧ d.prog (inst 0).field (inst 0).slot = some (prog []) ∧
      d.inOptImage (inst 0) = false ∧ (d.gauge 0).verdict = 0 ∧ vCount o = 1) ∧
    (opt.inOptImage (inst 0) = true ∧ ((opt.modGauge 0 fun g => { g with verdict := 1 }).gauge 0).verdict = 1) := by
  refine ⟨?_, ?_, ?_, ?_, ?_, ?_⟩ <;> decide +kernel

/-! ### The stewards and their units -/

theorem wit_StewardInstructionsControlTheirProgram :
    let at1 (w : Nat) : Dev := stewarding (prog [w])
    let loop := 0x87 * 2 ^ 56 + 2 ^ 32 + 1
    (∀ r ∈ stewardTable 0 0, StewIssues r.1 (at_ (at1 (r.2 * 2 ^ 56))) 0 0 r.2 false (prog [r.2 * 2 ^ 56]) (r.2 * 2 ^ 56)) ∧
    ready.stewReady 15 3 false = none ∧ ((stewarding (prog [])).stewReady 0 0 false = some (prog []) ∧ (prog []).word = none) ∧
    iPtr (0x89 * 2 ^ 56 + 12 * 2 ^ 52) = 12 ∧ iPtr (0x89 * 2 ^ 56 + 13 * 2 ^ 52) = 13 ∧
    (StewIssues (.floop 0 0) (at_ (at1 loop)) 0 0 0x87 false (prog [loop]) loop ∧ (prog [loop]).code.length < 8 + 8 * imm16 loop ∧
      (prog [loop, 0]).code.length = 8 + 8 * imm16 loop ∧ imm32 loop = 1) := by decide +kernel

theorem wit_StewardInstructionsGrantSignalRunAndJoin :
    let w (op cond g v : Nat) : Nat := op * 2 ^ 56 + cond * 2 ^ 52 + g * 2 ^ 32 + v
    let on (x : Nat) : Dev := (stewarding (prog [x])).putGate 256 { Gate.init with holder := 0 }
    let g : Grant :=
      { point := 0, req := 0, given := 0, energy := 1, left := 1, rate := 1, mark := 0, reserved := true }
    StewIssues (.fgrant 0 0) (at_ (on (w 0x83 0 1 1))) 0 0 0x83 false (prog [w 0x83 0 1 1]) (w 0x83 0 1 1) ∧ StewIssues (.fgrant 0 0) (at_ (on (w 0x83 0 0 1))) 0 0 0x83 false (prog [w 0x83 0 0 1]) (w 0x83 0 0 1) ∧
    (StewIssues (.foppt 0 0) (at_ (on (w 0x84 0 1 0))) 0 0 0x84 false (prog [w 0x84 0 1 0]) (w 0x84 0 1 0) ∧ (on 0).clock.length = 2) ∧
    (StewIssues (.fwaitg 0 0) (at_ (on (w 0x85 4 256 0))) 0 0 0x85 false (prog [w 0x85 4 256 0]) (w 0x85 4 256 0) ∧ condOk (iPtr (w 0x85 4 256 0)) = true ∧ condOk (iPtr (w 0x85 5 256 0)) = false ∧
      StewIssues (.fwaitg 0 0) (at_ (on (w 0x85 5 256 0))) 0 0 0x85 false (prog [w 0x85 5 256 0]) (w 0x85 5 256 0) ∧ (on 0).holds 0 256 = true ∧ (on 0).holds 0 0 = false) ∧
    StewIssues (.fsigg 0 0) (at_ (on (w 0x86 0 256 1))) 0 0 0x86 false (prog [w 0x86 0 256 1]) (w 0x86 0 256 1) ∧
    (StewIssues (.fjoin 0 0) (at_ (on (w 0x82 0 0 0))) 0 0 0x82 false (prog [w 0x82 0 0 0]) (w 0x82 0 0 0) ∧ StewIssues (.fjoin 0 0) (at_ (on (w 0x82 0 1 0))) 0 0 0x82 false (prog [w 0x82 0 1 0]) (w 0x82 0 1 0) ∧ StewIssues (.fjoin 0 0) (at_ (on (w 0x82 0 0xFFFF 0))) 0 0 0x82 false (prog [w 0x82 0 0xFFFF 0]) (w 0x82 0 0xFFFF 0) ∧
      (prog []).imgs.length = 1) ∧
    (StewIssues (.frun 0 0) (at_ (on (w 0x81 0 0 0))) 0 0 0x81 false (prog [w 0x81 0 0 0]) (w 0x81 0 0 0) ∧ (prog []).imgs[0]?.isSome = true ∧ (prog []).imgs[1]? = none ∧
      (on 0).planFault (prog []) 0 = false ∧ ((on 0).usableOf 0 false).length = 12 ∧ (on 0).grant? 0 0 = none ∧
      ((on 0).putGrant 0 0 (some g)).grant? 0 0 = some g) ∧
    (Able (.frunBind 0 0) (at_ (on 0)) ∧ ((on 0).field 0).state = .active ∧ ((on 0).field 0).held = false ∧
      ((on 0).field 0).opChange = none ∧ ((on 0).field 0).inTest = false ∧ (on 0).frozen = false) := by
  refine ⟨?_, ?_, ?_, ?_, ?_, ?_, ?_, ?_⟩ <;> decide +kernel

/-- Each job's kick issues, with its descriptor's first byte in steward data; an offset at the end of the 64 KiB. -/
theorem wit_KicksAreTakenRefusedOrWait :
    let w (u i o : Nat) : Nat := 0x88 * 2 ^ 56 + u * 2 ^ 52 + i * 2 ^ 32 + o
    let p (u job : Nat) : Prog := { prog [w u 3 0] with data := [job] }
    (∀ r ∈ kickTable 0 0, StewIssues r.1 (at_ (stewarding (p r.2.unit r.2.job))) 0 0 0x88 true (p r.2.unit r.2.job) (w r.2.unit 3 0) ∧
      kickOf (p r.2.unit r.2.job) (w r.2.unit 3 0) = r.2) ∧
    StewIssues (.fkick 0 0) (at_ (stewarding (p 4 0))) 0 0 0x88 true (p 4 0) (w 4 3 0) ∧
    imm32 (w 1 0 65408) + kickBytes 1 = 65536 ∧ 65536 < imm32 (w 1 0 65409) + kickBytes 1 ∧ iPtr (w 0 0 0) = 0 ∧
    iPtr (w 5 0 0) = 5 ∧ imm16 (w 1 4 0) = 4 := by decide +kernel

theorem wit_FlumeSlotsAndDiversionJobsRun :
    let f := ready.putFlume 3 { Flume.init with jobs := [(7, { FlumeJob.init with state := .running, ctx := 0 })],
                                                engines := [none, none, none, some (7, 1)] }
    let posted := f.putGate (f.fjob 3 7).desc.gateIn { Gate.init with value := 1 }
    let desc := parseDiv (zeros 80)
    let job (c : Bool) : DivJob :=
      { ctx := 0, district := 0, field := 0, pslot := 0, desc, pending := [], events := [0, 0, 0], copied := c }
    let v (c : Bool) : Dev := ready.putDivJob 3 3 (some (job c))
    (f.mayRun (f.fjob 3 7).ctx = true ∧ ready.mayRun (ready.fjob 3 7).ctx = false) ∧
    (nth none (f.flume 3).engines 3 = some (7, 1) ∧ nth none (ready.flume 3).engines 3 = none) ∧
    ((f.fjob 3 7).state ≠ .free ∧ f.progSuspended (f.fjob 3 7).field (f.fjob 3 7).pslot = false ∧
      (f.flume 3).engines.contains none = true ∧ posted.slotBreaks 3 7 = true ∧ f.slotBreaks 3 7 = false ∧
      (ready.fjob 3 7).state = .free) ∧
    (ready.divJob 3 3 = none ∧ (v true).divJob 3 3 = some (job true) ∧ (job true).pending = [] ∧ (job false).copied = false) := by
  decide +kernel

/-! ### Scheduling -/

theorem wit_CoresStopSaveClearAndRestore :
    let y := inst 0
    let d := coring 0 y 0
    let x := d.core 0
    let set (z : Core) : Dev := d.putCore 0 z
    let past := { y with ran := 65537 }
    (x.inst = some y ∧ d.prog y.field y.slot = some (prog []) ∧ StopCause.ends .teardown = true ∧
      (prog []).ending = none ∧ (d.core 255).inst = none) ∧
    ((prog []).cycleLimit * 65536 < past.ran ∧ ¬ (prog []).cycleLimit * 65536 < { y with ran := 65536 }.ran) ∧
    (((set { x with saving := true }).core 0).saving = true ∧ x.saving = false ∧ (x.toClear = false) ∧
      { x with inst := none, lastCtx := 1, starting := some y }.toClear = true) ∧
    (((set { x with inst := none, restoring := some y }).core 0).restoring = some y ∧ x.restoring = none ∧
      { x with inst := none, restoring := some y }.toClear = false) ∧
    (((set { x with stop := some .lending }).core 0).stop = some .lending ∧ x.stopped = false ∧ x.stop = none ∧
      StopCause.ends .lending = false ∧ d.ends y.field y.slot = false ∧ d.ends y.field 1 = true) ∧
    (d.recordBad y = none ∧ lostAt [] = none ∧ lostAt [.uncorrectable 5] = some 5) ∧
    (x.held = none ∧ ∀ r ∈ d.saves, r.core ≠ 0) := by decide +kernel

theorem wit_FieldsGateWakeAndTakeTheirQuantum :
    let delay := 1000 * ready.reg .fldPgDelay 0
    let g := ready.putField 15 { Field.init with state := .gated }
    let w := ready.putField 15 { Field.init with state := .waking }
    let r := ready.putCtx 0 { ready.ctx 0 with rootLoading := true }
    let c := ready.putField 15 { Field.init with state := .active, opChange := some 1 }
    (((g.advance delay).field 15).state = .gated ∧ ((g.advance delay).field 15).progs = [] ∧
      ((g.advance delay).field 15).queue = [] ∧ (∀ i ∈ coresIn 15, ((g.advance delay).core i).held = none) ∧
      ((g.advance delay).field 15).idleSince + delay ≤ (g.advance delay).eff ∧
      (g.advance (delay - 1)).eff < ((g.advance (delay - 1)).field 15).idleSince + delay) ∧
    ((w.field 15).state = .waking ∧ (ready.field 0).state ≠ .waking) ∧
    (ready.advance (ready.quantum - 1)).eff < (ready.advance (ready.quantum - 1)).sched.lastQuantum + ready.quantum ∧
    (ready.advance ready.quantum).sched.lastQuantum + ready.quantum ≤ (ready.advance ready.quantum).eff ∧
    (r.ctx 0).rootLoading = true ∧ (ready.ctx 1039).rootLoading = false ∧ (c.field 15).opChange = some 1 ∧
    (ready.field 0).opChange = none := by decide +kernel

/-- The ready device with a rotation of a lending entry and a TEST entry on field 1, in force or not. -/
def rotating (rot : Option (Nat × Nat)) (cnt : Nat) : Dev :=
  let es : List RotEnt := [{ startNs := 1, fieldMask := 2, district := 1, kind := 1 },
    { startNs := 5000, fieldMask := 2, district := 1, kind := 2 }]
  ((ready.setSurvey { ready.survey with committed := some { image with rotation := some (100000000, es) } }).setSched
    { ready.sched with rot }).setTime { ready.time with cnt }

/-- Entry 0 runs from 1 ns to 5,000 ns of its frame; a lead reaches an entry that starts within SCH_RT_LEAD.US, and not one
that starts 1 ns later. -/
theorem wit_RotationEntriesStartTestAndEnd :
    let t := (((rotating (some (1, 5000)) 5000000).putReg .rasTestEnable 0 1).putField 1 { ready.field 1 with inTest := true })
    let at_1 (p : Nat) : Dev := t.modField 1 fun x => { x with testPieces := p }
    let r := rotating none 1
    let late : RotEnt := { startNs := 5000, fieldMask := 2, district := 1, kind := 2 }
    let lead (n : Nat) : Dev := (rotating none 4000).putReg .schRtLead 0 n
    r.rotTable.2[2]? = none ∧ r.rotTable.2[1]? = some late ∧
    ((lead 1).rotNext late = 5000 ∧ (lead 1).rotNext late ≤ (lead 1).time.cnt + 1000 * (lead 1).reg .schRtLead 0 ∧
      ((rotating none 3999).putReg .schRtLead 0 1).time.cnt + 1000 * ((rotating none 3999).putReg .schRtLead 0 1).reg .schRtLead 0 <
        ((rotating none 3999).putReg .schRtLead 0 1).rotNext late) ∧
    (r.rotNow = some (0, 1) ∧ (rotating none 4999).rotNow = some (0, 1) ∧ (rotating none 5000).rotNow = some (1, 5000) ∧
      (rotating none 0).rotNow = none) ∧
    ((rotating (some (1, 5000)) 0).sched.rot = some (1, 5000) ∧ r.sched.rot = none) ∧
    ((t.field 1).inTest = true ∧ t.testWanted 1 = true ∧ t.pieceFits 1 = true ∧ t.fieldEmpty 1 = true ∧
      ((at_1 23).field 1).testPieces + 1 = 24 ∧ ((at_1 22).field 1).testPieces + 1 ≠ 24) := by
  refine ⟨?_, ?_, ?_, ?_, ?_, ?_⟩ <;> decide +kernel

theorem wit_ContextsResetAndTearDown :
    let d := ready.putCtx 1039 { Ctx.init with state := .teardown }
    HostAble 1025 (.resetContext 1025 1039) (at_ ready) ∧ HostAble 0 (.resetContext 0 1039) (at_ ready) ∧
    isPf 1025 = true ∧ isPf 0 = false ∧ HostAble 1024 (.teardown 1024 0) (at_ ready) ∧
    (d.ctx 1039).state = .teardown ∧ d.stoppedAll 1039 = true ∧ (ready.ctx 0).state ≠ .teardown ∧
    (stewarding (prog [])).stoppedAll 0 = false := by decide +kernel

/-! ### The memory tiers, the Lockkeeper and management -/

theorem wit_MemoryTiersLinkFailAndScrub :
    let up := ready.setCxl [(3, { CxlPort.init with state := .up })]
    let fenced := ready.putUnit kCxl 3 { RasUnit.init with state := .fenced }
    ready.dry = false ∧ Able (.cxlLinkUp 3 []) (at_ ready) ∧ 6 ≤ (stage 6).startup.stage ∧ (stage 5).startup.stage < 6 ∧
    ready.cxlUp 3 = false ∧ up.cxlUp 3 = true ∧ ready.fenced kCxl 3 = false ∧ fenced.fenced kCxl 3 = true ∧
    Able (.cxlPoison 3 (.context 0)) (at_ ready) ∧ ready.memUp 0 = true ∧ ready.memUp 31 = false ∧
    (let asked := ready.putEntry 0 { CacheEnt.init with
       live := true, state := .loading, backing := 1, backAddr := cxlBase + 3 * cxlPortBytes }
     let limit := 1000000 * ready.reg .cxlTimeout 0
     (asked.advance limit).portSince 3 = [0] ∧ 0 + limit ≤ (asked.advance limit).time.osc ∧
       (asked.advance (limit - 1)).portSince 3 = [0] ∧ (asked.advance (limit - 1)).time.osc < 0 + limit) ∧
    (ready.devOf 64 = some 0 ∧ ready.devOf (cxlBase) ≠ some 0) := by decide +kernel

/-- Sluice 1024 with a message of one command and a payload. -/
def told (command length word : Nat) : Dev :=
  ready.putSluice 1024 { ready.sluice 1024 with
    msg := (command + 2 ^ 16 * length) :: word :: List.replicate 14 0, full := true }

/-- FENCE and RETURN of the last unit of a kind, of one that does not exist, and of a Headgate beside a fenced one. -/
theorem wit_LockkeeperMessagesFenceReturnNoteAndTest :
    let unit (kind u : Nat) : Nat := kind + 2 ^ 16 * u
    let b (d : Dev) : Bytes := (d.sluice 1024).bytes.drop 4
    let ok (d : Dev) : Bool :=
      decide (leAt (b d) 0 1 ≤ 5 ∧ leAt (b d) 1 1 = 0 ∧ leAt (b d) 2 2 < nth 0 [0, 16, 256, 32, 4, 8] (leAt (b d) 0 1))
    let hg := (told 0x0101 4 (unit 5 7)).putUnit kHeadgate 6 { RasUnit.init with state := .fenced }
    let gone := (told 0x0102 4 (unit 3 31)).putUnit kDevice 31 { RasUnit.init with state := .fenced }
    (Received (.lkkFence 1024) (at_ (told 0x0101 4 (unit 1 15))) 1024 0x0101 4 true ∧ ok (told 0x0101 4 (unit 1 15)) = true ∧
      ok (told 0x0101 4 (unit 1 16)) = false ∧ ok (told 0x0101 4 (unit 0 0)) = false ∧ ok (told 0x0101 4 (unit 2 255)) = true) ∧
    (ok hg = true ∧ hg.fenced kHeadgate (partner 7) = true ∧ ready.fenced kHeadgate (partner 7) = false) ∧
    (Received (.returnUnit 1024) (at_ gone) 1024 0x0102 4 false ∧ ok gone = true ∧ (gone.unit 3 31).state = .fenced ∧
      (ready.unit 3 31).state ≠ .fenced) ∧
    Received (.note 1024) (at_ (told 0x0103 8 1)) 1024 0x0103 8 true ∧
    (Received (.selftest 1024) (at_ (told 0x0104 1 15)) 1024 0x0104 1 false ∧ leAt (b (told 0x0104 1 15)) 0 1 = 15 ∧
      leAt (b (told 0x0104 1 16)) 0 1 = 16) ∧
    Received (.copySilt 1024) (at_ (told 0x0105 0 0)) 1024 0x0105 0 false := by
  refine ⟨?_, ?_, ?_, ?_, ?_, ?_⟩ <;> decide +kernel

theorem wit_UnitsReturnHeadgatesRestartAndTemperaturesWarn :
    let warn := ready.reg .rasWarn 0
    let t := ready.setLkk { ready.lkk with tests := [(3, 31)] }
    let hg (n : Nat) : Dev := ready.setLkk { ready.lkk with hgs := ready.lkk.hgs.set 7 { Headgate.init with state := n } }
    ((3, 31) ∈ t.lkk.tests ∧ t.lkk.state = 1 ∧ Able (.returnTestDone 3 31 true) (at_ t)) ∧
    ((nth Headgate.init (hg 1).lkk.hgs 7).state = 1 ∧ (nth Headgate.init ready.lkk.hgs 7).state = 0) ∧
    Dev.reset.lkk.state ≠ 1 ∧ nth false ready.lkk.warned 4 = false ∧ 5 ≤ warn ∧ warn - 1 < warn ∧ warn - 5 + 5 ≤ warn ∧
    warn < warn - 4 + 5 ∧ ready.startup.stage ≠ 0 ∧ Dev.reset.startup.stage = 0 ∧ critC - 1 < critC ∧
    Able (.dumpRam 1025) (at_ ready) ∧ ready.deaf 1025 = false ∧ ready.ready = true ∧ (stage 8).ready = false := by
  decide +kernel

theorem wit_LockkeeperFailuresTakeOverOrEnterDry :
    let recent (l : List Nat) : Dev :=
      (ready.setLkk { ready.lkk with fails := l }).setTime { ready.time with osc := 60 * 10 ^ 9 }
    let n (d : Dev) : Nat := (d.lkk.fails.filter fun t => decide (d.time.osc < t + 60 * 10 ^ 9)).length + 1
    let back := (ready.setStartup { ready.startup with gen := .recovery }).setTime { ready.time with frozenAt := some 0 }
    Able (.lkkFail 2) (at_ ready) ∧ ready.startup.gen = .ready ∧ n (recent [1, 2]) = 3 ∧ n (recent [0, 1]) = 2 ∧
    (back.startup.gen = .recovery ∧ back.time.frozenAt = some 0) ∧ (stage 5).startup.gen = .none ∧
    Able (.lkkFail 1) (at_ (ready.setStartup { ready.startup with gen := .lkkBoot })) ∧
    Able (.lkkFail 1) (at_ (ready.setStartup { ready.startup with gen := .headgateLoad })) := by decide +kernel

/-- A device whose port B is up, so that binding 2 answers; sensors at the ends of their range; EIDs that are none. -/
theorem wit_ManagementCommandsAreAnswered :
    let up := ready.setPorts [Port.init, { Port.init with linkUp := true }]
    let cold := up.setTime { up.time with frozenAt := some 0 }
    (up.frozen = false ∧ up.lkk.state = 1 ∧ (nth Port.init up.ports (2 - 1)).linkUp = true) ∧ cold.frozen = true ∧
    (ready.putReg .lkkSmbEn 0 1).reg .lkkSmbEn 0 = 1 ∧ (nth Port.init ready.ports (1 - 1)).linkUp = false ∧
    256 % 256 = 0 ∧ 255 % 256 = 0xFF ∧ 254 % 256 ≠ 0xFF ∧ sensorCount = 11 ∧ (ready.sensor 1).isSome = true ∧
    (ready.sensor 10).isSome = true ∧ ready.sensor 11 = none ∧ ready.sensor 0 = none := by decide +kernel

theorem wit_FirmwareUpdatesRunThroughTheirStates :
    let up (n : Nat) : Dev := (ready.putReg .lkkSmbEn 0 1).setLkk { ready.lkk with update := { Update.init with state := n } }
    let limit := 120 * 10 ^ 9
    (up 0).frozen = false ∧ (up 0).mctpUp 0 = true ∧ (up 0).lkk.update.binding = 0 ∧ (up 3).lkk.update.state = 3 ∧
    (up 3).firmwareCode 1 [] = 0x0500 ∧ ((up 1).advance limit).lkk.update.lastReq + limit ≤ ((up 1).advance limit).time.osc ∧
    ((up 1).advance (limit - 1)).time.osc < ((up 1).advance (limit - 1)).lkk.update.lastReq + limit := by decide +kernel

/-! ### Registers, memory, marks, reset and Dry -/

/-- A write of width 4 and of 8 that is aligned, and some that are not; a field that must not be zero, a plain one and
one with bounds. -/
theorem wit_RegisterWritesReachTheirFieldsAndZeroIsRefused :
    let deaf := ready.setPorts [{ Port.init with retry := true }, Port.init]
    (msixAt 0 ≤ 0x10000 ∧ 0xFFFC < msixAt 0 ∧ msixAt 1024 ≤ 0x4000000 ∧ 0x3FFFFFC < msixAt 1024) ∧
    deaf.deaf 0 = true ∧ ready.deaf 1025 = false ∧ ready.dry = false ∧ ((4 = 4 ∨ 4 = 8) ∧ 0xFFFFFC % 4 = 0) ∧
    ¬ ((8 = 4 ∨ 8 = 8) ∧ 4 % 8 = 0) ∧ ¬ ((2 = 4 ∨ 2 = 8) ∧ 2 % 2 = 0) ∧
    (window 1024 0x200000).1 ∉ [1, 6, 7, 9, 15, 16, 17, 18, 19, 21, 22, 24, 25] ∧
    (∃ r ∈ Reg.all, r.info.nz = true) ∧
    (∃ r ∈ Reg.all, r.info.nz = false ∧ r.info.type ≠ .rw1c ∧ r.multiple = 1 ∧ r.info.width ≤ 64 ∧ r.info.bound = .none) ∧
    (∃ r ∈ Reg.all, r.info.bound = .near ∧ (ready.regRange r 0).2 < 2 ^ r.info.width ∧
      (ready.regRange r 0).1 < 2 ^ r.info.width ∧ r.multiple = 1 ∧ r.info.type ≠ .rw1c) := by decide +kernel

theorem wit_MemoryReadsBackWhatWasWritten :
    Memory.wf State.reset.dev.mem = true ∧ (ready.write 7 [1, 0, 2]).read 6 5 = [0, 1, 0, 2, 0] := by decide +kernel

/-- Two members in the set, the last address of one and an address that no member holds. -/
theorem wit_InterleaveIsOneToOne :
    [3, 5].Nodup ∧ (3 * homeBytes) / homeBytes ∈ [3, 5] ∧ (6 * homeBytes - 1) / homeBytes ∈ [3, 5] ∧
    (6 * homeBytes) / homeBytes ∉ [3, 5] ∧ (3 * homeBytes) / chunkBytes = (3 * homeBytes + chunkBytes - 1) / chunkBytes := by
  decide +kernel

/-- The counts beside a threshold. -/
theorem wit_CorrectedErrorsCountAndMarkTheirThresholds :
    let steps : List Nat := [1, 16, 256, 4096, 65536]
    let d (n : Nat) : Dev := ready.putUnit 1 15 { RasUnit.init with ce := n }
    ((d 14).unit 1 15).ce + 1 ∉ steps ∧ ((d 15).unit 1 15).ce + 1 ∈ steps ∧ ((d 65535).unit 1 15).ce + 1 ∈ steps ∧
    unitKey 1 14 ≠ unitKey 1 15 := by decide +kernel

theorem wit_ResetLeavesTheResetColumns : Reg.intQuota.resetOf 1023 < 2 ^ 64 ∧ 1023 < 1024 := by decide +kernel

/-- A device in Dry with commands that wait, none of which may leave it; it steps. -/
def dry : State :=
  { pending := [.watchdogKick, .warm 1024], dev := Dev.reset.setStartup { Startup.init with gen := .dry, stage := 9 } }

theorem wit_DryIsLeftOnlyByFullOrSupplyLoss :
    InDry dry ∧ step dry = .next { dry with pending := [.warm 1024] } ∧ mayLeaveDry (.full 1025) = true ∧
    mayLeaveDry (.fullResetN ⟨[], 0⟩) = true ∧ mayLeaveDry (.registerWrite 1025 0x1900014 4 2) = true ∧ mayLeaveDry (.registerWrite 0 0x1900014 4 2) = false := by
  refine ⟨by decide +kernel, rfl, ?_, ?_, ?_, ?_⟩ <;> decide +kernel

theorem wit_AWellFormedQueueRunsToItsEnd :
    let q : State := { at_ ready with pending := [.pcieBarMiss 1025, .watchdogKick] }
    (∀ c ∈ q.pending, c.wf = true) ∧ (Instr.pcieBarMiss 1026).wf = false := by decide +kernel

end Sys2Proof.Tests
end

section
/-!
PROOFS. Writes of the host to the register fields (00 R8, R13; 02 R56): what one field takes, what a forbidden zero
leaves, and which writes reach the fields of a block and nothing else.
-/
namespace Sys2Proof.Machine
open Sys2Proof.Claims

/-- A fold whose every step leaves the start as it is. -/
theorem foldl_of_fixed {α β : Type} {f : α → β → α} {a : α} (h : ∀ b, f a b = a) (l : List β) : l.foldl f a = a := by
  induction l with
  | nil => rfl
  | cons b r ih => rw [List.foldl_cons, h, ih]

/-! ### One field -/

/-- What is put into a field is read from it, cut to the field's width. -/
theorem Dev.reg_putReg_same (d : Dev) (r : Reg) (i v : Nat) (hw : r.info.width ≤ 64) :
    (d.putReg r i v).reg r i = v % 2 ^ r.info.width := by
  have hlt : v % 2 ^ r.info.width < 2 ^ 64 :=
    Nat.lt_of_lt_of_le (Nat.mod_lt v (Nat.two_pow_pos _)) (Nat.pow_le_pow_right (by decide) hw)
  simpa [Dev.reg, Dev.putReg] using hlt

/-- A field holds what it takes, also where that is what it held before and nothing is put. -/
theorem Dev.reg_writeField_same (d : Dev) (r : Reg) (i v : Nat) (hw : r.info.width ≤ 64)
    (ht : d.taken? r i (d.reg r i) v < 2 ^ r.info.width) :
    (d.writeField r i v).reg r i = d.taken? r i (d.reg r i) v := by
  by_cases h : d.taken? r i (d.reg r i) v = d.reg r i
  · simp [Dev.writeField, h]
  · simp [Dev.writeField, h, Dev.reg_putReg_same _ _ _ _ hw, Nat.mod_eq_of_lt ht]

/-- 00 R6: a plain field takes the value. -/
theorem Dev.taken_of_plain (d : Dev) (r : Reg) (i old v : Nat) (ht : r.info.type ≠ .rw1c) (hm : r.multiple = 1)
    (hz : r.info.nz = false) (hb : r.info.bound = .none) : d.taken? r i old v = v := by
  unfold Dev.taken?
  split
  · contradiction
  · simp [hz, hb, hm]

/-- 02 R56: a field with bounds takes the nearest bound. -/
theorem Dev.taken_of_near (d : Dev) (r : Reg) (i old v : Nat) (ht : r.info.type ≠ .rw1c) (hm : r.multiple = 1)
    (hv : v ≠ 0) (hb : r.info.bound = .near) :
    d.taken? r i old v = max (d.regRange r i).1 (min (d.regRange r i).2 v) := by
  unfold Dev.taken?
  split
  · contradiction
  · simp [hv, hb, hm, clamp]

/-- No field that must not be zero is one that a written 1 clears. -/
theorem Reg.nz_not_rw1c (r : Reg) : (r.info.nz && r.info.type == .rw1c) = false := by
  cases r <;> rfl

/-- 00 R13: a field that must not be zero keeps what it holds at a zero. -/
theorem Dev.taken_zero_of_nz (d : Dev) (r : Reg) (i old : Nat) (hz : r.info.nz = true) : d.taken? r i old 0 = old := by
  have ht := r.nz_not_rw1c
  unfold Dev.taken?
  split
  next h => simp [hz, h] at ht
  next => simp [hz]

theorem Dev.writeField_zero_of_nz (d : Dev) (r : Reg) (i : Nat) (hz : r.info.nz = true) : d.writeField r i 0 = d := by
  simp [Dev.writeField, Dev.taken_zero_of_nz _ _ _ _ hz]

/-- 00 R13: a zero into a field that must not be zero has no effect on the device. Of the fields
whose write has an effect beyond the field, only SHARES (h_6) and ENERGY (h_7) must not be zero, and a write that leaves
them as they are settles nothing. -/
theorem Dev.fieldWritten_zero_of_nz (d : Dev) (r : Reg) (c : Nat) (hz : r.info.nz = true) : d.fieldWritten r c 0 = d := by
  unfold Dev.fieldWritten
  split
  case h_6 => simp [Dev.taken_zero_of_nz _ _ _ _ hz]
  case h_7 => simp [Dev.taken_zero_of_nz _ _ _ _ hz]
  case h_8 => simp [Dev.writeField_zero_of_nz _ _ _ hz]
  all_goals cases hz

/-- A write whose words miss a field that must not be zero, or put zero into it, leaves the device as it is. -/
theorem Dev.writeReg_of_nz (d : Dev) (fn : Nat) (ws : List (Nat × Nat)) (r : Reg) (hz : r.info.nz = true)
    (h : ∀ b old, merged ws b r.info.lo r.info.width old false = none ∨
      merged ws b r.info.lo r.info.width old false = some 0) : d.writeReg fn ws r = d := by
  have ht : (r.info.type == .rw1c) = false := by simpa [hz] using r.nz_not_rw1c
  unfold Dev.writeReg
  split
  · rfl
  · refine foldl_of_fixed (fun j => ?_) _
    rw [ht]
    dsimp only
    split
    next => rfl
    next v hv =>
      obtain h0 | h0 := h _ _ <;> rw [hv] at h0 <;> cases h0
      exact d.fieldWritten_zero_of_nz r _ hz

/-! ### The fields of a block -/

/-- Outside the slots HIF_ and SEC_ no word is a command register that every function has. -/
theorem Dev.fnWord_of_other (d : Dev) (fn slot o v : Nat) (h : slot ∉ [16, 18]) : d.fnWord fn slot o v = d := by
  simp_all [Dev.fnWord]

/-- Outside these slots no word is a command register of the physical functions. -/
theorem Dev.pfWord_of_other (d : Dev) (fn slot o v : Nat) (h : slot ∉ [1, 6, 7, 9, 15, 22, 24, 25]) :
    d.pfWord fn slot o v = d := by
  simp_all [Dev.pfWord]

/-- Outside Dry, a write into a block without a command register writes the block's fields, in their order. -/
theorem Dev.blockWrite_of_plain_slot (d : Dev) (fn slot o len v : Nat) (hd : d.dry = false)
    (h : slot ∉ [1, 6, 7, 9, 15, 16, 17, 18, 19, 21, 22, 24, 25]) :
    d.blockWrite fn slot o len v =
      (Reg.all.filter fun r => r.info.slot == slot && !r.commanded).foldl (fun e r => e.writeReg fn (wordsOf o len v) r) d := by
  have hf : slot ∉ [16, 18] := by simp_all
  have hp : slot ∉ [1, 6, 7, 9, 15, 22, 24, 25] := by simp_all
  simp only [List.mem_cons, not_or] at h
  simp [Dev.blockWrite, hd, h, Dev.fnWord_of_other _ _ _ _ _ hf, Dev.pfWord_of_other _ _ _ _ _ hp, foldl_of_fixed]

/-! ### The command -/

variable {s : State} {fn off len : Nat} {data : DWord}

theorem exec_registerWrite :
    exec (.registerWrite fn off len data) s = execRegisterWrite fn off len data s := rfl

theorem registerWrite_wf (hfn : fn < 1026) : (Instr.registerWrite fn off len data).wf = true := decide_eq_true hfn

/-- 16 R380: a port in Retry Status discards the write. -/
theorem leaves_registerWrite_of_deaf (hfn : fn < 1026) (hf : s.dev.deaf fn = true) :
    Leaves (.registerWrite fn off len data) s := by
  simp [Leaves, Runs, exec_registerWrite, execRegisterWrite, always_ok (registerWrite_wf hfn), hf]

/-- 00 R8: a write of another width or alignment is a violation. -/
theorem runs_registerWrite_of_misaligned (hfn : fn < 1026) (hf : s.dev.deaf fn = false) (hd : s.dev.dry = false)
    (ha : ¬ ((len = 4 ∨ len = 8) ∧ off % len = 0)) :
    Runs (.registerWrite fn off len data) s (s.dev.violation fn 0x0401) := by
  simp [Runs, exec_registerWrite, execRegisterWrite, always_ok (registerWrite_wf hfn), hf, hd, ha]

/-- 14 R321: behind the registers stands the MSI-X table, written word by word. -/
theorem runs_registerWrite_of_msix (hfn : fn < 1026) (hf : s.dev.deaf fn = false)
    (ha : (len = 4 ∨ len = 8) ∧ off % len = 0) (ho : msixAt fn ≤ off) :
    Runs (.registerWrite fn off len data) s
      ((wordsOf (off - msixAt fn) len data.toNat).foldl (fun e w => e.msixWrite fn w.1 w.2) s.dev) := by
  simp [Runs, exec_registerWrite, execRegisterWrite, always_ok (registerWrite_wf hfn), hf, ha, ho]

/-- 11 R257: an offset of the registers reaches the block of its slot. -/
theorem runs_registerWrite_of_block (hfn : fn < 1026) (hf : s.dev.deaf fn = false)
    (ha : (len = 4 ∨ len = 8) ∧ off % len = 0) (ho : off < msixAt fn) :
    Runs (.registerWrite fn off len data) s
      (s.dev.blockWrite fn (window fn off).1 (window fn off).2 len data.toNat) := by
  simp [Runs, exec_registerWrite, execRegisterWrite, always_ok (registerWrite_wf hfn), hf, ha, Nat.not_le.mpr ho]

end Sys2Proof.Machine

namespace Sys2Proof.Proofs
open Sys2Proof.Machine Sys2Proof.Claims

/-- Settles O53: the clauses of the command are R8's cases, and what a field holds afterwards is what it takes. -/
theorem registerWritesReachTheirFieldsAndZeroIsRefused :
    Obligations.RegisterWritesReachTheirFieldsAndZeroIsRefused := by
  intro s fn off len data hfn
  refine ⟨leaves_registerWrite_of_deaf hfn, runs_registerWrite_of_misaligned hfn, runs_registerWrite_of_msix hfn, ?_,
    fun e r => e.writeReg_of_nz fn _ r, fun e r c v hv ht hm hw => ⟨fun hz hb => ?_, fun hv0 hb hhi hlo => ?_⟩⟩
  · intro hf hd ha ho hslot
    exact s.dev.blockWrite_of_plain_slot fn _ _ _ _ hd hslot ▸ runs_registerWrite_of_block hfn hf ha ho
  · have htaken := e.taken_of_plain r c (e.reg r c) v ht hm hz hb
    exact (e.reg_writeField_same r c v hw (htaken.symm ▸ hv)).trans htaken
  · have htaken := e.taken_of_near r c (e.reg r c) v ht hm hv0 hb
    have hlt : max (e.regRange r c).1 (min (e.regRange r c).2 v) < 2 ^ r.info.width :=
      Nat.max_lt.mpr ⟨hlo, Nat.lt_of_le_of_lt (Nat.min_le_right _ _) hv⟩
    exact (e.reg_writeField_same r c v hw (htaken.symm ▸ hlt)).trans htaken

end Sys2Proof.Proofs
end

section
/-!
PROOFS. Time marks (00 R15): a source's next mark never lies below the nanosecond after its last one, and nothing but a
mark of its own moves that nanosecond.
-/
namespace Sys2Proof.Machine
open Sys2Proof.Claims

/-- The nanosecond after the last mark of a source: the least its next mark can be. -/
def Dev.leastMark (d : Dev) (src : Nat) : Nat := Tbl.get 0 d.time.marks src

theorem Dev.mark_fst (d : Dev) (src : Nat) : (d.mark src).1 = max d.time.cnt (d.leastMark src) := rfl

theorem Dev.leastMark_le_mark (d : Dev) (src : Nat) : d.leastMark src ≤ (d.mark src).1 := Nat.le_max_right _ _

/-- A mark does not move the counter. -/
theorem Dev.mark_cnt (d : Dev) (src : Nat) : (d.mark src).2.time.cnt = d.time.cnt := rfl

theorem Dev.leastMark_mark_same (d : Dev) (src : Nat) : (d.mark src).2.leastMark src = (d.mark src).1 + 1 := by
  simp [Dev.leastMark, Dev.mark, Dev.issue]

theorem Dev.leastMark_mark_ne (d : Dev) {src k : Nat} (h : k ≠ src) : (d.mark src).2.leastMark k = d.leastMark k := by
  simp [Dev.leastMark, Dev.mark, Dev.issue, Tbl.get_set_ne h]

/-- Time that passes issues no mark (16 R375, R376). -/
theorem Time.marks_tick (x : Time) (t : Nat) : (x.tick t).marks = x.marks := by
  unfold Time.tick
  split
  · rfl
  · dsimp only
    split <;> rfl

/-- The passing of time leaves every source's least mark. -/
theorem Dev.leastMark_advance (d : Dev) (at_ k : Nat) : (d.advance at_).leastMark k = d.leastMark k := by
  by_cases h : d.time.osc < at_ <;> simp [Dev.leastMark, Dev.advance, h, Time.marks_tick]

/-- A mark of any source takes no source's next mark back. -/
theorem Dev.leastMark_le_leastMark_mark (d : Dev) (src k : Nat) : d.leastMark k ≤ (d.mark src).2.leastMark k := by
  by_cases h : k = src
  · subst h
    rw [Dev.leastMark_mark_same]
    exact Nat.le_succ_of_le (d.leastMark_le_mark k)
  · exact Nat.le_of_eq (d.leastMark_mark_ne h).symm

/-- 00 R15: the second event of a source in a nanosecond takes the next one. -/
theorem Dev.mark_mark_same (d : Dev) (src : Nat) : ((d.mark src).2.mark src).1 = (d.mark src).1 + 1 := by
  have hcnt : d.time.cnt ≤ (d.mark src).1 := Nat.le_max_left _ _
  rw [Dev.mark_fst, Dev.mark_cnt, Dev.leastMark_mark_same]
  omega

/-- Every mark of a sequence of events is at least what its source could give at the start. -/
theorem leastMark_le_of_mem_stamped {l : List (Nat × Nat)} :
    ∀ {d : Dev} {x : Nat × Nat}, x ∈ stamped d l → d.leastMark x.2 ≤ x.1 := by
  induction l with
  | nil => intro d x hx; cases hx
  | cons e r ih =>
    intro d x hx
    rw [← d.leastMark_advance e.1]
    obtain rfl | hx := List.mem_cons.mp hx
    · exact Dev.leastMark_le_mark _ _
    · exact Nat.le_trans (Dev.leastMark_le_leastMark_mark _ e.2 x.2) (ih hx)

/-- 00 R15: of two events of one source the later has the greater mark. -/
theorem stamped_pairwise {l : List (Nat × Nat)} :
    ∀ d : Dev, (stamped d l).Pairwise fun x y => x.2 = y.2 → x.1 < y.1 := by
  induction l with
  | nil => intro d; exact List.Pairwise.nil
  | cons e r ih =>
    intro d
    refine List.pairwise_cons.mpr ⟨fun y hy hsrc => ?_, ih _⟩
    have hle := leastMark_le_of_mem_stamped hy
    rw [← hsrc, Dev.leastMark_mark_same] at hle
    exact hle

end Sys2Proof.Machine

namespace Sys2Proof.Proofs
open Sys2Proof.Machine Sys2Proof.Claims

/-- Settles O54: by induction on the events, the marks of one source rise along them. -/
theorem timeMarksAreUniqueForEachSource : Obligations.TimeMarksAreUniqueForEachSource := by
  refine ⟨fun d l => ?_, fun d l src => ?_, Dev.mark_mark_same, ?_, ?_⟩
  · refine (stamped_pairwise d).imp fun {x y} hlt (heq : x = y) => ?_
    subst heq
    exact absurd (hlt rfl) (Nat.lt_irrefl _)
  · refine List.pairwise_filter.mpr ((stamped_pairwise d).imp fun hlt hx hy => hlt ?_)
    simp_all
  · intro k hk
    simp only [srcCore, srcSteward, srcHeadgate, srcFlume, srcCfl, srcDiv, srcGauge, srcMem, srcCxl, srcDma, srcGate, srcRing]
    omega
  · decide

end Sys2Proof.Proofs
end

section
/-!
PROOFS. The state after a cold reset (00 R5; 14 R336, Table 14-9).
-/
namespace Sys2Proof.Machine

/-- A field of the reset state reads its Reset column. -/
theorem Dev.reset_reg (r : Reg) (i : Nat) (h : r.resetOf i < 2 ^ 64) : Dev.reset.reg r i = r.resetOf i := by
  simpa [Dev.reg, Dev.reset] using h

/-- No Sluice holds a message at reset. -/
theorem sluiceReset_full (sl : Nat) : (sluiceReset sl).full = false := by
  simp only [sluiceReset, apply_ite Sluice.full]
  simp [Sluice.unbound]

/-- 14 R336: tenant t sends to Headgate t div 128. -/
theorem sluiceReset_tenant {t : Nat} (h : t < 1024) :
    (sluiceReset t).sender = t ∧ (sluiceReset t).receiver = 0x500 + t / 128 := by
  simp [sluiceReset, h]

/-- Table 14-9: Headgate k sends to the Lockkeeper. -/
theorem sluiceReset_headgate {k : Nat} (h : k < 8) :
    (sluiceReset (1028 + k)).sender = 0x500 + k ∧ (sluiceReset (1028 + k)).receiver = 0x600 := by
  simp (disch := omega) [sluiceReset, if_neg, if_pos]

/-- Table 14-9: the entries from 1,036 on are unbound. -/
theorem sluiceReset_unbound (k : Nat) : sluiceReset (1036 + k) = Sluice.unbound := by
  simp (disch := omega) [sluiceReset, if_neg]

end Sys2Proof.Machine

namespace Sys2Proof.Proofs
open Sys2Proof.Machine Sys2Proof.Claims

/-- Settles O58: the reset state lists nothing, so every field and Sluice reads as its reset value. -/
theorem resetLeavesTheResetColumns : Obligations.ResetLeavesTheResetColumns := by
  refine ⟨rfl, rfl, rfl, rfl, rfl, rfl, rfl, rfl, rfl, Dev.reset_reg, fun _ _ => rfl, fun t ht => ?_, ⟨rfl, rfl, rfl⟩,
    ⟨rfl, rfl, rfl⟩, ⟨rfl, rfl, rfl⟩, ⟨rfl, rfl, rfl⟩, fun k hk => ?_, fun k _ => ?_⟩
  · obtain ⟨hs, hr⟩ := sluiceReset_tenant ht
    exact ⟨hs, hr, sluiceReset_full t⟩
  · obtain ⟨hs, hr⟩ := sluiceReset_headgate hk
    exact ⟨hs, hr, sluiceReset_full _⟩
  · have h := sluiceReset_unbound k
    exact ⟨congrArg Sluice.sender h, congrArg Sluice.receiver h, sluiceReset_full _⟩

end Sys2Proof.Proofs
end

section
/-!
PROOFS. The survey unit (02 R38, R51, R53, R55, R425): what each command of SRV_CMD does once it is accepted, how the read
of an image ends, and how a drain and APPLYING end.
-/
namespace Sys2Proof.Claims
open Sys2Proof.Machine

variable {i : Instr} {s : State} {d e : Dev}

/-- The next device may be named by any expression equal to it. -/
theorem Runs.congr (h : Runs i s d) (he : d = e) : Runs i s e := he ▸ h

theorem Runs.congr_pump (h : Runs i s d.pump) (he : d = e) : Runs i s e.pump := h.congr (congrArg Dev.pump he)

end Sys2Proof.Claims

namespace Sys2Proof.Machine
open Sys2Proof.Claims

/-! ### SRV_CMD -/

theorem isPf_pf {port : Nat} (h : port < 2) : isPf (pf port) = true := by
  simp only [isPf, pf, Bool.or_eq_true, beq_iff_eq]
  omega

theorem portOf_pf (port : Nat) : portOf (pf port) = port := by simp [portOf, pf]

theorem fnOk_pf {port : Nat} (h : port < 2) : fnOk (pf port) = true :=
  decide_eq_true (Nat.add_lt_add_left h 1024)

section SrvRun
variable {d : Dev} {port op k : Nat} {flash : Bool} {i : Image} {bs : Bytes}

/-- R51: one command runs at a time, and none before READY. -/
theorem Dev.srvCmd_of_busy (h0 : op ≠ 0) (h : d.survey.cmd.isSome = true ∨ d.ready = false) :
    d.srvCmd port op k flash = d.srvEnd port op 0x0188 := by
  simp [Dev.srvCmd, h0, h]

theorem Dev.srvCmd_of_free (h0 : op ≠ 0) (hcmd : d.survey.cmd = none) (hready : d.ready = true) :
    d.srvCmd port op k flash = (d.srvRun port op k flash).pump := by
  simp [Dev.srvCmd, h0, hcmd, hready]

/-- R51: STAGE while the other function holds the staged image. -/
theorem Dev.srvRun_stage_of_other (hs : d.survey.staged.isSome = true) (ho : d.ownImage port = none) :
    d.srvRun port 1 k flash = d.srvEnd port 1 0x0188 := by
  simp [Dev.srvRun, hs, ho]

theorem Dev.srvRun_stage (h : d.survey.staged = none ∨ (d.ownImage port).isSome = true) :
    d.srvRun port 1 k flash = d.setSurvey
      { d.survey with staged := none, state := .verifying, cmd := some (port, 1, d.reg .srvImageLen port) } := by
  have hn : ¬ (d.survey.staged.isSome ∧ (d.ownImage port).isNone) := by
    obtain h | h := h <;> simp [h, ← Option.isSome_iff_ne_none]
  simp only [Dev.srvRun, if_true, if_neg hn]

/-- R51: INITIAL, RESURVEY, STORE_DEFAULT and DISCARD need an image that the function has staged. -/
theorem Dev.srvRun_of_unstaged (hop : 2 ≤ op ∧ op ≤ 5) (ho : d.ownImage port = none) :
    d.srvRun port op k flash = d.srvEnd port op 0x0187 := by
  simp (disch := omega) [Dev.srvRun, ho, if_neg]

/-- R55: INITIAL while a district is there. -/
theorem Dev.srvRun_initial_of_present (ho : d.ownImage port = some (i, bs))
    (hj : ∃ j, j < 16 ∧ (d.dist j).state ≠ .absent) : d.srvRun port 2 k flash = d.srvEnd port 2 0x0189 := by
  simp [Dev.srvRun, ho, hj]

theorem Dev.srvRun_initial_of_refused (ho : d.ownImage port = some (i, bs))
    (hj : ∀ j, j < 16 → (d.dist j).state = .absent) (hc : d.judgeCode bs true none ≠ 0) :
    d.srvRun port 2 k flash = d.srvEnd port 2 (d.judgeCode bs true none) := by
  simp +contextual [Dev.srvRun, ho, hc, hj]

theorem Dev.srvRun_initial (ho : d.ownImage port = some (i, bs))
    (hj : ∀ j, j < 16 → (d.dist j).state = .absent) (hc : d.judgeCode bs true none = 0) :
    d.srvRun port 2 k flash = (d.commitAll bs).dropStaged.srvEnd port 2 0 := by
  simp +contextual [Dev.srvRun, ho, hc, hj]

theorem Dev.srvRun_resurvey_of_refused (ho : d.ownImage port = some (i, bs))
    (hc : d.judgeCode bs true (some k) ≠ 0) :
    d.srvRun port 3 k flash = d.srvEnd port 3 (d.judgeCode bs true (some k)) := by
  simp [Dev.srvRun, ho, hc]

theorem Dev.srvRun_resurvey (ho : d.ownImage port = some (i, bs)) (hc : d.judgeCode bs true (some k) = 0) :
    d.srvRun port 3 k flash = d.startResurvey port k bs := by
  simp [Dev.srvRun, ho, hc]

theorem Dev.srvRun_storeDefault_of_refused (ho : d.ownImage port = some (i, bs))
    (hc : d.judgeCode bs false none ≠ 0) :
    d.srvRun port 4 k flash = d.srvEnd port 4 (d.judgeCode bs false none) := by
  simp [Dev.srvRun, ho, hc]

theorem Dev.srvRun_storeDefault (ho : d.ownImage port = some (i, bs)) (hc : d.judgeCode bs false none = 0) :
    d.srvRun port 4 k flash =
      (d.setSec { d.sec with flash := { d.sec.flash with image := bs } }).dropStaged.srvEnd port 4 0 := by
  simp [Dev.srvRun, ho, hc]

theorem Dev.srvRun_discard (ho : d.ownImage port = some (i, bs)) :
    d.srvRun port 5 k flash = d.dropStaged.srvEnd port 5 0 := by
  simp [Dev.srvRun, ho]

/-- R55: RAISE_FLOOR never lowers the floor. -/
theorem Dev.srvRun_raiseFloor_of_le (h : d.survey.committedSerial ≤ d.sec.flash.surveyFloor) :
    d.srvRun port 6 k flash = d.srvEnd port 6 0 := by
  simp [Dev.srvRun, h]

/-- 15 R347: a write of the replay-protected region that fails leaves the floor. -/
theorem Dev.srvRun_raiseFloor_of_flash_fails (h : d.sec.flash.surveyFloor < d.survey.committedSerial)
    (hw : flash = false) :
    d.srvRun port 6 k flash = d.srvEnd port 6 0x050A := by
  simp [Dev.srvRun, Nat.not_le.mpr h, hw]

theorem Dev.srvRun_raiseFloor (h : d.sec.flash.surveyFloor < d.survey.committedSerial) (hw : flash = true) :
    d.srvRun port 6 k flash = (d.setSec { d.sec with
      flash := { d.sec.flash with surveyFloor := d.survey.committedSerial } }).srvEnd port 6 0 := by
  simp [Dev.srvRun, Nat.not_le.mpr h, hw]

end SrvRun

section Commands
variable {s : State} {port k : Nat} {flash : Bool}
variable (hp : port < 2) (hd : s.dev.dry = false) (hf : s.dev.deaf (pf port) = false)
include hp hd hf

/-- A command that is a physical function's write of SRV_CMD. -/
theorem runs_of_srvBy {i : Instr} {op : Nat} (hw : i.wf = true)
    (he : exec i s = hosted (pf port) i s fun d => d.srvBy (pf port) op k flash) :
    Runs i s (s.dev.srvCmd port op k flash) := by
  simp [Runs, he, hosted_ok hw hd hf, Dev.srvBy, isPf_pf hp, portOf_pf]

theorem runs_stage : Runs (.stage (pf port)) s (s.dev.srvCmd port 1 0 true) :=
  runs_of_srvBy hp hd hf (fnOk_pf hp) rfl

theorem runs_initial : Runs (.initial (pf port)) s (s.dev.srvCmd port 2 0 true) :=
  runs_of_srvBy hp hd hf (fnOk_pf hp) rfl

theorem runs_resurvey (hk : k < 16) : Runs (.resurvey (pf port) k) s (s.dev.srvCmd port 3 k true) :=
  runs_of_srvBy hp hd hf (Bool.and_eq_true_iff.mpr ⟨fnOk_pf hp, decide_eq_true hk⟩) rfl

theorem runs_storeDefault : Runs (.storeDefault (pf port)) s (s.dev.srvCmd port 4 0 true) :=
  runs_of_srvBy hp hd hf (fnOk_pf hp) rfl

theorem runs_discard : Runs (.discard (pf port)) s (s.dev.srvCmd port 5 0 true) :=
  runs_of_srvBy hp hd hf (fnOk_pf hp) rfl

theorem runs_raiseFloor : Runs (.raiseFloor (pf port) flash) s (s.dev.srvCmd port 6 0 flash) :=
  runs_of_srvBy hp hd hf (fnOk_pf hp) rfl

end Commands

/-! ### The image's read, the drain and APPLYING -/

section Staging
variable {d : Dev} {port len : Nat} {bytes : Bytes}

theorem Dev.stageDone_of_verified (hcmd : d.survey.cmd = some (port, 1, len))
    (hc : d.verifyImage (bytes.take len) (some len) false = 0) :
    d.stageDone bytes = (d.setSurvey { d.survey with
      staged := some (pf port, parseImage (bytes.take len), bytes.take len), cmd := none,
      state := .staged }).srvEnd port 1 0 := by
  simp [Dev.stageDone, hcmd, hc, Survey.rest]

/-- R51: a STAGE that fails leaves no image staged. -/
theorem Dev.stageDone_of_refused (hcmd : d.survey.cmd = some (port, 1, len))
    (hc : d.verifyImage (bytes.take len) (some len) false ≠ 0)
    (h3 : d.verifyImage (bytes.take len) (some len) false ≠ 0x0503)
    (h4 : d.verifyImage (bytes.take len) (some len) false ≠ 0x0504) :
    d.stageDone bytes = (d.setSurvey { d.survey with staged := none, cmd := none, state := .idle }).srvEnd port 1
      (d.verifyImage (bytes.take len) (some len) false) := by
  simp [Dev.stageDone, hcmd, hc, h3, h4, Survey.rest]

/-- 15 R349: an image whose key or signature fails adds to SEC_VERIFY_FAIL. -/
theorem Dev.stageDone_of_unsigned (hcmd : d.survey.cmd = some (port, 1, len))
    (hc : d.verifyImage (bytes.take len) (some len) false = 0x0503 ∨
      d.verifyImage (bytes.take len) (some len) false = 0x0504) :
    d.stageDone bytes = ((d.setSec { d.sec with verifyFail := sat32 (d.sec.verifyFail + 1) }).setSurvey
      { d.survey with staged := none, cmd := none, state := .idle }).srvEnd port 1
      (d.verifyImage (bytes.take len) (some len) false) := by
  obtain hc | hc := hc <;> simp [Dev.stageDone, hcmd, hc, Survey.rest]

/-- R425: a read that fails ends STAGE with the code of Table 14-12. -/
theorem Dev.stageFail_of_staging (code : Nat) (hcmd : d.survey.cmd = some (port, 1, len)) :
    d.stageFail code = (d.setSurvey d.survey.rest).srvEnd port 1 code := by
  simp [Dev.stageFail, hcmd]

end Staging

theorem Dev.applied_of_applying {d : Dev} {port op k : Nat} (hready : d.ready = true)
    (hst : d.survey.state = .applying) (hcmd : d.survey.cmd = some (port, op, k)) :
    d.applied = ((d.commitOne k d.survey.target).setSurvey
      { (d.commitOne k d.survey.target).survey with target := [] }).dropStaged.srvEnd port 3 0 := by
  simp [Dev.applied, hready, hst, hcmd]

section Events
variable {s : State} (hd : s.dev.dry = false)
include hd

theorem runs_of_live {i : Instr} {f : Dev → Dev} (hw : i.wf = true) (he : exec i s = live i s f) :
    Runs i s (f s.dev) := he.trans (live_ok hw hd)

theorem runs_surveyImageRead (bytes : Bytes) : Runs (.surveyImageRead bytes) s (s.dev.stageDone bytes) :=
  runs_of_live (f := (·.stageDone bytes)) hd rfl rfl

theorem runs_pcieCplTimeout_image : Runs (.pcieCplTimeout .image) s (s.dev.stageFail 0x0404) :=
  runs_of_live (f := (·.stageFail 0x0404)) hd rfl rfl

theorem runs_pcieCplError_image : Runs (.pcieCplError .image) s (s.dev.stageFail 0x0405) :=
  runs_of_live (f := (·.stageFail 0x0405)) hd rfl rfl

theorem runs_applyDone : Runs .applyDone s s.dev.applied.pump :=
  runs_of_live (f := (·.applied.pump)) hd rfl rfl

/-- R53: while a district drains, its work stops once SRV_DRAIN_LIMIT has passed. -/
theorem runs_srvDrainLimit_of_draining {at_ port op k : Nat} (hst : (s.dev.advance at_).survey.state = .draining)
    (hcmd : (s.dev.advance at_).survey.cmd = some (port, op, k)) :
    Runs (.srvDrainLimit at_) s
      (if (s.dev.advance at_).survey.drainStart + 1000000 * (s.dev.advance at_).reg .srvDrainLimit port ≤
        (s.dev.advance at_).eff then ((s.dev.advance at_).drainStop k).pump else s.dev.advance at_) := by
  have h : exec (.srvDrainLimit at_) s = execSrvDrainLimit at_ s := rfl
  simp [Runs, h, execSrvDrainLimit, live_ok (i := .srvDrainLimit at_) rfl hd, hst, hcmd]

end Events

end Sys2Proof.Machine

namespace Sys2Proof.Proofs
open Sys2Proof.Machine Sys2Proof.Claims

/-- Settles O25: each command is one write of SRV_CMD, refused while the unit is busy and otherwise the run of its OP. -/
theorem surveyCommandsStageCommitAndDrain : Obligations.SurveyCommandsStageCommitAndDrain := by
  intro s port k flash hp hk hd hf
  have stage := runs_stage hp hd hf
  have initial := runs_initial hp hd hf
  have resurvey := runs_resurvey hp hd hf hk
  have store := runs_storeDefault hp hd hf
  have discard := runs_discard hp hd hf
  have raise := runs_raiseFloor (flash := flash) hp hd hf
  refine ⟨fun hbusy => ?_, fun hcmd hready => ?_⟩
  · simp only [Dev.srvCmd_of_busy (Nat.succ_ne_zero _) hbusy] at stage initial resurvey store discard raise
    exact ⟨stage, initial, resurvey, store, discard, raise⟩
  · simp only [Dev.srvCmd_of_free (Nat.succ_ne_zero _) hcmd hready] at stage initial resurvey store discard raise
    refine ⟨fun hs ho => stage.congr_pump (Dev.srvRun_stage_of_other hs ho),
      fun h => stage.congr_pump (Dev.srvRun_stage h), fun ho => ?unstaged, fun i bs ho => ?staged,
      fun h => raise.congr_pump (Dev.srvRun_raiseFloor_of_le h), fun h => ?floor⟩
    case unstaged =>
      exact ⟨initial.congr_pump (Dev.srvRun_of_unstaged (by decide) ho),
        resurvey.congr_pump (Dev.srvRun_of_unstaged (by decide) ho),
        store.congr_pump (Dev.srvRun_of_unstaged (by decide) ho),
        discard.congr_pump (Dev.srvRun_of_unstaged (by decide) ho)⟩
    case staged =>
      exact ⟨fun hj => initial.congr_pump (Dev.srvRun_initial_of_present ho hj),
        fun hj hc => initial.congr_pump (Dev.srvRun_initial_of_refused ho hj hc),
        fun hj hc => initial.congr_pump (Dev.srvRun_initial ho hj hc),
        fun hc => resurvey.congr_pump (Dev.srvRun_resurvey_of_refused ho hc),
        fun hc => resurvey.congr_pump (Dev.srvRun_resurvey ho hc),
        fun hc => store.congr_pump (Dev.srvRun_storeDefault_of_refused ho hc),
        fun hc => store.congr_pump (Dev.srvRun_storeDefault ho hc),
        discard.congr_pump (Dev.srvRun_discard ho)⟩
    case floor =>
      exact ⟨fun hw => raise.congr_pump (Dev.srvRun_raiseFloor_of_flash_fails h hw),
        fun hw => raise.congr_pump (Dev.srvRun_raiseFloor h hw)⟩

/-- Settles O26: the three ends of STAGE's read, the drain limit on either side of its instant, and the end of APPLYING. -/
theorem surveyReadsDrainsAndApplies : Obligations.SurveyReadsDrainsAndApplies := by
  intro s port k at_ bytes hd
  refine ⟨fun len hcmd => ?read, fun op hst hcmd => ?drain, fun op hready hst hcmd => ?apply⟩
  case read =>
    have read := runs_surveyImageRead hd bytes
    exact ⟨fun hc => read.congr (Dev.stageDone_of_verified hcmd hc),
      fun hc h3 h4 => read.congr (Dev.stageDone_of_refused hcmd hc h3 h4),
      fun hc => read.congr (Dev.stageDone_of_unsigned hcmd hc),
      (runs_pcieCplTimeout_image hd).congr (Dev.stageFail_of_staging _ hcmd),
      (runs_pcieCplError_image hd).congr (Dev.stageFail_of_staging _ hcmd)⟩
  case drain =>
    have limit := runs_srvDrainLimit_of_draining hd hst hcmd
    exact ⟨fun h => limit.congr (if_pos h), fun h => limit.congr (if_neg (Nat.not_le.mpr h))⟩
  case apply => exact (runs_applyDone hd).congr_pump (Dev.applied_of_applying hready hst hcmd)

end Sys2Proof.Proofs
end

section
/-!
PROOFS. How a core comes to its next word (04 R88, R89, R91 to R94), and which commands come to it so.
-/
namespace Sys2Proof.Claims
open Sys2Proof.Machine

variable {i : Instr} {s : State} {d e : Dev} {c : Nat}

theorem Runs.congr_settled (h : Runs i s (settled d c)) (he : d = e) : Runs i s (settled e c) := he ▸ h

/-- A command of a device out of Dry does what its meaning m says. -/
theorem runs_of_meaning {f : Dev → Dev} (hd : s.dev.dry = false) (hw : i.wf = true)
    (m : Host.Outcome State Fault Refusal) (he : exec i s = m) (hm : m = live i s f) : Runs i s (f s.dev) :=
  runs_of_live hd hw (he.trans hm)

end Sys2Proof.Claims

namespace Sys2Proof.Machine
open Sys2Proof.Claims

/-! ### The next word of a core -/

section Issue
variable {d : Dev} {core op w b : Nat} {y : Inst} {g : Dev → Inst → Nat → Dev}

theorem Dev.issueCore_of_not_ready (hy : d.coreReady core = none) : d.issueCore core op g = d := by
  simp [Dev.issueCore, hy]

theorem Dev.issueCore_past_image (hy : d.coreReady core = some y) (hw : d.coreWord core y = none) :
    d.issueCore core op g = (d.faultCore core 0x0342).pump := by
  simp [Dev.issueCore, hy, hw]

theorem Dev.issueCore_of_bad_word (hy : d.coreReady core = some y) (hw : d.coreWord core y = some w)
    (hb : d.badIn [(pondBase core + y.pc, 8)] = some b) :
    d.issueCore core op g = ((d.faultCore core 0x0345).countUe kCore core 0x0345 b).pump := by
  simp [Dev.issueCore, hy, hw, hb, Dev.pondUe]

/-- A defined word of another opcode is another command's. -/
theorem Dev.issueCore_of_other_opcode (hy : d.coreReady core = some y) (hw : d.coreWord core y = some w)
    (hb : d.badIn [(pondBase core + y.pc, 8)] = none) (hf : (coreFmt (opOf w)).isSome = true) (ho : opOf w ≠ op) :
    d.issueCore core op g = d := by
  simp [Dev.issueCore, hy, hw, hb, hf, ho]

theorem Dev.issueCore_of_undefined (hy : d.coreReady core = some y) (hw : d.coreWord core y = some w)
    (hb : d.badIn [(pondBase core + y.pc, 8)] = none) (ho : coreFmt (opOf w) = none ∨ opOf w = op)
    (hok : coreWordOk (isRunnel core) w = false) :
    d.issueCore core op g = (d.faultCore core 0x0340).pump := by
  have hn : ¬ ((coreFmt (opOf w)).isSome = true ∧ opOf w ≠ op) := by
    obtain ho | ho := ho <;> simp [ho]
  simp only [Dev.issueCore, hy, hw, hb, if_neg hn, hok, Bool.not_false, if_true]

theorem Dev.issueCore_of_issued (hy : d.coreReady core = some y) (hw : d.coreWord core y = some w)
    (hb : d.badIn [(pondBase core + y.pc, 8)] = none) (ho : opOf w = op) (hok : coreWordOk (isRunnel core) w = true) :
    d.issueCore core op g = settled (g d y w) y.ctx := by
  simp [Dev.issueCore, hy, hw, hb, ho, hok, settled]

end Issue

/-! ### The commands of a core's instructions -/

/-- A command is the issue of a core's instruction of an opcode, whatever that instruction does. -/
def CoreCommand (i : Instr) (s : State) (core op : Nat) : Prop :=
  i.wf = coreOk core ∧ ∃ g, exec i s = live i s fun _ => s.dev.issueCore core op g

theorem coreCommand_of_mem_controlTable (s : State) (core : Nat) :
    ∀ r ∈ controlTable core, CoreCommand r.1 s core r.2 := by
  simp only [controlTable, List.forall_mem_cons]
  exact ⟨⟨rfl, _, rfl⟩, ⟨rfl, _, rfl⟩, ⟨rfl, _, rfl⟩, ⟨rfl, _, rfl⟩, ⟨rfl, _, rfl⟩, ⟨rfl, _, rfl⟩,
    ⟨rfl, _, rfl⟩, ⟨rfl, _, rfl⟩, ⟨rfl, _, rfl⟩, ⟨rfl, _, rfl⟩, ⟨rfl, _, rfl⟩, ⟨rfl, _, rfl⟩, ⟨rfl, _, rfl⟩,
    nofun⟩

/-- A command is the issue of an engine instruction that is computed by f, as the device of the state gives it. -/
def EngineCommand (i : Instr) (s : State) (core op cls : Nat) (f : Env → Nat → Res) : Prop :=
  i.wf = coreOk core ∧ exec i s = live i s fun _ => s.dev.engine core op cls f

/-- A command sees no device but the state's. -/
theorem exec_eq_of_live {i : Instr} {s : State} {f : Dev → Dev} (h : exec i s = live i s f) :
    exec i s = live i s fun _ => f s.dev := h

theorem engineCommand_tload (s : State) (core : Nat) (merges : List OftMerge) :
    EngineCommand (.tload ⟨core, merges⟩) s core 0x10 1 (tload (s.dev.deltas core merges)) :=
  ⟨rfl, exec_eq_of_live (f := fun d => d.engine core 0x10 1 (tload (d.deltas core merges))) rfl⟩

theorem engineCommand_of_mem_tileTable (s : State) (core : Nat) (merges : List OftMerge) :
    ∀ r ∈ tileTable s.dev core merges, EngineCommand r.1 s core r.2.1 r.2.2.1 r.2.2.2 := by
  simp only [tileTable, List.forall_mem_cons]
  exact ⟨engineCommand_tload s core merges, ⟨rfl, rfl⟩, ⟨rfl, rfl⟩, ⟨rfl, rfl⟩, ⟨rfl, rfl⟩, ⟨rfl, rfl⟩,
    ⟨rfl, rfl⟩, ⟨rfl, rfl⟩, ⟨rfl, rfl⟩, ⟨rfl, rfl⟩, ⟨rfl, rfl⟩, nofun⟩

theorem engineCommand_of_mem_vectorTable (s : State) (core : Nat) :
    ∀ r ∈ vectorTable core, EngineCommand r.1 s core r.2.1 r.2.2.1 r.2.2.2 := by
  simp only [vectorTable, List.forall_mem_cons]
  exact ⟨⟨rfl, rfl⟩, ⟨rfl, rfl⟩, ⟨rfl, rfl⟩, ⟨rfl, rfl⟩, ⟨rfl, rfl⟩, ⟨rfl, rfl⟩, ⟨rfl, rfl⟩, ⟨rfl, rfl⟩,
    ⟨rfl, rfl⟩, ⟨rfl, rfl⟩, ⟨rfl, rfl⟩, ⟨rfl, rfl⟩, ⟨rfl, rfl⟩, ⟨rfl, rfl⟩, ⟨rfl, rfl⟩, ⟨rfl, rfl⟩,
    ⟨rfl, rfl⟩, ⟨rfl, rfl⟩, ⟨rfl, rfl⟩, ⟨rfl, rfl⟩, ⟨rfl, rfl⟩, ⟨rfl, rfl⟩, ⟨rfl, rfl⟩, ⟨rfl, rfl⟩,
    ⟨rfl, rfl⟩, nofun⟩

theorem EngineCommand.coreCommand {i : Instr} {s : State} {core op cls : Nat} {f : Env → Nat → Res}
    (h : EngineCommand i s core op cls f) : CoreCommand i s core op := by
  obtain ⟨hw, he⟩ := h
  exact ⟨hw, _, he⟩

theorem engineCommand_of_mem_tables {s : State} {core : Nat} {merges : List OftMerge}
    {r : Instr × Nat × Nat × (Env → Nat → Res)} (h : r ∈ tileTable s.dev core merges ++ vectorTable core) :
    EngineCommand r.1 s core r.2.1 r.2.2.1 r.2.2.2 :=
  (List.mem_append.mp h).elim (engineCommand_of_mem_tileTable s core merges r)
    (engineCommand_of_mem_vectorTable s core r)

theorem coreCommand_of_mem_tables {s : State} {core op : Nat} {merges : List OftMerge} {i : Instr}
    (h : (i, op) ∈ controlTable core ++ (tileTable s.dev core merges ++ vectorTable core).map fun r => (r.1, r.2.1)) :
    CoreCommand i s core op := by
  obtain h | h := List.mem_append.mp h
  · exact coreCommand_of_mem_controlTable s core _ h
  · obtain ⟨r, hr, heq⟩ := List.mem_map.mp h
    cases heq
    exact (engineCommand_of_mem_tables hr).coreCommand

/-- A command of an instruction of a core that the device has leaves what the issue of the instruction leaves. -/
theorem CoreCommand.runs {i : Instr} {s : State} {core op : Nat} (h : CoreCommand i s core op) (hc : core < 256)
    (hd : s.dev.dry = false) : ∃ g, Runs i s (s.dev.issueCore core op g) := by
  obtain ⟨hw, g, he⟩ := h
  exact ⟨g, runs_of_live hd (hw.trans (decide_eq_true hc)) he⟩

end Sys2Proof.Machine

namespace Sys2Proof.Proofs
open Sys2Proof.Machine Sys2Proof.Claims

/-- Settles O34: every command of the tables is the issue of its opcode, and the clauses are the branches of an issue
that comes to no word of its own. -/
theorem wordsThatMayNotIssueWaitOrFault : Obligations.WordsThatMayNotIssueWaitOrFault := by
  intro s core merges i op hc hd hi
  obtain ⟨g, run⟩ := (coreCommand_of_mem_tables hi).runs hc hd
  refine ⟨fun hy => run.congr (Dev.issueCore_of_not_ready hy), fun y hy => ⟨fun hw => ?_, fun w b hw hb => ?_,
    fun w hw hb => ⟨fun hf ho => ?_, fun ho hok => ?_⟩⟩⟩
  · exact run.congr (Dev.issueCore_past_image hy hw)
  · exact run.congr (Dev.issueCore_of_bad_word hy hw hb)
  · exact run.congr (Dev.issueCore_of_other_opcode hy hw hb hf ho)
  · exact run.congr (Dev.issueCore_of_undefined hy hw hb ho hok)

end Sys2Proof.Proofs
end

section
/-!
PROOFS. What the control instructions of a core do once they issue: its registers and loops (04 R90, R97), its waits,
signals and transfers (04 R92, R96, R424; 12 R288, R289, R293, R294).
-/
namespace Sys2Proof.Machine
open Sys2Proof.Claims

variable {i : Instr} {s : State} {core op w : Nat} {y : Inst}

/-- An instruction that issues does what its meaning m says, and the context's state follows. -/
theorem runs_of_issues (h : Issues i s core op y w) (m : Host.Outcome State Fault Refusal) (he : exec i s = m)
    {g : Dev → Inst → Nat → Dev} (hm : m = live i s fun d => d.issueCore core op g) :
    Runs i s (settled (g s.dev y w) y.ctx) := by
  obtain ⟨⟨hw, hd⟩, hy, hword, ho, hok, hb⟩ := h
  exact (runs_of_meaning hd hw m he hm).congr (Dev.issueCore_of_issued hy hword hb ho hok)

/-! ### LOOP and FLOOP -/

section Loops
variable {ls : List Loop} {pc body count stop deep past : Nat}

theorem loopStart_past (h : stop < pc + 8 + 8 * body) : loopStart ls pc body count stop deep past = .error past := by
  simp [loopStart, h]

theorem loopStart_empty (h : pc + 8 + 8 * body ≤ stop) (h0 : body = 0 ∨ count = 0) :
    loopStart ls pc body count stop deep past = .ok (loopStep ls (pc + 8 + 8 * body)) := by
  simp only [loopStart, gt_iff_lt, if_neg (Nat.not_lt.mpr h), if_pos h0]

theorem loopStart_deep (h : pc + 8 + 8 * body ≤ stop) (hb : body ≠ 0) (hc : count ≠ 0) (hl : ls.length = 4) :
    loopStart ls pc body count stop deep past = .error deep := by
  simp [loopStart, Nat.not_lt.mpr h, hb, hc, hl]

theorem loopStart_push (h : pc + 8 + 8 * body ≤ stop) (hb : body ≠ 0) (hc : count ≠ 0) (hl : ls.length ≠ 4) :
    loopStart ls pc body count stop deep past =
      .ok ({ start := pc + 8, stop := pc + 8 + 8 * body, left := count - 1 } :: ls, pc + 8) := by
  simp [loopStart, Nat.not_lt.mpr h, hb, hc, hl]

end Loops

/-! ### DMA -/

section Dma
variable {d : Dev}

/-- R289: a tag whose descriptor has not completed stalls issue. -/
theorem Dev.startDma_of_busy_tag (h : (y.tag? (imm16 w % 16)).isSome = true) :
    d.startDma core y w = (d.modInst core fun z => { z with wait := .dmaTag (imm16 w % 16) }).modCore core fun z =>
      { z with state := .waitDma } := by
  simp [Dev.startDma, h]

theorem Dev.startDma_misaligned (ht : y.tag? (imm16 w % 16) = none) (ha : y.ptr (iPtr w) % 64 ≠ 0) :
    d.startDma core y w = d.faultCore core 0x0361 := by
  simp [Dev.startDma, ht, ha]

theorem Dev.startDma_past_pond (ht : y.tag? (imm16 w % 16) = none) (ha : y.ptr (iPtr w) % 64 = 0)
    (hp : pondSize core < y.ptr (iPtr w) + 64) : d.startDma core y w = d.faultCore core 0x0342 := by
  simp [Dev.startDma, ht, ha, hp]

/-- What DMA starts from where its tag is free and the pond holds its descriptor. -/
structure DmaReady (core : Nat) (y : Inst) (w : Nat) : Prop where
  free : y.tag? (imm16 w % 16) = none
  aligned : y.ptr (iPtr w) % 64 = 0
  inPond : y.ptr (iPtr w) + 64 ≤ pondSize core

/-- The bytes of the descriptor, as the core reads them. -/
def Dev.dmaBytes (d : Dev) (core : Nat) (y : Inst) (w : Nat) : Bytes :=
  d.draw.2.pondRead core y 5 d.draw.1 (y.ptr (iPtr w)) 64

/-- The context holds the Gates that a descriptor names. -/
def Dev.holdsGates (d : Dev) (c : Nat) (x : DmaDesc) : Prop :=
  (bit x.flags 0 = true → d.holds c x.gateWait = true) ∧ (bit x.flags 1 = true → d.holds c x.gateSig = true)

/-- The tag of a descriptor that starts, or waits at its Gate. -/
def Dev.dmaTag (d : Dev) (core : Nat) (y : Inst) (x : DmaDesc) : DmaTag :=
  { desc := x, ctx := y.ctx, started := !bit x.flags 0, reissue := false, outstanding := 0, abandoned := 0
    gen := (d.core core).dmaGen, pc := y.pc, since := d.time.osc }

theorem Dev.startDma_malformed (h : DmaReady core y w)
    (hok : (parseDma (d.dmaBytes core y w)).ok (d.dmaBytes core y w) = false) :
    d.startDma core y w = d.draw.2.faultCore core 0x0361 := by
  obtain ⟨ht, ha, hp⟩ := h
  simp only [Dev.dmaBytes] at hok
  simp [Dev.startDma, ht, ha, Nat.not_lt.mpr hp, hok]

theorem Dev.gates_unheld_iff {c : Nat} {x : DmaDesc} :
    (bit x.flags 0 && !d.holds c x.gateWait || bit x.flags 1 && !d.holds c x.gateSig) = true ↔
      ¬ d.holdsGates c x := by
  simp only [Dev.holdsGates]
  grind

theorem Dev.startDma_unheld (h : DmaReady core y w)
    (hok : (parseDma (d.dmaBytes core y w)).ok (d.dmaBytes core y w) = true)
    (hg : ¬ d.draw.2.holdsGates y.ctx (parseDma (d.dmaBytes core y w))) :
    d.startDma core y w = d.draw.2.faultCore core 0x0360 := by
  obtain ⟨ht, ha, hp⟩ := h
  have hc := Dev.gates_unheld_iff.mpr hg
  simp only [Dev.dmaBytes] at hok hc
  simp [Dev.startDma, ht, ha, Nat.not_lt.mpr hp, hok, hc]

theorem Dev.startDma_held (h : DmaReady core y w)
    (hok : (parseDma (d.dmaBytes core y w)).ok (d.dmaBytes core y w) = true)
    (hg : d.draw.2.holdsGates y.ctx (parseDma (d.dmaBytes core y w))) :
    d.startDma core y w =
      let x := parseDma (d.dmaBytes core y w)
      let put := (d.draw.2.putTag core (imm16 w % 16) (some (d.draw.2.dmaTag core y x))).coreNext core
      if bit x.flags 0 then put.startWait (.dma core (imm16 w % 16)) y.ctx x.gateWait x.cond x.waitValue else put := by
  obtain ⟨ht, ha, hp⟩ := h
  have hc := mt Dev.gates_unheld_iff.mp (not_not_intro hg)
  simp only [Dev.dmaBytes] at hok hc
  simp only [Dev.startDma, ht, ha, gt_iff_lt, if_neg (Nat.not_lt.mpr hp), hok, if_neg hc]
  rfl

end Dma

end Sys2Proof.Machine

namespace Sys2Proof.Proofs
open Sys2Proof.Machine Sys2Proof.Claims

/-- Settles O35: each instruction is its meaning's change of what runs on the core; LOOP has the four branches of
loopStart. -/
theorem coreRegisterInstructionsSetTheirInstance : Obligations.CoreRegisterInstructionsSetTheirInstance := by
  intro s core y w
  refine ⟨fun h => (runs_of_issues h (execNop core s) rfl rfl :),
    fun h => (runs_of_issues h (execSetp core s) rfl rfl :),
    fun h => (runs_of_issues h (execAddp core s) rfl rfl :), fun h => (runs_of_issues h (execSett core s) rfl rfl :),
    fun h => (runs_of_issues h (execSete core s) rfl rfl :), fun h => (runs_of_issues h (execSets core s) rfl rfl :),
    fun h => ?loop⟩
  have run := runs_of_issues h (execLoop core s) rfl rfl
  refine ⟨fun hl => ?_, fun hl h0 => ?_, fun hl hb hc hd => ?_, fun hl hb hc hd => ?_⟩
  · exact run.congr_settled (by simp only [loopStart_past hl])
  · exact run.congr_settled (by simp only [loopStart_empty hl h0])
  · exact run.congr_settled (by simp only [loopStart_deep hl hb hc hd])
  · exact run.congr_settled (by simp only [loopStart_push hl hb hc hd])

/-- Settles O36: END, FENCE and DMAW are their meanings; WAITG, SIGG and DMA have the branches of their tests. The code
of a misaligned descriptor is the model's (log entry 42). -/
theorem coreControlInstructionsWaitAndSignal : Obligations.CoreControlInstructionsWaitAndSignal := by
  intro s core y w
  refine ⟨fun h => (runs_of_issues h (execEndInst core s) rfl rfl :), fun h => ?waitg, fun h => ?sigg,
    fun h => (runs_of_issues h (execFence core s) rfl rfl :), fun h => (runs_of_issues h (execDmaw core s) rfl rfl :),
    fun h => ?dma⟩
  case waitg =>
    have run := runs_of_issues h (execWaitg core s) rfl rfl
    exact ⟨fun hc => run.congr_settled (by simp [hc]), fun hc hg => run.congr_settled (by simp [hc, hg]),
      fun hc hg => run.congr_settled (by simp [hc, hg, Dev.startWait]; rfl)⟩
  case sigg =>
    have run := runs_of_issues h (execSigg core s) rfl rfl
    exact ⟨fun hg => run.congr_settled (by simp [hg]), fun hg => run.congr_settled (by simp [hg, Dev.coreNext])⟩
  case dma =>
    have run := runs_of_issues h (execDma core s) rfl rfl
    refine ⟨fun ht => run.congr_settled (Dev.startDma_of_busy_tag ht),
      fun ht ha => run.congr_settled (Dev.startDma_misaligned ht ha),
      fun ht ha hp => run.congr_settled (Dev.startDma_past_pond ht ha hp), fun ht ha hp => ?_⟩
    have ready : DmaReady core y w := ⟨ht, ha, hp⟩
    refine ⟨fun hok => run.congr_settled (Dev.startDma_malformed ready hok),
      fun hok hg => run.congr_settled (Dev.startDma_unheld ready hok hg), fun hok hg hw => ?_, fun hok hg hw => ?_⟩
    · exact run.congr_settled ((Dev.startDma_held ready hok hg).trans (if_neg (Bool.eq_false_iff.mp hw)))
    · exact run.congr_settled ((Dev.startDma_held ready hok hg).trans (if_pos hw))

end Sys2Proof.Proofs
end

section
/-!
PROOFS. What a core has issued completes (04 R92, R96, R115, R424; 12 R291, R294): a descriptor, an engine instruction,
a wait that is released, and END itself.
-/
namespace Sys2Proof.Machine
open Sys2Proof.Claims

variable {d : Dev} {core tag cls : Nat} {y : Inst} {ecc : List EccStrike}

/-! ### END -/

theorem Dev.tryEnd_of_over (hy : (d.core core).inst = some y) (hw : y.wait = .ending) (hi : y.idle = true) :
    d.tryEnd core = d.endInst core := by
  simp [Dev.tryEnd, hy, hw, hi]

theorem Dev.tryEnd_of_left (hy : (d.core core).inst = some y) (h : y.wait ≠ .ending ∨ y.idle = false) :
    d.tryEnd core = d := by
  have hn : ¬ (y.wait = .ending ∧ y.idle = true) := by
    obtain h | h := h <;> simp [h]
  simp only [Dev.tryEnd, hy, if_neg hn]

/-! ### A descriptor completes -/

/-- What a descriptor comes to when its transfer completes: the code of an error, or the device with its data moved. -/
def Dev.dmaMoved (d : Dev) (core : Nat) (y : Inst) (t : DmaTag) (ecc : List EccStrike) : Except Nat Dev :=
  if linkLost ecc ((d.spoil ecc).dmaReads core y.ctx t.desc) then .error 0x0322
  else (d.spoil ecc).moveRows core y.ctx t.desc

theorem Dev.dmaDone_of_free_tag (hy : (d.core core).inst = some y) (ht : y.tag? tag = none) :
    d.dmaDone core tag ecc = d := by
  simp [Dev.dmaDone, hy, ht]

/-- A transfer that is not under way completes nothing. -/
theorem Dev.dmaDone_of_not_started {t : DmaTag} (hy : (d.core core).inst = some y) (ht : y.tag? tag = some t)
    (h : t.started = false ∨ t.reissue = true) : d.dmaDone core tag ecc = d := by
  obtain h | h := h <;> simp [Dev.dmaDone, hy, ht, h]

section Started
variable {t : DmaTag} (hy : (d.core core).inst = some y) (ht : y.tag? tag = some t) (hs : t.started = true)
  (hr : t.reissue = false)
include hy ht hs hr

theorem Dev.dmaDone_of_error {c : Nat} (hm : d.dmaMoved core y t ecc = .error c)
    (hb : (d.spoil ecc).badIn ((d.spoil ecc).dmaReads core y.ctx t.desc) = none) :
    d.dmaDone core tag ecc = ((d.spoil ecc).faultAt core c t.pc).strikes ecc := by
  rw [Dev.dmaMoved] at hm
  simp [Dev.dmaDone, hy, ht, hs, hr, hm, hb]

theorem Dev.dmaDone_of_moved {e : Dev} (hm : d.dmaMoved core y t ecc = .ok e) :
    d.dmaDone core tag ecc =
      let signalled := if bit t.desc.flags 1 then e.signal t.desc.gateSig t.desc.sigValue (srcCore core) else e
      (((signalled.putTag core tag none).waitsOver core).trySuspend core).strikes ecc := by
  rw [Dev.dmaMoved] at hm
  simp [Dev.dmaDone, hy, ht, hs, hr, hm]

end Started

/-! ### An engine instruction completes -/

section Flight
variable {x : Flight} (hx : (y.flight.find? fun z => z.cls == cls) = some x)
include hx

theorem Dev.flightDone_of_silent (hr : x.report = none) :
    d.flightDone core cls y =
      (d.modInst core fun z => { z with flight := z.flight.erase x }).waitsOver core := by
  simp [Dev.flightDone, hx, hr]

/-- 07 R184, R186: the report reaches the Gauge with the instruction's end. -/
theorem Dev.flightDone_of_reporting {r : GaugeRep} {p : Prog} (hr : x.report = some r)
    (hp : d.prog y.field y.slot = some p) :
    d.flightDone core cls y =
      ((d.sendReport core p.district r).modInst core fun z =>
        { z with flight := z.flight.erase x }).waitsOver core := by
  simp [Dev.flightDone, hx, hr, hp]

end Flight

/-! ### A wait is released -/

theorem Dev.releaseWait_of_no_wait {who : Waiter} (h : d.waitOf who = none) : d.releaseWait who = d := by
  simp [Dev.releaseWait, h]

/-- 12 R294: a wait that no test has released goes on. -/
theorem Dev.releaseWait_of_unreleased {who : Waiter} {x : GateWait} (hx : d.waitOf who = some x)
    (h : x.released = false) : d.releaseWait who = d := by
  simp [Dev.releaseWait, hx, h]

end Sys2Proof.Machine

namespace Sys2Proof.Proofs
open Sys2Proof.Machine Sys2Proof.Claims

/-- Settles O37: each end is a branch of its command's meaning; a released wait goes on as its waiter's kind has it. -/
theorem coreWorkCompletes : Obligations.CoreWorkCompletes := by
  intro s core tag cls who ecc y hd hc ht hk hwho hy
  have ended := runs_of_meaning (i := .instanceEnd core) hd (decide_eq_true hc) (execInstanceEnd core s) rfl rfl
  have moved := runs_of_meaning (i := .coreDmaDone core tag ecc) hd (by simp [Instr.wf, coreOk, tagOk, hc, ht])
    (execCoreDmaDone core tag ecc s) rfl rfl
  have retired := runs_of_meaning (i := .instructionDone core cls ecc) hd (by simp [Instr.wf, coreOk, clsOk, hc, hk])
    (execInstructionDone core cls ecc s) rfl rfl
  have released := runs_of_meaning (i := .waitRelease who) hd hwho (execWaitRelease who s) rfl rfl
  simp only [hy] at ended moved retired
  refine ⟨fun hw hi => ended.congr_settled (Dev.tryEnd_of_over hy hw hi),
    fun h => ended.congr_settled (Dev.tryEnd_of_left hy h),
    fun ht => moved.congr_settled (Dev.dmaDone_of_free_tag hy ht), fun t ht => ?transfer, fun h => ?unretired,
    fun x hrun hx => ?retires, fun h => released.congr (Dev.releaseWait_of_no_wait h), fun x hx => ?waits⟩
  case transfer =>
    exact ⟨fun h => moved.congr_settled (Dev.dmaDone_of_not_started hy ht h),
      fun c hs hr hm hb => moved.congr_settled (Dev.dmaDone_of_error hy ht hs hr hm hb),
      fun e hs hr hm => moved.congr_settled (Dev.dmaDone_of_moved hy ht hs hr hm)⟩
  case unretired =>
    refine retired.congr ?_
    obtain h | h := h
    · simp [h]
    · have hnone : (y.flight.find? fun z => z.cls == cls) = none := by simpa using h
      simp [hnone]
  case retires =>
    simp only [hrun, hx, Bool.false_eq_true, if_false] at retired
    refine ⟨fun hl hr => ?_, fun r p hl hr hp => ?_, fun a hl => ?_⟩ <;> simp only [hl] at retired
    · rwa [Dev.flightDone_of_silent hx hr] at retired
    · rwa [Dev.flightDone_of_reporting hx hr hp] at retired
    · exact retired
  case waits =>
    refine ⟨fun h => released.congr (Dev.releaseWait_of_unreleased hx h), fun h => ?_⟩
    simp only [Dev.releaseWait, hx, h, Bool.not_true, Bool.false_eq_true, if_false] at released
    -- the meaning's match on the waiter is decided once the waiter's kind is known
    refine ⟨?_, ?_, ?_, ?_, ?_, ?_⟩ <;> intros <;> subst who <;> exact released

end Sys2Proof.Proofs
end

section
/-!
PROOFS. Tile and vector instructions and OPTW (04 R89, R91, R92, R95; 07 R179, R180): what an engine instruction that
issues comes to follows from the result of its computation.
-/
namespace Sys2Proof.Machine
open Sys2Proof.Claims

/-- What an engine instruction of a class comes to, by the result of its computation: a fault, a retirement without
effect, or its effect unless what it reads holds an error that no code corrects. -/
def Dev.engineEnds (d : Dev) (core cls w : Nat) : Res → Dev
  | .error c => d.faultCore core c
  | .ok none => d.coreNext core
  | .ok (some e) => match d.badIn (e.reads.map fun r => (pondBase core + r.1, r.2)) with
    | some b => d.pondUe core b
    | none => d.launch core cls w e

section Engine
variable {i : Instr} {s : State} {d : Dev} {core op cls w c : Nat} {y : Inst} {f : Env → Nat → Res} {r : Res}

theorem Dev.engine_of_issued (hy : d.coreReady core = some y) (hw : d.coreWord core y = some w)
    (hb : d.badIn [(pondBase core + y.pc, 8)] = none) (ho : opOf w = op) (hok : coreWordOk (isRunnel core) w = true) :
    d.engine core op cls f = settled (d.draw.2.engineEnds core cls w (f (envOf d core cls y) w)) y.ctx :=
  Dev.issueCore_of_issued hy hw hb ho hok

theorem EngineCommand.runs_of_issues (hi : EngineCommand i s core op cls f) (h : Issues i s core op y w) :
    Runs i s (settled (s.dev.draw.2.engineEnds core cls w (f (envOf s.dev core cls y) w)) y.ctx) := by
  obtain ⟨-, he⟩ := hi
  obtain ⟨⟨hw, hd⟩, hy, hword, ho, hok, hb⟩ := h
  exact (runs_of_live hd hw he).congr (Dev.engine_of_issued hy hword hb ho hok)

/-- The three results of a computation, each with what the instruction comes to. -/
theorem engine_outcomes (run : Runs i s (settled (d.engineEnds core cls w r) c)) :
    (∀ n, r = .error n → Runs i s (settled (d.faultCore core n) c)) ∧
    (r = .ok none → Runs i s (settled (d.coreNext core) c)) ∧
    (∀ e, r = .ok (some e) →
      let bad := d.badIn (e.reads.map fun r => (pondBase core + r.1, r.2))
      (∀ b, bad = some b → Runs i s (settled ((d.faultCore core 0x0345).countUe kCore core 0x0345 b) c)) ∧
      (bad = none → Runs i s (settled (d.launch core cls w e) c))) := by
  refine ⟨fun n hr => ?_, fun hr => ?_, fun e hr => ⟨fun b hb => ?_, fun hb => ?_⟩⟩ <;> subst r
  · exact run
  · exact run
  · exact run.congr_settled (by simp only [Dev.engineEnds, hb]; rfl)
  · exact run.congr_settled (by simp only [Dev.engineEnds, hb])

/-- 07 R180: an OPTW stalls exactly in the optimiser image, with elements to update and no verdict formed. -/
theorem Dev.optwStalls_iff {p : Prog} (hw : d.coreWord core y = some w) (ho : opOf w = 0x58)
    (hp : d.prog y.field y.slot = some p) :
    d.optwStalls core y = true ↔ d.inOptImage y = true ∧ vCount w ≠ 0 ∧ (d.gauge p.district).verdict = 0 := by
  simp [Dev.optwStalls, hw, ho, hp, and_assoc]

end Engine

end Sys2Proof.Machine

namespace Sys2Proof.Proofs
open Sys2Proof.Machine Sys2Proof.Claims

/-- Settles O38: the outcomes of an engine instruction that issues; OPTW is one once it does not stall. -/
theorem engineInstructionsFaultRetireOrHaveTheirEffect :
    Obligations.EngineInstructionsFaultRetireOrHaveTheirEffect := by
  refine ⟨fun s core merges i op cls f y w hi h => ?_, fun s core y w p h hp => ?_⟩
  · exact engine_outcomes ((engineCommand_of_mem_tables hi).runs_of_issues h)
  · obtain ⟨⟨hwf, hd⟩, hy, hw, ho, hok, hb⟩ := h
    have run := runs_of_meaning hd hwf (execOptw core s) rfl rfl
    have stalls := Dev.optwStalls_iff hw ho hp
    simp only [hy, hp] at run
    refine ⟨fun himg hn hv => ?_, fun hgo => ?_⟩
    · exact run.congr (if_pos (stalls.mpr ⟨himg, hn, hv⟩))
    · have hgoes : ¬ s.dev.optwStalls core y = true := by
        rw [stalls]
        rintro ⟨himg, hn, hv⟩
        simp [himg, hn, hv] at hgo
      exact engine_outcomes (run.congr ((if_neg hgoes).trans (Dev.engine_of_issued hy hw hb ho hok)))

end Sys2Proof.Proofs
end

section
/-!
PROOFS. The stewards of fields (04 R106 to R109, 12 R293, R294): how one comes to its next word, and what each of its
instructions does.
-/
namespace Sys2Proof.Claims
open Sys2Proof.Machine

variable {i : Instr} {s : State} {d e : Dev} {c : Nat}

theorem UnitRuns.congr (h : UnitRuns i s d) (he : d = e) : UnitRuns i s e := he ▸ h

theorem UnitRuns.congr_settled (h : UnitRuns i s (settled d c)) (he : d = e) : UnitRuns i s (settled e c) := he ▸ h

/-- A unit's command of a device out of Dry does what its meaning m says. -/
theorem unitRuns_of_meaning {f : Dev → Dev} (hd : s.dev.dry = false) (hw : i.wf = true)
    (m : Host.Outcome State Fault Refusal) (he : exec i s = m) (hm : m = liveUnit i s f) : UnitRuns i s (f s.dev) :=
  runs_of_live (f := fun d => (f d).settleFaults) hd hw (he.trans hm)

end Sys2Proof.Claims

namespace Sys2Proof.Machine
open Sys2Proof.Claims

/-! ### The next word of a steward -/

section Steward
variable {d : Dev} {f sl op w : Nat} {k : Bool} {p : Prog} {g : Dev → Prog → Nat → Dev}

theorem Dev.steward_of_not_ready (hp : d.stewReady f sl k = none) : d.steward f sl op k g = d := by
  simp [Dev.steward, hp]

theorem Dev.steward_past_code (hp : d.stewReady f sl k = some p) (hw : p.word = none) :
    d.steward f sl op k g = (d.faultProg f sl 0x034B).pump := by
  simp [Dev.steward, hp, hw]

/-- A word of another opcode is another command's. -/
theorem Dev.steward_of_other_opcode (hp : d.stewReady f sl k = some p) (hw : p.word = some w) (ho : opOf w ≠ op) :
    d.steward f sl op k g = d := by
  simp [Dev.steward, hp, hw, ho]

theorem Dev.steward_of_issued (hp : d.stewReady f sl k = some p) (hw : p.word = some w) (ho : opOf w = op) :
    d.steward f sl op k g = settled (g d p w) p.ctx := by
  simp [Dev.steward, hp, hw, ho, settled]

end Steward

section Commands
variable {i : Instr} {s : State} {f sl op w : Nat} {k : Bool} {p : Prog} {g : Dev → Prog → Nat → Dev}

/-- A steward's instruction that issues does what its meaning m says, and the context's state follows. -/
theorem runs_of_stewIssues (h : StewIssues i s f sl op k p w) (m : Host.Outcome State Fault Refusal)
    (he : exec i s = m) (hm : m = live i s fun d => d.steward f sl op k g) :
    Runs i s (settled (g s.dev p w) p.ctx) := by
  obtain ⟨⟨hw, hd⟩, hp, hword, ho⟩ := h
  exact (runs_of_meaning hd hw m he hm).congr (Dev.steward_of_issued hp hword ho)

theorem unitRuns_of_stewIssues (h : StewIssues i s f sl op k p w) (m : Host.Outcome State Fault Refusal)
    (he : exec i s = m) (hm : m = liveUnit i s fun d => d.steward f sl op k g) :
    UnitRuns i s (settled (g s.dev p w) p.ctx) := by
  obtain ⟨⟨hw, hd⟩, hp, hword, ho⟩ := h
  exact (unitRuns_of_meaning hd hw m he hm).congr (Dev.steward_of_issued hp hword ho)

/-- A steward's command completes: FRUN is a unit's command, the others are not. -/
def StewardRuns (i : Instr) (s : State) (f sl : Nat) (e : Dev) : Prop :=
  if i = .frun f sl then UnitRuns i s e else Runs i s e

theorem StewardRuns.congr {d e : Dev} (h : StewardRuns i s f sl d) (he : d = e) : StewardRuns i s f sl e := he ▸ h

theorem stewardRuns_of_meaning (hi : i ≠ .frun f sl) (hd : s.dev.dry = false) (hw : i.wf = true)
    (m : Host.Outcome State Fault Refusal) (he : exec i s = m) (hm : m = live i s fun d => d.steward f sl op k g) :
    ∃ g, StewardRuns i s f sl (s.dev.steward f sl op k g) :=
  ⟨g, (if_neg hi).mpr (runs_of_meaning hd hw m he hm)⟩

theorem stewardRuns_frun (hd : s.dev.dry = false) (hw : (Instr.frun f sl).wf = true) :
    ∃ g, StewardRuns (.frun f sl) s f sl (s.dev.steward f sl 0x81 false g) :=
  ⟨_, (if_pos rfl).mpr (unitRuns_of_meaning hd hw (execFrun f sl s) rfl rfl)⟩

/-- Each command of the table is an issue of its opcode. -/
theorem stewardRuns_of_mem_stewardTable (hd : s.dev.dry = false) (hw : (fieldOk f && slotOk sl) = true) :
    ∀ r ∈ stewardTable f sl, ∃ g, StewardRuns r.1 s f sl (s.dev.steward f sl r.2 false g) := by
  simp only [stewardTable, List.forall_mem_cons]
  exact ⟨stewardRuns_of_meaning nofun hd hw (execFnop f sl s) rfl rfl, stewardRuns_frun hd hw,
    stewardRuns_of_meaning nofun hd hw (execFjoin f sl s) rfl rfl,
    stewardRuns_of_meaning nofun hd hw (execFgrant f sl s) rfl rfl,
    stewardRuns_of_meaning nofun hd hw (execFoppt f sl s) rfl rfl,
    stewardRuns_of_meaning nofun hd hw (execFwaitg f sl s) rfl rfl,
    stewardRuns_of_meaning nofun hd hw (execFsigg f sl s) rfl rfl,
    stewardRuns_of_meaning nofun hd hw (execFloop f sl s) rfl rfl,
    stewardRuns_of_meaning nofun hd hw (execFsetp f sl s) rfl rfl,
    stewardRuns_of_meaning nofun hd hw (execFend f sl s) rfl rfl, nofun⟩

end Commands

end Sys2Proof.Machine

namespace Sys2Proof.Proofs
open Sys2Proof.Machine Sys2Proof.Claims

/-- Settles O39: every command of the table is an issue of its opcode; FLOOP has the four branches of loopStart. -/
theorem stewardInstructionsControlTheirProgram : Obligations.StewardInstructionsControlTheirProgram := by
  intro s f sl p w hf hs hd
  have hw : (fieldOk f && slotOk sl) = true := by simp [fieldOk, slotOk, hf, hs]
  refine ⟨fun i op hi => ?waits, fun h => (runs_of_stewIssues h (execFnop f sl s) rfl rfl :),
    fun h => (runs_of_stewIssues h (execFend f sl s) rfl rfl :), fun h => ?fsetp, fun h => ?floop⟩
  case waits =>
    obtain ⟨g, run⟩ := stewardRuns_of_mem_stewardTable hd hw _ hi
    exact ⟨fun hp => run.congr (Dev.steward_of_not_ready hp), fun hp =>
      ⟨fun hn => run.congr (Dev.steward_past_code hp hn),
        fun hn ho => run.congr (Dev.steward_of_other_opcode hp hn ho)⟩⟩
  case fsetp =>
    have run := runs_of_stewIssues h (execFsetp f sl s) rfl rfl
    exact ⟨fun hr => run.congr_settled (if_pos hr), fun hr => run.congr_settled (if_neg (Nat.not_lt.mpr hr))⟩
  case floop =>
    have run := runs_of_stewIssues h (execFloop f sl s) rfl rfl
    refine ⟨fun hl => ?_, fun hl h0 => ?_, fun hl hb hc hn => ?_, fun hl hb hc hn => ?_⟩
    · exact run.congr_settled (by simp only [loopStart_past hl])
    · exact run.congr_settled (by simp only [loopStart_empty hl h0])
    · exact run.congr_settled (by simp only [loopStart_deep hl hb hc hn])
    · exact run.congr_settled (by simp only [loopStart_push hl hb hc hn])

end Sys2Proof.Proofs
end

section
/-!
PROOFS. FRUN and the kicks of units (04 R107, R109): FRUN's faults in their order, and a unit's answer to a kick.
-/
namespace Sys2Proof.Machine
open Sys2Proof.Claims

variable {d : Dev} {f sl img w : Nat} {p : Prog}

/-! ### FRUN -/

theorem Dev.frun_of_no_image (h : p.imgs[img]? = none) : d.frun f sl p img = d.faultProg f sl 0x034B := by
  simp [Dev.frun, h]

theorem Dev.frun_of_planFault {m : Img} (hm : p.imgs[img]? = some m) (h : d.planFault p img = true) :
    d.frun f sl p img = d.faultProg f sl 0x034B := by
  simp [Dev.frun, hm, h]

theorem Dev.frun_of_few_cores {m : Img} (hm : p.imgs[img]? = some m) (h : d.planFault p img = false)
    (hn : (d.usableOf f m.runnel).length < m.countMin) : d.frun f sl p img = d.faultProg f sl 0x0349 := by
  simp [Dev.frun, hm, h, hn]

theorem Dev.frun_of_no_grant {m : Img} (hm : p.imgs[img]? = some m) (h : d.planFault p img = false)
    (hn : m.countMin ≤ (d.usableOf f m.runnel).length) (hg : d.grant? f sl = none) :
    d.frun f sl p img = d.faultProg f sl 0x034A := by
  simp [Dev.frun, hm, h, Nat.not_lt.mpr hn, hg]

/-- R107: an FRUN that nothing faults takes its time mark and binds what it can. -/
theorem Dev.frun_of_granted {m : Img} (hm : p.imgs[img]? = some m) (h : d.planFault p img = false)
    (hn : m.countMin ≤ (d.usableOf f m.runnel).length) (hg : (d.grant? f sl).isSome = true) :
    d.frun f sl p img = (((d.mark (srcSteward f)).2.modProg f sl fun q =>
      { q with wait := .frun img, waitMark := (d.mark (srcSteward f)).1, runs := q.runs ++ [img],
               afterRecompute := none }).optFirst p img).tryBind f sl := by
  simp [Dev.frun, hm, h, Nat.not_lt.mpr hn, Option.isNone_eq_false_iff.mpr hg]

/-! ### FKICK -/

/-- The operands of an FKICK that R109 admits. -/
def KickOk (w : Nat) : Prop :=
  iPtr w ≠ 0 ∧ iPtr w ≤ 4 ∧ imm16 w ≤ 3 ∧ imm32 w + kickBytes (iPtr w) ≤ 65536

/-- What a unit with job descriptors answers to a kick. -/
def Dev.kickAnswer (d : Dev) (f sl : Nat) (p : Prog) (w : Nat) : Kick :=
  let b := p.dataAt (imm32 w) (kickBytes (iPtr w))
  if iPtr w = 1 then d.kickFlume (imm16 w) f sl p b
  else if iPtr w = 2 then d.kickPost f p b
  else d.kickDiv (imm16 w) f sl p b

/-- What a kick comes to, by the unit's answer. -/
def Dev.kickEnds (d : Dev) (f sl : Nat) : Kick → Dev
  | .refused c => d.stopProg f sl c .programEnd
  | .wait => d.modProg f sl fun q => { q with wait := .kick }
  | .done e => e.modProg f sl Prog.next

theorem not_kickOk_iff :
    ¬ KickOk w ↔ iPtr w = 0 ∨ iPtr w > 4 ∨ imm16 w > 3 ∨ imm32 w + kickBytes (iPtr w) > 65536 := by
  simp only [KickOk]
  omega

theorem Dev.kick_of_bad_operands (h : ¬ KickOk w) : d.kick f sl p w = d.faultProg f sl 0x034B :=
  if_pos (not_kickOk_iff.mp h)

/-- A kick of the Gauge lets the steward go on (log entry 41). -/
theorem Dev.kick_gauge (h : KickOk w) (hu : iPtr w = 4) : d.kick f sl p w = d.modProg f sl Prog.next := by
  have hn := mt not_kickOk_iff.mpr (not_not_intro h)
  exact (if_neg hn).trans (by simp only [hu]; rfl)

theorem Dev.kick_of_unit (h : KickOk w) (hu : iPtr w ≠ 4) :
    d.kick f sl p w = d.kickEnds f sl (d.kickAnswer f sl p w) := by
  have hn := mt not_kickOk_iff.mpr (not_not_intro h)
  obtain ⟨h0, h4, -, -⟩ := h
  have h3 : iPtr w ≠ 1 → iPtr w ≠ 2 → iPtr w = 3 := by omega
  by_cases h1 : iPtr w = 1
  · simp only [Dev.kick, if_neg hn, Dev.kickAnswer, if_pos h1]
    rfl
  by_cases h2 : iPtr w = 2
  · simp only [Dev.kick, if_neg hn, Dev.kickAnswer, if_neg h1, if_pos h2]
    rfl
  simp only [Dev.kick, if_neg hn, Dev.kickAnswer, if_neg h1, if_neg h2, if_pos (h3 h1 h2)]
  rfl

/-- Each job's command is the kick of its unit and job kind. -/
theorem exec_of_mem_kickTable (s : State) :
    ∀ r ∈ kickTable f sl, exec r.1 s = liveUnit r.1 s fun d => d.kickJob f sl r.2.unit r.2.job := by
  simp only [kickTable, List.forall_mem_cons]
  exact ⟨rfl, rfl, rfl, rfl, rfl, rfl, rfl, nofun⟩

/-- FKICK, and the command of the job that it kicks, do what the kick does. -/
theorem unitRuns_kick {s : State} {i : Instr} {k : KickOf} (hi : (i, k) ∈ kickTable f sl ∨ i = .fkick f sl)
    (h : StewIssues i s f sl 0x88 true p w) (hk : i ≠ .fkick f sl → kickOf p w = k) :
    UnitRuns i s (settled (s.dev.kick f sl p w) p.ctx) := by
  by_cases hf : i = .fkick f sl
  · subst hf
    exact (unitRuns_of_stewIssues h (execFkick f sl s) rfl rfl :)
  · have job := unitRuns_of_stewIssues h _ (exec_of_mem_kickTable s _ (hi.resolve_right hf)) rfl
    exact job.congr_settled (if_pos (hk hf))

end Sys2Proof.Machine

namespace Sys2Proof.Proofs
open Sys2Proof.Machine Sys2Proof.Claims

/-- Settles O40: each instruction's branches are its tests in their order; FRUN has R107's faults before it binds. -/
theorem stewardInstructionsGrantSignalRunAndJoin : Obligations.StewardInstructionsGrantSignalRunAndJoin := by
  intro s f sl p w
  refine ⟨fun h => ?fgrant, fun h => ?foppt, fun h => ?fwaitg, fun h => ?fsigg, fun h => ?fjoin, fun h => ?frun,
    fun h hp hend hst hheld hop htest hfr => ?bind, fun h hp => ?unbound⟩
  case fgrant =>
    have run := runs_of_stewIssues h (execFgrant f sl s) rfl rfl
    exact ⟨fun h0 => run.congr_settled (if_pos h0),
      fun he hg => run.congr_settled (by simp only [he, hg, or_self, if_false, Dev.modPower, Dev.stewNext])⟩
  case foppt =>
    have run := runs_of_stewIssues h (execFoppt f sl s) rfl rfl
    exact ⟨fun hg => run.congr_settled (if_neg (Nat.not_lt.mpr hg)), fun hg => run.congr_settled (if_pos hg)⟩
  case fwaitg =>
    have run := runs_of_stewIssues h (execFwaitg f sl s) rfl rfl
    exact ⟨fun hc => run.congr_settled (by simp [hc]), fun hc hg => run.congr_settled (by simp [hc, hg]),
      fun hc hg => run.congr_settled (by simp [hc, hg])⟩
  case fsigg =>
    have run := runs_of_stewIssues h (execFsigg f sl s) rfl rfl
    exact ⟨fun hg => run.congr_settled (by simp [hg]), fun hg => run.congr_settled (by simp [hg, Dev.stewNext])⟩
  case fjoin =>
    have run := runs_of_stewIssues h (execFjoin f sl s) rfl rfl
    exact ⟨fun hg hl => run.congr_settled (if_neg (not_or.mpr ⟨hg, Nat.not_lt.mpr hl⟩)),
      fun hg => run.congr_settled (if_pos hg)⟩
  case frun =>
    have run := unitRuns_of_stewIssues h (execFrun f sl s) rfl rfl
    exact ⟨fun hm => run.congr_settled (Dev.frun_of_no_image hm), fun m hm =>
      ⟨fun hf => run.congr_settled (Dev.frun_of_planFault hm hf),
        fun hf hn => run.congr_settled (Dev.frun_of_few_cores hm hf hn),
        fun hf hn hg => run.congr_settled (Dev.frun_of_no_grant hm hf hn hg),
        fun hf hn hg => run.congr_settled (Dev.frun_of_granted hm hf hn hg)⟩⟩
  case bind =>
    obtain ⟨hw, hd⟩ := h
    have run := unitRuns_of_meaning hd hw (execFrunBind f sl s) rfl rfl
    simp only [hp] at run
    exact run.congr (if_pos ⟨hend, hst, hheld, hop, htest, hfr⟩)
  case unbound =>
    obtain ⟨hw, hd⟩ := h
    have run := unitRuns_of_meaning hd hw (execFrunBind f sl s) rfl rfl
    simp only [hp] at run
    exact run

/-- Settles O41: a kick is its operands' fault, the Gauge's, or the answer of its unit. -/
theorem kicksAreTakenRefusedOrWait : Obligations.KicksAreTakenRefusedOrWait := by
  intro s f sl i k p w hi h hk
  have run := unitRuns_kick hi h hk
  refine ⟨fun hok => run.congr_settled (Dev.kick_of_bad_operands hok),
    fun hok hu => run.congr_settled (Dev.kick_gauge hok hu), fun r hok hu hr => ?_⟩
  have hr : s.dev.kickAnswer f sl p w = r := hr
  rw [Dev.kick_of_unit hok hu, hr] at run
  cases r with
  | refused c => exact run
  | wait => exact run
  | done e => exact run

end Sys2Proof.Proofs
end

section
/-!
PROOFS. Cores that stop, and instances that are saved, cleared and restored (04 R93, R110, R111; 13 R307 to R309).
-/
namespace Sys2Proof.Machine
open Sys2Proof.Claims

variable {d : Dev} {core : Nat} {y : Inst}

/-! ### Tile boundaries -/

theorem Dev.boundaryStop_of_no_request (hy : (d.core core).inst = some y)
    (h : (d.core core).stop = none ∨ (d.core core).stopped = true) : d.boundaryStop core = d := by
  obtain h | h := h
  · simp [Dev.boundaryStop, hy, h]
  · cases hc : (d.core core).stop <;> simp [Dev.boundaryStop, hy, hc, h]

/-- The device at a tile boundary of a core: what is in flight there completes or stops inside (R93). -/
def Dev.atBoundary (d : Dev) (core : Nat) (y : Inst) : Dev :=
  (d.cutFlights core y y.flight).1.modInst core fun z => { z with flight := (d.cutFlights core y y.flight).2 }

section Stop
variable {c : StopCause} (hy : (d.core core).inst = some y) (hc : (d.core core).stop = some c)
  (hs : (d.core core).stopped = false)
include hy hc hs

/-- R110: what runs for a program that ends is discarded. -/
theorem Dev.boundaryStop_of_ending
    (h : StopCause.ends c = true ∨ (d.atBoundary core y).ends y.field y.slot = true) :
    d.boundaryStop core = (d.atBoundary core y).dropInst core .idle := by
  simp only [Dev.boundaryStop, hy, hc, hs, Bool.false_eq_true, if_false]
  exact if_pos (Bool.or_eq_true_iff.mpr h)

theorem Dev.boundaryStop_of_kept
    (h : ¬ (StopCause.ends c = true ∨ (d.atBoundary core y).ends y.field y.slot = true)) :
    d.boundaryStop core = (((d.atBoundary core y).joinPool core).modCore core fun x =>
      { x with stopped := true }).trySuspend core := by
  simp only [Dev.boundaryStop, hy, hc, hs, Bool.false_eq_true, if_false]
  exact if_neg (mt Bool.or_eq_true_iff.mp h)

end Stop

/-! ### Late responses -/

/-- The save records once a response for a transfer of a core is discarded (R308). -/
def Dev.savesAnswered (d : Dev) (core tag gen : Nat) : List SaveRec :=
  d.saves.map fun r => if r.core = core then { r with inst := r.inst.answered tag gen } else r

theorem Dev.savesAnswered_of_other {tag gen : Nat} (h : ∀ r ∈ d.saves, r.core ≠ core) :
    d.savesAnswered core tag gen = d.saves :=
  (List.map_congr_left fun r hr => if_neg (h r hr)).trans (List.map_id' _)

end Sys2Proof.Machine

namespace Sys2Proof.Proofs
open Sys2Proof.Machine Sys2Proof.Claims

/-- Settles O43: each clause is a branch of its command's meaning; a stop at a tile boundary discards or keeps what
runs. -/
theorem coresStopSaveClearAndRestore : Obligations.CoresStopSaveClearAndRestore := by
  intro s core at_ tag gen cause ecc hc ht hd
  have hw : coreOk core = true := decide_eq_true hc
  have stop := runs_of_meaning (i := .stopRequest core cause) hd hw (execStopRequest core cause s) rfl rfl
  have boundary := runs_of_meaning (i := .tileBoundaryStop core) hd hw (execTileBoundaryStop core s) rfl rfl
  have limit := runs_of_meaning (i := .cycleLimit core at_) hd hw (execCycleLimit core at_ s) rfl rfl
  have saved := runs_of_meaning (i := .instanceSaveDone core) hd hw (execInstanceSaveDone core s) rfl rfl
  have cleared := runs_of_meaning (i := .coreClearDone core) hd hw (execCoreClearDone core s) rfl rfl
  have restored := runs_of_meaning (i := .instanceRestoreDone core ecc) hd hw (execInstanceRestoreDone core ecc s)
    rfl rfl
  have late := runs_of_meaning (i := .lateResponse core tag gen) hd (by simp [Instr.wf, hw, tagOk, ht])
    (execLateResponse core tag gen s) rfl rfl
  refine ⟨fun hn => ?empty, fun hn => ?unlimited, fun y p hy hp => ?limited, fun y p hy hp => ?stops,
    fun h => saved.congr (if_pos h), fun h => saved.congr (if_neg (Bool.eq_false_iff.mp h)),
    fun h => cleared.congr (if_pos h), fun h => cleared.congr (if_neg (Bool.eq_false_iff.mp h)),
    fun hr => ?unrestored, fun y hr => ?restores, fun y hy hh hr hs => ?late⟩
  case empty =>
    simp only [hn] at stop boundary
    exact ⟨stop, boundary⟩
  case unlimited =>
    simp only [hn] at limit
    exact limit
  case limited =>
    simp only [hy, hp] at limit
    exact ⟨fun h => limit.congr (if_pos h), fun h => limit.congr (if_neg (Nat.not_lt.mpr h))⟩
  case stops =>
    simp only [hy, hp] at stop boundary
    refine ⟨fun hc he => stop.congr (by simp [hc, he]), fun h => stop.congr ?_,
      fun h => boundary.congr_settled (Dev.boundaryStop_of_no_request hy h),
      fun c hc hs => ⟨fun h => ?_, fun h => ?_⟩⟩
    · obtain h | h := h <;> simp [h]
    · exact boundary.congr_settled (Dev.boundaryStop_of_ending hy hc hs h)
    · exact boundary.congr_settled (Dev.boundaryStop_of_kept hy hc hs h)
  case unrestored =>
    simp only [hr] at restored
    exact restored
  case restores =>
    simp only [hr] at restored
    refine ⟨fun h => restored.congr (by simp [h]), fun hsv hcl => ?_⟩
    simp only [hsv, hcl, Bool.or_self, Bool.false_eq_true, if_false] at restored
    refine ⟨fun b hb => ?_, fun a hb ha => ?_, fun hb ha => ?_⟩
    · simp only [hb] at restored
      exact restored
    · simp only [hb, ha] at restored
      exact restored
    · simp only [hb, ha] at restored
      exact restored
  case late =>
    have hmap := Dev.savesAnswered_of_other (tag := tag) (gen := gen) hs
    have hnone : s.dev.saves.filter (fun r => r.core == core) = [] := by simpa using hs
    simp only [Dev.savesAnswered] at hmap
    simp only [hy, hh, hr, Dev.putCore, Dev.setCores_saves, hmap, Dev.setSaves_saves, hnone] at late
    refine late.congr ?_
    simp [Dev.putCore, hh, hr]

end Sys2Proof.Proofs
end

section
/-!
PROOFS. Fields that lose their power and wake, the scheduling quantum, drain windows, operating points and translation
roots (04 R108, R112; 13 R301, R306, R307).
-/
namespace Sys2Proof.Machine

/-- No core of a list holds what is suspended. -/
theorem any_held_eq_false_iff {d : Dev} {l : List Nat} :
    (l.any fun i => (d.core i).held.isSome) = false ↔ ∀ i ∈ l, (d.core i).held = none := by
  simp

end Sys2Proof.Machine

namespace Sys2Proof.Proofs
open Sys2Proof.Machine Sys2Proof.Claims

/-- Settles O44: each clause is one branch of its command's test. -/
theorem fieldsGateWakeAndTakeTheirQuantum : Obligations.FieldsGateWakeAndTakeTheirQuantum := by
  intro s f c at_ hf hc hd
  have hw : fieldOk f = true := decide_eq_true hf
  have hctx : ctxOk c = true := decide_eq_true hc
  have gate := runs_of_meaning (i := .fldPgDelay f at_) hd hw (execFldPgDelay f at_ s) rfl rfl
  have wake := runs_of_meaning (i := .fieldWake f) hd hw (execFieldWake f s) rfl rfl
  have quantum := runs_of_meaning (i := .schQuantum at_) hd rfl (execSchQuantum at_ s) rfl rfl
  have drain := runs_of_meaning (i := .schDrain c at_) hd hctx (execSchDrain c at_ s) rfl rfl
  have root := runs_of_meaning (i := .translationRootLoad c) hd hctx (execTranslationRootLoad c s) rfl rfl
  have point := runs_of_meaning (i := .operatingPointChange f) hd hw (execOperatingPointChange f s) rfl rfl
  simp only [any_held_eq_false_iff, List.isEmpty_iff, ge_iff_le] at gate
  refine ⟨fun h => gate.congr (if_pos h), fun h => gate.congr (if_neg h), fun h => wake.congr (if_neg h),
    fun h => wake.congr (if_pos h), fun h => quantum.congr (if_neg (Nat.not_le.mpr h)),
    fun h => quantum.congr (if_pos h), drain, fun h => root.congr (if_neg (Bool.eq_false_iff.mp h)),
    fun h => root.congr (if_pos h), fun h => ?_, fun q h => ?_⟩
  · simp only [h] at point
    exact point
  · simp only [h] at point
    exact point

end Sys2Proof.Proofs
end

section
/-!
PROOFS. TRAIN_STEP and RUN orders (05 R117, 06 R151, R159, 14 R327): the start of a held step, and the checks of an order
that is handed to its handler.
-/
namespace Sys2Proof.Machine
open Sys2Proof.Claims

/-- A handler takes the order that it is handed. -/
theorem Dev.taken_of_handed {i : Instr} {s : State} {x : Order} {op : Nat} (h : Handed i s x op) :
    s.dev.taken x.id op = some x := by
  obtain ⟨-, ho, hop, hp, hup⟩ := h
  simp [Dev.taken, ho, hop, hp, hup]

section Held
variable {d e : Dev} {x : Order} {k : Nat} {b : Bytes} {p : Plan}
variable (ho : d.order? x.id = some x) (hk : d.districtOf x.ctx = some k)
include ho hk

/-- 06 R159: an earlier step of the district holds the order. -/
theorem Dev.tryStep_of_blocked (hb : d.stepBlocked x.id k = true) : d.tryStep x.id = d := by
  simp [Dev.tryStep, ho, hk, hb]

variable (hp : x.phase = .held) (hf : d.stepBlocked x.id k = false) (ha : (d.dist k).state = .active)
  (hprog : d.bodyProg x = some b) (hcode : d.startCode k b (bitsOf (leAt x.body 8 2) 16) true = 0)
include hp hf ha hprog hcode

/-- 06 R151: the order stays held while its reserves do not fit. -/
theorem Dev.tryStep_of_unreserved (hplan : bytesPlan b = some p)
    (hr : d.reserveAll x.id k (leAt x.body 10 2) p (bitsOf (leAt x.body 8 2) 16) = none) : d.tryStep x.id = d := by
  simp [Dev.tryStep, ho, hk, hp, hf, ha, hprog, hcode, hplan, hr]

/-- The order starts on the device in which what its plan asks for is reserved. -/
theorem Dev.tryStep_of_reserved
    (hr : (bytesPlan b = none ∧ e = d) ∨
      ∃ p, bytesPlan b = some p ∧ d.reserveAll x.id k (leAt x.body 10 2) p (bitsOf (leAt x.body 8 2) 16) = some e) :
    d.tryStep x.id = settled (e.beginStep x k b (bitsOf (leAt x.body 8 2) 16)) x.ctx := by
  obtain ⟨hplan, rfl⟩ | ⟨p, hplan, hr⟩ := hr
  · simp [Dev.tryStep, ho, hk, hp, hf, ha, hprog, hcode, hplan, settled]
  · simp [Dev.tryStep, ho, hk, hp, hf, ha, hprog, hcode, hplan, hr, settled]

end Held

end Sys2Proof.Machine

namespace Sys2Proof.Proofs
open Sys2Proof.Machine Sys2Proof.Claims

/-- Settles O17: the checks of an order are the branches of its handler; a held step starts, or stays as it is. -/
theorem trainStepAndRunOrdersStartTheirPrograms : Obligations.TrainStepAndRunOrdersStartTheirPrograms := by
  intro s x k
  refine fun hk => ⟨fun h => ?step, fun h ho hp => ?held, fun h => ?run⟩
  case step =>
    have ⟨⟨hw, hd⟩, _⟩ := h
    have step := runs_of_meaning (i := .trainStep x.id) hd hw (execTrainStep x.id s) rfl rfl
    simp only [Dev.taken_of_handed h, hk] at step
    refine ⟨fun hm => step.congr (if_pos hm), fun hm hb => ?_, fun b hm hb hc => ?_,
      fun b p hm hb hc hplan hn => ?_, fun b hm hb hc hr => ?_⟩
    all_goals simp only [if_neg hm, hb] at step
    · exact step
    · exact step.congr (if_pos hc)
    · simp only [hplan] at step
      exact step.congr ((if_neg (not_not_intro hc)).trans (if_pos (by simpa using hn)))
    · refine step.congr ((if_neg (not_not_intro hc)).trans (if_neg ?_))
      cases hplan : bytesPlan b with
      | none => exact Bool.false_ne_true
      | some p => simpa using hr p hplan
  case held =>
    obtain ⟨hw, hd⟩ := h
    have start := runs_of_meaning (i := .trainStepStart x.id) hd hw (execTrainStepStart x.id s) rfl rfl
    exact ⟨fun hb => start.congr (Dev.tryStep_of_blocked ho hk hb),
      fun b e hf ha hb hc hr => start.congr (Dev.tryStep_of_reserved ho hk hp hf ha hb hc hr),
      fun b p hf ha hb hc hplan hr => start.congr (Dev.tryStep_of_unreserved ho hk hp hf ha hb hc hplan hr)⟩
  case run =>
    have ⟨⟨hw, hd⟩, _⟩ := h
    have run := runs_of_meaning (i := .run x.id) hd hw (execRun x.id s) rfl rfl
    simp only [Dev.taken_of_handed h, hk] at run
    refine ⟨fun hb => ?_, fun b hb hc => ?_, fun b hb hc => ?_⟩
    all_goals simp only [hb] at run
    · exact run
    · exact run.congr (if_pos hc)
    · exact run.congr (if_neg (not_not_intro hc))

end Sys2Proof.Proofs
end

section
/-!
PROOFS. The engines of a Flume and the jobs of a Diversion (05 R122, R123, R128, R129, R142).
-/
namespace Sys2Proof.Machine

variable {d : Dev} {n j : Nat}

/-- 05 R128: no slot is taken for a program that is suspended, or while every engine is busy. -/
theorem Dev.takeSlotOf_of_idle (h : d.progSuspended (d.fjob n j).field (d.fjob n j).pslot = true ∨
    (d.flume n).engines.contains none = false) : d.takeSlotOf n j = d :=
  if_pos (by simpa using h)

section Taken
variable (hs : d.progSuspended (d.fjob n j).field (d.fjob n j).pslot = false)
  (he : (d.flume n).engines.contains none = true)
include hs he

/-- 05 R129: a posted slot that breaks its rules ends the job and the program that kicked it. -/
theorem Dev.takeSlotOf_of_breaks (hb : d.slotBreaks n j = true) :
    d.takeSlotOf n j =
      (d.endFjob n j 0x01A3).stopProg (d.fjob n j).field (d.fjob n j).pslot 0x01A3 .programEnd := by
  simp only [Dev.takeSlotOf, hs, he, hb, Bool.not_true, Bool.or_self, Bool.false_eq_true, if_false, if_true]

theorem Dev.takeSlotOf_of_posted (hb : d.slotBreaks n j = false) : d.takeSlotOf n j = d.takeFlumeSlot n j := by
  simp only [Dev.takeSlotOf, hs, he, hb, Bool.not_true, Bool.or_self, Bool.false_eq_true, if_false]

end Taken

end Sys2Proof.Machine

namespace Sys2Proof.Proofs
open Sys2Proof.Machine Sys2Proof.Claims

/-- Settles O42: each clause is one branch of its command's meaning, on a job that stands or a place that is free. -/
theorem flumeSlotsAndDiversionJobsRun : Obligations.FlumeSlotsAndDiversionJobsRun := by
  intro s n j e x hn hd
  have hinst : instOk n = true := decide_eq_true hn
  refine ⟨fun hj => ?take, fun he => ?done, fun hj => ?diversion⟩
  case take =>
    have take := unitRuns_of_meaning (i := .flumeSlotTake n j) hd (Bool.and_eq_true_iff.mpr ⟨hinst, decide_eq_true hj⟩)
      (execFlumeSlotTake n j s) rfl rfl
    refine ⟨fun hf => take.congr (if_pos hf), fun hf h => ?_, fun hf hs hfree => ⟨fun hb => ?_, fun hb => ?_⟩⟩
    all_goals replace take := take.congr (if_neg hf)
    · exact take.congr_settled (Dev.takeSlotOf_of_idle h)
    · exact take.congr_settled (Dev.takeSlotOf_of_breaks hs hfree hb)
    · exact take.congr_settled (Dev.takeSlotOf_of_posted hs hfree hb)
  case done =>
    have done := unitRuns_of_meaning (i := .flumeSlotDone n e) hd (Bool.and_eq_true_iff.mpr ⟨hinst, decide_eq_true he⟩)
      (execFlumeSlotDone n e s) rfl rfl
    refine ⟨fun hf => ?_, fun c r hf => ?_⟩
    all_goals
      simp only [hf] at done
      exact done
  case diversion =>
    have hjob : (instOk n && divJobOk j) = true := Bool.and_eq_true_iff.mpr ⟨hinst, decide_eq_true hj⟩
    have ends := unitRuns_of_meaning (i := .diversionJobEnd n j) hd hjob (execDiversionJobEnd n j s) rfl rfl
    have ready (hx : x < 4096) := unitRuns_of_meaning (i := .expertReady n j x) hd
      (Bool.and_eq_true_iff.mpr ⟨hjob, decide_eq_true hx⟩) (execExpertReady n j x s) rfl rfl
    refine ⟨fun hf => ?_, fun y hy => ?_⟩
    · simp only [hf] at ends ready
      exact ⟨ends, ready⟩
    · simp only [hy] at ends ready
      refine ⟨ready, fun hc hp => ends.congr (if_pos ?_), fun h => ends.congr (if_neg ?_)⟩
      · simp [hc, hp]
      · obtain h | h := h <;> simp [h]

end Sys2Proof.Proofs
end

section
/-!
PROOFS. The commands of GAU_CMD (07 R185, R193): the refusals that all four share, in R193's order, and then what each
command's own operands refuse or change.
-/
namespace Sys2Proof.Machine
open Sys2Proof.Claims

/-- A write of the host, through a port that takes it, does its change to the device. -/
theorem runs_of_hosted {i : Instr} {s : State} {fn : Nat} {f : Dev → Dev} (hd : s.dev.dry = false)
    (hf : s.dev.deaf fn = false) (hw : i.wf = true) (he : exec i s = hosted fn i s f) : Runs i s (f s.dev) :=
  he.trans (hosted_ok hw hd hf)

theorem fnOk_of_isPf {fn : Nat} (h : isPf fn = true) : fnOk fn = true := by
  simp only [isPf, fnOk, Bool.or_eq_true, beq_iff_eq, decide_eq_true_eq] at h ⊢
  omega

/-- R193: an operand that needs no memory, or names memory of the district, is not outside it. -/
theorem not_outside {n : Nat} {inside : Bool} (h : n = 0 ∨ inside = true) : ¬ (n ≠ 0 ∧ inside = false) := by
  obtain h | h := h <;> simp [h]

variable {v f : Dev} {fn k own code : Nat}

/-! ### The refusals that the commands share -/

section Shared
variable (hfn : isPf fn = true)
include hfn

theorem Dev.gauCmd_of_not_train (ht : v.isTrain k = false) : v.gauCmd fn k f own = v.gauEnd fn k 0x01E4 := by
  simp [Dev.gauCmd, hfn, ht]

variable (ht : v.isTrain k = true)
include ht

theorem Dev.gauCmd_of_live (hl : v.liveTrain k = true) : v.gauCmd fn k f own = v.gauEnd fn k 0x01E3 := by
  simp [Dev.gauCmd, hfn, ht, hl]

variable (hl : v.liveTrain k = false)
include hl

/-- R193: a command whose operands are refused changes nothing but its outcome. -/
theorem Dev.gauCmd_of_refused (ho : own = code) (hc : code ≠ 0) : v.gauCmd fn k f own = v.gauEnd fn k code := by
  simp [Dev.gauCmd, hfn, ht, hl, ho, hc]

theorem Dev.gauCmd_of_accepted (ho : own = 0) : v.gauCmd fn k f own = f.gauEnd fn k 0 := by
  simp [Dev.gauCmd, hfn, ht, hl, ho]

end Shared

/-! ### The operands of each command -/

section Operands
variable (hfn : isPf fn = true) (ht : v.isTrain k = true) (hl : v.liveTrain k = false)
include hfn ht hl

theorem Dev.loadWatch_of_outside (hn : v.reg .gauTableCount k ≠ 0)
    (hr : v.ownRange k (64 * v.reg .gauTableAddr k) (8 * v.reg .gauTableCount k) = false) :
    v.loadWatch fn k = v.gauEnd fn k 0x01E2 :=
  Dev.gauCmd_of_refused hfn ht hl (if_pos ⟨hn, hr⟩) (by decide)

section Table
variable (hr : v.reg .gauTableCount k = 0 ∨
  v.ownRange k (64 * v.reg .gauTableAddr k) (8 * v.reg .gauTableCount k) = true)
include hr

theorem Dev.loadWatch_of_malformed
    (hp : parseWatch (v.readDev (64 * v.reg .gauTableAddr k) (8 * v.reg .gauTableCount k))
      (v.reg .gauTableCount k) = none) :
    v.loadWatch fn k = v.gauEnd fn k 0x01E0 :=
  Dev.gauCmd_of_refused hfn ht hl ((if_neg (not_outside hr)).trans (by simp only [hp])) (by decide)

variable {t : List Watch} (hp : parseWatch (v.readDev (64 * v.reg .gauTableAddr k) (8 * v.reg .gauTableCount k))
  (v.reg .gauTableCount k) = some t)
include hp

theorem Dev.loadWatch_of_full (hs : 4096 < v.watchOthers k + v.reg .gauTableCount k) :
    v.loadWatch fn k = v.gauEnd fn k 0x01E1 :=
  Dev.gauCmd_of_refused hfn ht hl ((if_neg (not_outside hr)).trans (by simp only [hp, if_pos hs])) (by decide)

/-- R185: the table that was read replaces the district's. -/
theorem Dev.loadWatch_of_fits (hs : v.watchOthers k + v.reg .gauTableCount k ≤ 4096) :
    v.loadWatch fn k = (((v.fetchDev (unitAcc (v.gaugeInst k)) (64 * v.reg .gauTableAddr k)
      (8 * v.reg .gauTableCount k)).2.modGauge k fun g => { g with table := t }).gauEnd fn k 0) := by
  simp only [Dev.loadWatch, if_neg (not_outside hr), hp, if_neg (Nat.not_lt.mpr hs)]
  exact Dev.gauCmd_of_accepted hfn ht hl rfl

end Table

theorem Dev.setSampleRing_of_bad (h : ¬ (1 ≤ v.reg .gauRingEntries k ∧ v.reg .gauRingEntries k ≤ 65536 ∧
      v.ownRange k (64 * v.reg .gauRingAddr k) (64 * v.reg .gauRingEntries k) = true)) :
    v.setSampleRing fn k = v.gauEnd fn k 0x01E2 :=
  Dev.gauCmd_of_refused hfn ht hl (if_neg h) (by decide)

theorem Dev.setSampleRing_of_good (h : 1 ≤ v.reg .gauRingEntries k ∧ v.reg .gauRingEntries k ≤ 65536 ∧
      v.ownRange k (64 * v.reg .gauRingAddr k) (64 * v.reg .gauRingEntries k) = true) :
    v.setSampleRing fn k = ((v.putReg .gauRingTail k 0).modGauge k fun g => { g with
      ringAddr := 64 * v.reg .gauRingAddr k, ringEntries := v.reg .gauRingEntries k, head := 0 }).gauEnd fn k 0 :=
  Dev.gauCmd_of_accepted hfn ht hl (if_pos h)

theorem Dev.setLossScale_of_above (h : 127 < v.reg .gauLsSetLs k) : v.setLossScale fn k = v.gauEnd fn k 0x01E5 :=
  Dev.gauCmd_of_refused hfn ht hl (if_pos h) (by decide)

theorem Dev.setLossScale_of_le (h : v.reg .gauLsSetLs k ≤ 127) :
    v.setLossScale fn k = (v.modGauge k fun g => { g with
      ls := v.reg .gauLsSetLs k, attempt := v.reg .gauLsSetAttempt k, clean := 0 }).gauEnd fn k 0 :=
  Dev.gauCmd_of_accepted hfn ht hl (if_neg (Nat.not_lt.mpr h))

theorem Dev.clearStreaks_of_idle : v.clearStreaks fn k =
    (v.modGauge k fun g => { g with table := g.table.map fun w => { w with streak := 0 } }).gauEnd fn k 0 :=
  Dev.gauCmd_of_accepted hfn ht hl rfl

end Operands

end Sys2Proof.Machine

namespace Sys2Proof.Proofs
open Sys2Proof.Machine Sys2Proof.Claims

/-- Settles O24: every command is one gauCmd, so R193's shared refusals come first; then its own operands decide. -/
theorem gaugeCommandsLoadSetAndClear : Obligations.GaugeCommandsLoadSetAndClear := by
  intro s fn k hk hd hf hfn
  have hw : (fnOk fn && distOk k) = true := Bool.and_eq_true_iff.mpr ⟨fnOk_of_isPf hfn, decide_eq_true hk⟩
  have load : Runs (.loadTable fn k) s (s.dev.loadWatch fn k) :=
    runs_of_hosted (f := (·.loadWatch fn k)) hd hf hw rfl
  have ring : Runs (.setRing fn k) s (s.dev.setSampleRing fn k) :=
    runs_of_hosted (f := (·.setSampleRing fn k)) hd hf hw rfl
  have scale : Runs (.setLs fn k) s (s.dev.setLossScale fn k) :=
    runs_of_hosted (f := (·.setLossScale fn k)) hd hf hw rfl
  have streaks : Runs (.clearStreaks fn k) s (s.dev.clearStreaks fn k) :=
    runs_of_hosted (f := (·.clearStreaks fn k)) hd hf hw rfl
  refine ⟨fun ht => ?role, fun ht hl => ?busy, fun ht hl => ⟨?table, ?ring, ?scale⟩⟩
  case role =>
    have refused {f : Dev} {own : Nat} := Dev.gauCmd_of_not_train (f := f) (own := own) hfn ht
    exact ⟨load.congr refused, ring.congr refused, scale.congr refused, streaks.congr refused⟩
  case busy =>
    have refused {f : Dev} {own : Nat} := Dev.gauCmd_of_live (f := f) (own := own) hfn ht hl
    exact ⟨load.congr refused, ring.congr refused, scale.congr refused, streaks.congr refused⟩
  case table =>
    exact ⟨fun hn hr => load.congr (Dev.loadWatch_of_outside hfn ht hl hn hr),
      fun hr hp => load.congr (Dev.loadWatch_of_malformed hfn ht hl hr hp),
      fun t hr hp => ⟨fun hs => load.congr (Dev.loadWatch_of_full hfn ht hl hr hp hs),
        fun hs => load.congr (Dev.loadWatch_of_fits hfn ht hl hr hp hs)⟩⟩
  case ring =>
    exact ⟨fun h => ring.congr (Dev.setSampleRing_of_bad hfn ht hl h),
      fun h => ring.congr (Dev.setSampleRing_of_good hfn ht hl h)⟩
  case scale =>
    exact ⟨fun h => scale.congr (Dev.setLossScale_of_above hfn ht hl h),
      fun h => scale.congr (Dev.setLossScale_of_le hfn ht hl h), streaks.congr (Dev.clearStreaks_of_idle hfn ht hl)⟩

end Sys2Proof.Proofs
end

section
/-!
PROOFS. CONFLUENCE orders (08 R198, R209, R212 to R215): what the shared start of the four operations answers once the
descriptor is read, and what EXPORT and RING do once their accesses have gone through, or not.
-/
namespace Sys2Proof.Machine
open Sys2Proof.Claims

/-- A unit's work ends at a fault that its accesses met. -/
theorem Dev.unlessFault_of_faults {d : Dev} {g : Dev → Dev} (h : d.memFaults ≠ []) : d.unlessFault g = d :=
  if_neg (mt List.isEmpty_iff.mp h)

theorem Dev.unlessFault_of_none {d : Dev} {g : Dev → Dev} (h : d.memFaults = []) : d.unlessFault g = g d :=
  if_pos (List.isEmpty_iff.mpr h)

/-- R213: the buckets of an EXPORT, compressed in their order, and how many of their blocks are not finite. -/
def Dev.exportAll (d : Dev) (o : OrderId) (c : Nat) (y : CflDesc) (bs : List (Nat × Bucket)) : Dev × Nat :=
  bs.foldl (fun a q => ((a.1.exportBucket o c y q.2).1, a.2 + (a.1.exportBucket o c y q.2).2)) (d, 0)

/-- R214: the buckets of a RING, each added to its incoming blocks, and the events of those blocks. -/
def Dev.ringAll (d : Dev) (o : OrderId) (c : Nat) (y : CflDesc) (key : RndKey) (bs : List (Nat × Bucket)) :
    Dev × List Nat :=
  bs.foldl (fun a q => ((a.1.ringBucket o c y key q.2).1, a.2 ++ (a.1.ringBucket o c y key q.2).2)) (d, [])

section Read
variable {i : Instr} {s : State} {x : Order} {k op : Nat} {e : Dev} {b : Bytes}
  {f : Dev → Order → Nat → Nat → CflDesc → Dev}

/-- R209: a descriptor that is read and names the command's operation is refused, or names no bucket, or reaches the
operation on the device that its read left. -/
theorem Dev.cflOrder_of_read (h : CflRead i s x k e b) (hop : (parseCfl b).op = op) (h1 : op ≠ 1) :
    s.dev.cflOrder x.id op f =
      if e.cflCode x.ctx k (parseCfl b) b ≠ 0 then
        e.failOrder x.id (e.cflCode x.ctx k (parseCfl b) b) (s.dev.cflSrc k)
      else if (parseCfl b).tagCount = 0 then (e.cflEmpty x.ctx k (parseCfl b)).endOrder x.id 0 (s.dev.cflSrc k) true
      else f e x k (s.dev.cflSrc k) (parseCfl b) := by
  obtain ⟨hx, hk, ha, hz, hr⟩ := h
  simp [Dev.cflOrder, Dev.taken_of_handed hx, hk, ha, hz, hr, hop, h1]

theorem Dev.cflOrder_of_refused (h : CflRead i s x k e b) (hop : (parseCfl b).op = op) (h1 : op ≠ 1)
    (hc : e.cflCode x.ctx k (parseCfl b) b ≠ 0) :
    s.dev.cflOrder x.id op f = e.failOrder x.id (e.cflCode x.ctx k (parseCfl b) b) (s.dev.cflSrc k) :=
  (Dev.cflOrder_of_read h hop h1).trans (if_pos hc)

theorem Dev.cflOrder_of_no_tags (h : CflRead i s x k e b) (hop : (parseCfl b).op = op) (h1 : op ≠ 1)
    (hc : e.cflCode x.ctx k (parseCfl b) b = 0) (ht : (parseCfl b).tagCount = 0) :
    s.dev.cflOrder x.id op f = (e.cflEmpty x.ctx k (parseCfl b)).endOrder x.id 0 (s.dev.cflSrc k) true :=
  (Dev.cflOrder_of_read h hop h1).trans ((if_neg (not_not_intro hc)).trans (if_pos ht))

theorem Dev.cflOrder_of_valid {y : CflDesc} (h : CflOrder i s x k e y) (hop : y.op = op) (h1 : op ≠ 1) :
    s.dev.cflOrder x.id op f = f e x k (s.dev.cflSrc k) y := by
  obtain ⟨b, h, rfl, hc, ht⟩ := h
  exact (Dev.cflOrder_of_read h hop h1).trans ((if_neg (not_not_intro hc)).trans (if_neg ht))

variable {y : CflDesc} (h : CflOrder i s x k e y) (hop : y.op = op) (h1 : op ≠ 1)
include h hop h1

/-- A command with a valid descriptor does its operation, if its meaning m is the shared start with that operation. -/
theorem runs_of_cflOrder (m : Host.Outcome State Fault Refusal) (he : exec i s = m)
    (hm : m = live i s fun d => d.cflOrder x.id op f) : Runs i s (f e x k (s.dev.cflSrc k) y) := by
  have ⟨_, ⟨⟨⟨hw, hd⟩, _⟩, _⟩, _⟩ := h
  exact (runs_of_meaning hd hw m he hm).congr (Dev.cflOrder_of_valid h hop h1)

theorem unitRuns_of_cflOrder (m : Host.Outcome State Fault Refusal) (he : exec i s = m)
    (hm : m = liveUnit i s fun d => d.cflOrder x.id op f) : UnitRuns i s (f e x k (s.dev.cflSrc k) y) := by
  have ⟨_, ⟨⟨⟨hw, hd⟩, _⟩, _⟩, _⟩ := h
  exact (unitRuns_of_meaning hd hw m he hm).congr (Dev.cflOrder_of_valid h hop h1)

end Read

section Buckets
variable {s : State} {x : Order} {k : Nat} {e : Dev} {y : CflDesc}

/-- R213: in AWAIT_FINAL the buckets named are compressed; the count, the Gate and the completion follow. -/
theorem unitRuns_exportAll (h : CflOrder (.exportSum x.id) s x k e y) (hop : y.op = 4)
    (hs : (e.cfl k).round.state = .awaitFinal) :
    let p := e.exportAll x.id x.ctx y (e.descBuckets k y)
    UnitRuns (.exportSum x.id) s (p.1.unlessFault fun d =>
      ((d.cflSummary k 7 x.ctx p.2 (some x.id)).signal y.gate 1 (s.dev.cflSrc k)).doneOrder x.id (s.dev.cflSrc k)) :=
  (unitRuns_of_cflOrder h hop (by decide) (execExportSum x.id s) rfl rfl).congr (if_neg (not_not_intro hs))

/-- R214: in AWAIT_FINAL the local sum is added in the buckets named; the events, the Gate and the completion follow. -/
theorem unitRuns_ringAll (h : CflOrder (.ring x.id) s x k e y) (hop : y.op = 5)
    (hs : (e.cfl k).round.state = .awaitFinal) :
    let r := (e.cfl k).round
    let p := e.ringAll x.id x.ctx y { seed := r.seed, step := r.step, attempt := r.attempt } (e.descBuckets k y)
    UnitRuns (.ring x.id) s (p.1.unlessFault fun d =>
      ((d.ringEvents k x.ctx x.id p.2).signal y.gate 1 (s.dev.cflSrc k)).doneOrder x.id (s.dev.cflSrc k)) :=
  (unitRuns_of_cflOrder h hop (by decide) (execRing x.id s) rfl rfl).congr (if_neg (not_not_intro hs))

end Buckets

section Commands
variable {i : Instr} {s : State} {o : OrderId} {n : Nat}

/-- A unit's work that needs all its accesses ends at a fault of them, and otherwise goes on. -/
theorem unitRuns_unlessFault {d : Dev} {g : Dev → Dev} (run : UnitRuns i s (d.unlessFault g)) :
    (d.memFaults ≠ [] → UnitRuns i s d) ∧ (d.memFaults = [] → UnitRuns i s (g d)) :=
  ⟨fun hf => run.congr (Dev.unlessFault_of_faults hf), fun hf => run.congr (Dev.unlessFault_of_none hf)⟩

/-- The four commands of CONFLUENCE orders, each with the OP of its descriptors (Table 08-4). -/
def IsCflCommand (i : Instr) (o : OrderId) (n : Nat) : Prop :=
  (i = .importPart o ∧ n = 2) ∨ (i = .final o ∧ n = 3) ∨ (i = .exportSum o ∧ n = 4) ∨ (i = .ring o ∧ n = 5)

/-- OP 1 is POST's, which is a field part's and no order's. -/
theorem IsCflCommand.ne_one (h : IsCflCommand i o n) : n ≠ 1 := by
  obtain ⟨-, rfl⟩ | ⟨-, rfl⟩ | ⟨-, rfl⟩ | ⟨-, rfl⟩ := h <;> decide

/-- A CONFLUENCE command completes: IMPORT only places a contribution, the others are a unit's. -/
def CflRuns (i : Instr) (s : State) (n : Nat) (d : Dev) : Prop := if n = 2 then Runs i s d else UnitRuns i s d

theorem CflRuns.congr {d e : Dev} (h : CflRuns i s n d) (he : d = e) : CflRuns i s n e := he ▸ h

/-- Every command of CONFLUENCE orders is the shared start with an operation of its own. -/
theorem IsCflCommand.runs (h : IsCflCommand i o n) (ha : Able i s) :
    ∃ f, CflRuns i s n (s.dev.cflOrder o n f) := by
  obtain ⟨hw, hd⟩ := ha
  obtain ⟨rfl, rfl⟩ | ⟨rfl, rfl⟩ | ⟨rfl, rfl⟩ | ⟨rfl, rfl⟩ := h
  · exact ⟨_, runs_of_meaning hd hw (execImportPart o s) rfl rfl⟩
  · exact ⟨_, unitRuns_of_meaning hd hw (execFinal o s) rfl rfl⟩
  · exact ⟨_, unitRuns_of_meaning hd hw (execExportSum o s) rfl rfl⟩
  · exact ⟨_, unitRuns_of_meaning hd hw (execRing o s) rfl rfl⟩

end Commands

end Sys2Proof.Machine

namespace Sys2Proof.Proofs
open Sys2Proof.Machine Sys2Proof.Claims

/-- Settles O22: a valid descriptor of tags reaches its operation, whose tests are the clauses; any other ends in the
start that the four commands share. -/
theorem confluenceOrdersImportExportRingAndFinish : Obligations.ConfluenceOrdersImportExportRingAndFinish := by
  intro s x k e y
  refine ⟨fun h hop => ?importPart, fun h hop => ?final, fun h hop => ?exportSum, fun h hop => ?ring,
    fun i n b hi h hop => ?shared⟩
  case importPart =>
    have run := runs_of_cflOrder h hop (by decide) (execImportPart x.id s) rfl rfl
    exact ⟨fun hi => run.congr (if_pos hi),
      fun hi hf => run.congr ((if_neg (Bool.eq_false_iff.mp hi)).trans (if_pos hf)),
      fun hi hf => run.congr ((if_neg (Bool.eq_false_iff.mp hi)).trans (if_neg hf))⟩
  case final =>
    have run := unitRuns_of_cflOrder h hop (by decide) (execFinal x.id s) rfl rfl
    refine ⟨fun hr => run.congr (if_pos hr), fun hs hk hl => ?_, fun hs hk hl => ?_⟩
    all_goals replace run := run.congr (if_neg (not_or.mpr ⟨not_not_intro hs, not_not_intro hk⟩))
    · exact run.congr (if_neg (Bool.eq_false_iff.mp hl))
    · exact run.congr (if_pos hl)
  case exportSum =>
    have run := unitRuns_of_cflOrder h hop (by decide) (execExportSum x.id s) rfl rfl
    exact ⟨fun hs => run.congr (if_pos hs), fun hs => (unitRuns_unlessFault (unitRuns_exportAll h hop hs) :)⟩
  case ring =>
    have run := unitRuns_of_cflOrder h hop (by decide) (execRing x.id s) rfl rfl
    exact ⟨fun hs => run.congr (if_pos hs), fun hs => (unitRuns_unlessFault (unitRuns_ringAll h hop hs) :)⟩
  case shared =>
    have hi : IsCflCommand i x.id n := hi
    have ⟨⟨ha, _⟩, _⟩ := h
    obtain ⟨f, run⟩ := hi.runs ha
    exact ⟨fun hc => run.congr (Dev.cflOrder_of_refused h hop hi.ne_one hc),
      fun hc ht => run.congr (Dev.cflOrder_of_no_tags h hop hi.ne_one hc ht)⟩

end Sys2Proof.Proofs
end

section
/-!
PROOFS. The instants of a round (08 R197, R199 to R204, R212) and the commands of CFL_CMD (R207).
-/
namespace Sys2Proof.Machine
open Sys2Proof.Claims

/-! ### The instants of a round -/

section Rounds
variable {s : State} {k at_ : Nat} (hk : k < 16) (hd : s.dev.dry = false)
include hk hd

/-- R197: an instant of the deadline's command closes the round that is open once the deadline has passed. -/
theorem runs_cflDeadline {t : Nat} (ht : ((s.dev.advance at_).cfl k).round.deadline = some t) :
    Runs (.cflDeadline k at_) s
      (if ((s.dev.advance at_).cfl k).round.state = .admitting ∧ t ≤ (s.dev.advance at_).eff then
        ((s.dev.advance at_).closeRound k true).pump else s.dev.advance at_) := by
  have run := runs_of_meaning (i := .cflDeadline k at_) hd (decide_eq_true hk) (execCflDeadline k at_ s) rfl rfl
  simp only [ht] at run
  exact run

theorem runs_cflFinalLimit :
    Runs (.cflFinalLimit k at_) s
      (if ((s.dev.advance at_).cfl k).round.state = .awaitFinal ∧
          ((s.dev.advance at_).cfl k).round.finalEnd ≤ (s.dev.advance at_).eff then
        (((s.dev.advance at_).cflReleaseAll k ((s.dev.advance at_).cfl k).round.parts).deliver k 0x0602 none).pump
      else s.dev.advance at_) := by
  have run := runs_of_meaning (i := .cflFinalLimit k at_) hd (decide_eq_true hk) (execCflFinalLimit k at_ s) rfl rfl
  exact run

theorem unitRuns_reductionDone :
    UnitRuns (.reductionDone k) s
      (if (s.dev.cfl k).round.state = .reducing then (s.dev.reduce k).pump else s.dev) := by
  have run := unitRuns_of_meaning (i := .reductionDone k) hd (decide_eq_true hk) (execReductionDone k s) rfl rfl
  exact run

end Rounds

/-! ### CFL_CMD -/

section Commands
variable {v : Dev} {fn k : Nat}

/-- R207: a district whose step is live, or which holds contributions, keeps its bucket table. -/
def Dev.cflBusy (v : Dev) (k : Nat) : Prop := v.liveTrain k = true ∨ (v.cfl k).folds ≠ [] ∨ (v.cfl k).held ≠ []

/-- The buckets of the other districts' tables. -/
def Dev.bucketOthers (v : Dev) (k : Nat) : Nat :=
  sumNat ((List.range 16).map fun j => if j = k then 0 else (v.cfl j).table.length)

theorem Dev.loadBuckets_of_not_train (ht : v.isTrain k = false) : v.loadBuckets fn k = v.cflEnd fn k 0x0195 := by
  simp [Dev.loadBuckets, ht]

theorem Dev.cflWrite_drop_of_not_train (ht : v.isTrain k = false) : v.cflWrite fn k 2 = v.cflEnd fn k 0x0195 := by
  simp [Dev.cflWrite, ht]

section Train
variable (ht : v.isTrain k = true)
include ht

theorem Dev.cflWrite_drop : v.cflWrite fn k 2 = (v.dropPending k).cflEnd fn k 0 := by simp [Dev.cflWrite, ht]

theorem Dev.loadBuckets_of_busy (hb : v.cflBusy k) : v.loadBuckets fn k = v.cflEnd fn k 0x0196 := by
  simp only [Dev.loadBuckets, ht, Bool.not_true, Bool.false_eq_true, if_false]
  exact if_pos hb

variable (hb : ¬ v.cflBusy k)
include hb

/-- R207: a table that is not accepted changes nothing but the outcome. -/
theorem Dev.loadBuckets_of_bad_table
    (hn : v.bucketTable k (64 * v.reg .cflBucketAddr k) (v.reg .cflBucketCount k) = none) :
    v.loadBuckets fn k = v.cflEnd fn k 0x0192 := by
  simp only [Dev.loadBuckets, ht, hn, Bool.not_true, Bool.false_eq_true, if_false]
  exact if_neg hb

variable {t : List Bucket}
  (hs : v.bucketTable k (64 * v.reg .cflBucketAddr k) (v.reg .cflBucketCount k) = some t)
include hs

theorem Dev.loadBuckets_of_full (ho : 4096 < v.bucketOthers k + v.reg .cflBucketCount k) :
    v.loadBuckets fn k = v.cflEnd fn k 0x0196 := by
  simp only [Dev.loadBuckets, ht, hs, Bool.not_true, Bool.false_eq_true, if_false]
  exact (if_neg hb).trans (if_pos ho)

/-- R207: the table that was read replaces the district's. -/
theorem Dev.loadBuckets_of_fits (ho : v.bucketOthers k + v.reg .cflBucketCount k ≤ 4096) :
    v.loadBuckets fn k = ((v.fetchDev (unitAcc (v.gaugeInst k)) (64 * v.reg .cflBucketAddr k)
      (32 * v.reg .cflBucketCount k)).2.modCfl k fun c => { c with table := t }).cflEnd fn k 0 := by
  simp only [Dev.loadBuckets, ht, hs, Bool.not_true, Bool.false_eq_true, if_false]
  exact (if_neg hb).trans (if_neg (Nat.not_lt.mpr ho))

end Train

section Hosted
variable {s : State} (hk : k < 16) (hd : s.dev.dry = false) (hf : s.dev.deaf fn = false) (hfn : isPf fn = true)
include hk hd hf hfn

/-- R207: a physical function's LOAD_BUCKETS is one write of CFL_CMD. -/
theorem runs_loadBuckets : Runs (.loadBuckets fn k) s (s.dev.loadBuckets fn k) :=
  (runs_of_hosted (i := .loadBuckets fn k) (f := fun v => if isPf fn then v.cflWrite fn k 1 else v) hd hf
    (Bool.and_eq_true_iff.mpr ⟨fnOk_of_isPf hfn, decide_eq_true hk⟩) rfl).congr (if_pos hfn)

theorem runs_dropPending : Runs (.dropPending fn k) s (s.dev.cflWrite fn k 2) :=
  (runs_of_hosted (i := .dropPending fn k) (f := fun v => if isPf fn then v.cflWrite fn k 2 else v) hd hf
    (Bool.and_eq_true_iff.mpr ⟨fnOk_of_isPf hfn, decide_eq_true hk⟩) rfl).congr (if_pos hfn)

end Hosted

end Commands

end Sys2Proof.Machine

namespace Sys2Proof.Proofs
open Sys2Proof.Machine Sys2Proof.Claims

/-- Settles O23: each instant of a round acts from its time on and in its state alone; LOAD_BUCKETS and DROP_PENDING are
writes of CFL_CMD, whose tests come in the clauses' order. -/
theorem confluenceRoundsCloseReduceAndExpire : Obligations.ConfluenceRoundsCloseReduceAndExpire := by
  intro s fn k at_ hk hd
  have reduced := unitRuns_reductionDone hk hd
  have limit := runs_cflFinalLimit (at_ := at_) hk hd
  refine ⟨fun t ht hs => ?deadline, fun hs => reduced.congr (if_pos hs), fun hs => reduced.congr (if_neg hs),
    fun hs h => limit.congr (if_pos ⟨hs, h⟩), fun hs h => limit.congr (if_neg fun ⟨_, hle⟩ => Nat.not_le.mpr h hle),
    fun hf hfn => ?commands⟩
  case deadline =>
    have closes := runs_cflDeadline hk hd ht
    exact ⟨fun h => closes.congr (if_pos ⟨hs, h⟩),
      fun h => closes.congr (if_neg fun ⟨_, hle⟩ => Nat.not_le.mpr h hle)⟩
  case commands =>
    have load := runs_loadBuckets hk hd hf hfn
    have drop := runs_dropPending hk hd hf hfn
    exact ⟨fun ht => ⟨load.congr (Dev.loadBuckets_of_not_train ht), drop.congr (Dev.cflWrite_drop_of_not_train ht)⟩,
      fun ht hb => load.congr (Dev.loadBuckets_of_busy ht hb),
      fun ht hb hn => load.congr (Dev.loadBuckets_of_bad_table ht hb hn),
      fun t ht hb hs => ⟨fun ho => load.congr (Dev.loadBuckets_of_full ht hb hs ho),
        fun ho => load.congr (Dev.loadBuckets_of_fits ht hb hs ho)⟩,
      fun ht => drop.congr (Dev.cflWrite_drop ht)⟩

end Sys2Proof.Proofs
end

section
/-!
PROOFS. REQUEST and CANCEL orders (09 R221, R234, Table 09-3): what Intake answers a REQUEST at the first test that it
fails, what an admitted one takes, and the end that a CANCEL makes.
-/
namespace Sys2Proof.Machine
open Sys2Proof.Claims

/-! ### The tests of a REQUEST -/

/-- The access by which Intake reads for a REQUEST order. -/
abbrev Dev.reqAcc (d : Dev) (x : Order) : Accessor := { d.hgAcc x.ctx with order := some x.id }

/-- The body of a REQUEST order: an aligned address, and zeros. -/
def Order.reqBody (x : Order) : Prop := leAt x.body 0 8 % 64 = 0 ∧ allZero (x.body.drop 8) = true

theorem Order.reqBody_iff {x : Order} :
    x.reqBody ↔ ¬ (leAt x.body 0 8 % 64 ≠ 0 ∨ allZero (x.body.drop 8) = false) := by
  simp [Order.reqBody]

section Tests
variable {d e : Dev} {x : Order} {b : Bytes} {c k : Nat} {p : Profile}

theorem Dev.decideReq_of_bad_body (h : ¬ x.reqBody) : d.decideReq x = d.refuseReq x 0x0120 :=
  if_pos (Classical.not_not.mp (mt Order.reqBody_iff.mpr h))

/-- A descriptor outside the context's memory fails test 3, unless the context's state fails test 2 before. -/
theorem Dev.decideReq_of_outside (h : x.reqBody)
    (hr : d.readCtx (d.reqAcc x) x.ctx (leAt x.body 0 8) 128 = .error c)
    (hc : c = 0x0320 ∨ c = 0x0321 ∨ c = 0x0327) :
    d.decideReq x = d.refuseReq x (if d.reqState x.ctx ≠ 0 then d.reqState x.ctx else 0x0128) := by
  simp only [Dev.decideReq, if_neg (Order.reqBody_iff.mp h), hr, if_pos hc]

theorem Dev.decideReq_of_fault (h : x.reqBody)
    (hr : d.readCtx (d.reqAcc x) x.ctx (leAt x.body 0 8) 128 = .error c)
    (hc : ¬ (c = 0x0320 ∨ c = 0x0321 ∨ c = 0x0327)) :
    d.decideReq x = d.noteFault (d.reqAcc x) x.ctx c (d.badAt x.ctx (leAt x.body 0 8) 128) := by
  simp only [Dev.decideReq, if_neg (Order.reqBody_iff.mp h), hr, if_neg hc]

variable (h : x.reqBody) (hr : d.readCtx (d.reqAcc x) x.ctx (leAt x.body 0 8) 128 = .ok (b, e))
include h hr

/-- Test 1. -/
theorem Dev.decideReq_of_malformed (h1 : (parseReq b).ok b = false) : d.decideReq x = e.refuseReq x 0x0120 := by
  simp [Dev.decideReq, if_neg (Order.reqBody_iff.mp h), hr, h1]

variable (h1 : (parseReq b).ok b = true)
include h1

/-- Test 2. -/
theorem Dev.decideReq_of_state (h2 : e.reqState x.ctx ≠ 0) : d.decideReq x = e.refuseReq x (e.reqState x.ctx) := by
  simp [Dev.decideReq, if_neg (Order.reqBody_iff.mp h), hr, h1, h2]

variable (h2 : e.reqState x.ctx = 0) (hk : e.districtOf x.ctx = some k)
include h2 hk

/-- Test 3. -/
theorem Dev.decideReq_of_ranges (h3 : e.reqRanges x.ctx (parseReq b) = false) :
    d.decideReq x = e.refuseReq x 0x0128 := by
  simp [Dev.decideReq, if_neg (Order.reqBody_iff.mp h), hr, h1, h2, hk, h3]

variable (h3 : e.reqRanges x.ctx (parseReq b) = true)
include h3

/-- Tests 4 to 7. -/
theorem Dev.decideReq_of_names (h4 : e.reqNames k x.ctx (parseReq b) = .error c) :
    d.decideReq x = e.refuseReq x c := by
  simp [Dev.decideReq, if_neg (Order.reqBody_iff.mp h), hr, h1, h2, hk, h3, h4]

/-- The device once Intake has read the prompt that it hashes. -/
def Dev.promptRead (e : Dev) (w : Accessor) (x : Order) (r : ReqDesc) : Dev :=
  if r.useHandle then e else e.reads w x.ctx r.promptAddr (4 * r.prompt)

/-- Tests 8 to 11 come once the prompt is read; what passes them is taken in. -/
theorem Dev.decideReq_of_named (h4 : e.reqNames k x.ctx (parseReq b) = .ok p) :
    d.decideReq x = (e.promptRead (d.reqAcc x) x (parseReq b)).unlessFault fun w =>
      if w.admitCode x.ctx (parseReq b) (w.admitOf k x.ctx p (parseReq b)) ≠ 0 then
        w.refuseReq x (w.admitCode x.ctx (parseReq b) (w.admitOf k x.ctx p (parseReq b)))
      else w.takeIn x x.ctx (parseReq b) (w.admitOf k x.ctx p (parseReq b)) := by
  simp [Dev.decideReq, Dev.promptRead, if_neg (Order.reqBody_iff.mp h), hr, h1, h2, hk, h3, h4]

end Tests

/-- A REQUEST that is handed to Intake is decided. -/
theorem unitRuns_request {s : State} {x : Order} (h : Handed (.request x.id) s x opRequest) :
    UnitRuns (.request x.id) s (settled (s.dev.decideReq x) x.ctx) := by
  have ⟨⟨hw, hd⟩, _⟩ := h
  have run := unitRuns_of_meaning (i := .request x.id) hd hw (execRequest x.id s) rfl rfl
  simp only [Dev.taken_of_handed h] at run
  exact run

/-! ### CANCEL -/

section Cancel
variable {d : Dev} {x : Order} {r : Req}

/-- The live request that a CANCEL names. -/
abbrev Dev.cancelTarget (d : Dev) (x : Order) : Option Req :=
  (d.reqsOfTenant x.ctx).find? fun r => r.desc.id == leAt x.body 0 8

/-- A rest of the body that is not zero is refused (DEDUCED, log entry 90). -/
theorem Dev.cancelReq_of_bad_body (hz : allZero (x.body.drop 8) = false) : d.cancelReq x = d.refuseReq x 0x0120 := by
  simp [Dev.cancelReq, hz]

variable (hz : allZero (x.body.drop 8) = true)
include hz

theorem Dev.cancelReq_of_not_live (hf : d.cancelTarget x = none) :
    d.cancelReq x = d.endOrder x.id 0 (d.hgSource x.ctx) true := by
  simp [Dev.cancelReq, hz, hf]

/-- The records that precede the CANCEL's mark go out as far as the ring has room; then the request ends. -/
theorem Dev.cancelReq_of_live (hf : d.cancelTarget x = some r) :
    let held := r.held.filter fun q => decide (q.mark < x.mark)
    let e := ((d.modReq r.num fun r => { r with held, finish := none }).flushReq r.num (held.length + 1)).endReq
      r.num 3 0 0x0210
    d.cancelReq x = e.doneOrder x.id (e.hgSource x.ctx) := by
  simp [Dev.cancelReq, hz, hf]

end Cancel

theorem unitRuns_cancel {s : State} {x : Order} (h : Handed (.cancel x.id) s x opCancel) :
    UnitRuns (.cancel x.id) s (settled (s.dev.cancelReq x) x.ctx) := by
  have ⟨⟨hw, hd⟩, _⟩ := h
  have run := unitRuns_of_meaning (i := .cancel x.id) hd hw (execCancel x.id s) rfl rfl
  simp only [Dev.taken_of_handed h] at run
  exact run

end Sys2Proof.Machine

namespace Sys2Proof.Proofs
open Sys2Proof.Machine Sys2Proof.Claims

/-- Settles O18: a REQUEST is answered at the first test that it fails, in Table 09-3's order; a CANCEL ends what it
names. -/
theorem requestsAreTestedInOrderAndCancelled : Obligations.RequestsAreTestedInOrderAndCancelled := by
  intro s x
  refine ⟨fun h => ?request, fun h => ?cancel⟩
  case request =>
    have run := unitRuns_request h
    refine ⟨fun hb => run.congr_settled (Dev.decideReq_of_bad_body hb),
      fun c hb hr hc => run.congr_settled (Dev.decideReq_of_outside hb hr hc),
      fun c hb hr h0 h1 h7 => run.congr_settled (Dev.decideReq_of_fault hb hr (by simp [h0, h1, h7])),
      fun b e hb hr => ⟨fun h1 => run.congr_settled (Dev.decideReq_of_malformed hb hr h1),
        fun h1 h2 => run.congr_settled (Dev.decideReq_of_state hb hr h1 h2),
        fun k h1 h2 hk => ⟨fun h3 => run.congr_settled (Dev.decideReq_of_ranges hb hr h1 h2 hk h3),
          fun c h3 h4 => run.congr_settled (Dev.decideReq_of_names hb hr h1 h2 hk h3 h4), fun p h3 h4 => ?_⟩⟩⟩
    have decided := run.congr_settled (Dev.decideReq_of_named hb hr h1 h2 hk h3 h4)
    exact ⟨fun hm => decided.congr_settled (Dev.unlessFault_of_faults hm),
      fun hm hc => decided.congr_settled ((Dev.unlessFault_of_none hm).trans (if_pos hc)),
      fun hm hc => decided.congr_settled ((Dev.unlessFault_of_none hm).trans (if_neg (not_not_intro hc)))⟩
  case cancel =>
    have run := unitRuns_cancel h
    exact ⟨fun hz => run.congr_settled (Dev.cancelReq_of_bad_body hz),
      fun hz hf => run.congr_settled (Dev.cancelReq_of_not_live hz hf),
      fun r hz hf => run.congr_settled (Dev.cancelReq_of_live hz hf)⟩

end Sys2Proof.Proofs
end

section
/-!
PROOFS. What Intake does on its own (09 R226, R227, R232, R236, 10 R243): the chunk and the decode step that it
dispatches, what a step's work commits, and how each of its commands runs.
-/
namespace Sys2Proof.Machine
open Sys2Proof.Claims

/-! ### Dispatch -/

section Dispatch
variable {d : Dev} {k : Nat} {q : Req × Nat × Chunk}

/-- R226: outside a rotation slot the next BEST_EFFORT chunk takes the district's fields. -/
theorem Dev.prefillNext_of_no_slot (hs : d.rtFields k = []) (hq : d.nextChunk k false = some q)
    (hf : d.serveFields k ≠ []) : d.prefillNext k = d.dispatchChunk k q (d.serveFields k) := by
  simp [Dev.prefillNext, hs, hq, hf]

/-- R226: a REALTIME chunk that waits takes the slot's fields. -/
theorem Dev.prefillNext_of_slot (hs : d.rtFields k ≠ []) (hq : d.nextChunk k true = some q) :
    d.prefillNext k = d.dispatchChunk k q (d.rtFields k) := by
  simp [Dev.prefillNext, hs, hq]

/-- R227: the decode tags of the requests that a step takes, each with its tree limit, grow by their rows. -/
def Dev.growTags (d : Dev) (l : List (Req × Nat)) : Dev :=
  l.foldl (fun d q => d.modReq q.1.num fun r => { r with
    decodeTag := if r.desc.realtime then r.decodeTag
      else tagAfter r.decodeTag (1 + q.2) (d.tenant r.tenant).weight }) d

/-- A decode step starts for a list of requests, with the programs of the profiles in it. -/
def Dev.startStep (d : Dev) (k : Nat) (fields : List Nat) (l : List (Req × Nat)) : Dev :=
  (d.growTags l).startDecode k fields l ((List.range 64).filter fun p => l.any fun q => q.1.desc.profile == p)

/-- The REALTIME requests that a step in a slot takes, and then the BEST_EFFORT ones in the rows that they leave. -/
def Dev.slotStep (d : Dev) (k : Nat) : List (Req × Nat) :=
  d.fillStep (d.reg .intDecodeRows k) (d.decodable k true) ++
    d.fillStep (d.reg .intDecodeRows k -
      sumNat ((d.fillStep (d.reg .intDecodeRows k) (d.decodable k true)).map fun q => 1 + q.2)) (d.decodable k false)

/-- One step of a district is in flight at a time (DEDUCED, log entry 90). -/
theorem Dev.decodeNext_of_in_flight (h : (d.serve k).step.isSome = true) : d.decodeNext k = d := if_pos (.inl h)

variable (h : (d.serve k).step = none) (hf : d.serveFields k ≠ [])
include h hf

theorem Dev.decodeNext_of_no_slot (hs : d.rtFields k = [])
    (hl : d.fillStep (d.reg .intDecodeRows k) (d.decodable k false) ≠ []) :
    d.decodeNext k =
      d.startStep k (d.serveFields k) (d.fillStep (d.reg .intDecodeRows k) (d.decodable k false)) := by
  simp [Dev.decodeNext, Dev.startStep, Dev.growTags, h, hf, hs, hl, sumNat]

theorem Dev.decodeNext_of_slot (hs : d.rtFields k ≠ [])
    (hl : d.fillStep (d.reg .intDecodeRows k) (d.decodable k true) ≠ []) :
    d.decodeNext k = d.rtDispatch.startStep k (d.rtFields k) (d.slotStep k) := by
  simp [Dev.decodeNext, Dev.startStep, Dev.slotStep, Dev.growTags, h, hf, hs, hl]

end Dispatch

/-! ### The commit of a step -/

section Commit
variable {d : Dev} {k : Nat} {w : StepWork} {st : DecStep}

/-- The first tokens that a step's work commits (09 R220). -/
def Dev.firstTokens (d : Dev) (k : Nat) (w : StepWork) : Dev := w.reqs.foldl (fun d r => d.firstToken k r) d

/-- The commits of a decode step's requests by the work that is given for them (10 R243). -/
def Dev.commitStep (d : Dev) (k : Nat) (w : StepWork) (st : DecStep) : Dev :=
  st.reqs.foldl (fun d q => match w.reqs.find? fun r => r.req == q.1 with
    | none => d
    | some r => d.commitReq k r q.2) d

variable (hs : (d.serve k).step = some st)
include hs

theorem Dev.stepCommit_of_not_ready (h : (d.firstTokens k w).stepReady st w = false) :
    d.stepCommit k w = d.firstTokens k w := by
  simp only [Dev.stepCommit, hs]
  exact if_pos (congrArg (!·) h)

theorem Dev.stepCommit_of_ready (h : (d.firstTokens k w).stepReady st w = true) :
    d.stepCommit k w = ((d.firstTokens k w).modServe k fun x => { x with
      step := none, specSteps := sat64 (x.specSteps + 1) }).commitStep k w st := by
  simp only [Dev.stepCommit, hs]
  exact if_neg (ne_true_of_eq_false (congrArg (!·) h))

end Commit

/-! ### The commands -/

section Commands
variable {s : State} {k at_ : Nat} (hd : s.dev.dry = false)
include hd

section District
variable (hk : k < 16)
include hk

/-- Intake dispatches nothing before the device is READY. -/
theorem unitRuns_prefillChunkDispatch :
    UnitRuns (.prefillChunkDispatch k) s
      (if s.dev.ready then settled (s.dev.prefillNext k) (1024 + k) else s.dev) :=
  unitRuns_of_meaning (i := .prefillChunkDispatch k)
    (f := fun d => if d.ready then settled (d.prefillNext k) (1024 + k) else d) hd (decide_eq_true hk)
    (execPrefillChunkDispatch k s) rfl rfl

theorem unitRuns_decodeStep :
    UnitRuns (.decodeStep k) s (if s.dev.ready then settled (s.dev.decodeNext k) (1024 + k) else s.dev) :=
  unitRuns_of_meaning (i := .decodeStep k)
    (f := fun d => if d.ready then settled (d.decodeNext k) (1024 + k) else d) hd (decide_eq_true hk)
    (execDecodeStep k s) rfl rfl

/-- R236: a decision of an ACTIVE SERVE district comes 10 ms after its last one. -/
theorem runs_lendingDecision {n : DistEnt} (hn : (s.dev.advance at_).ent? k = some n) (hrole : n.role = 2)
    (ha : ((s.dev.advance at_).dist k).state = .active) :
    Runs (.lendingDecision k at_) s
      (if ((s.dev.advance at_).serve k).lastLend + 10 ^ 7 ≤ (s.dev.advance at_).eff then
        ((s.dev.advance at_).lend k n).pump else s.dev.advance at_) := by
  have run := runs_of_meaning (i := .lendingDecision k at_) hd (decide_eq_true hk) (execLendingDecision k at_ s) rfl rfl
  simp only [hn, hrole, ha, true_and] at run
  exact run

end District

theorem unitRuns_stepCommit {w : StepWork} (hw : (Instr.stepCommit k w).wf = true) :
    UnitRuns (.stepCommit k w) s (s.dev.stepCommit k w).pump :=
  unitRuns_of_meaning (f := fun d => (d.stepCommit k w).pump) hd hw (execStepCommit k w s) rfl rfl

section Stalled
variable {r : Req} (hr : (s.dev.advance at_).req? r.num = some r)
include hr

theorem unitRuns_outfallRetry (h : r.stallSince.isSome = true) :
    UnitRuns (.outfallRetry r.num at_) s ((s.dev.advance at_).flush r.num).pump := by
  have run := unitRuns_of_meaning (i := .outfallRetry r.num at_) hd rfl (execOutfallRetry r.num at_ s) rfl rfl
  simp only [hr, h, if_true] at run
  exact run

/-- R232: a stall ends its request once it has lasted longer than the limit. -/
theorem unitRuns_intStallLimit {t : Nat} (h : r.stallSince = some t) :
    UnitRuns (.intStallLimit r.num at_) s
      (if t + 10 ^ 6 * (s.dev.advance at_).reg .intStallLimit r.district < (s.dev.advance at_).eff then
        ((s.dev.advance at_).endReq r.num 3 0 0x0212).pump else s.dev.advance at_) := by
  have run := unitRuns_of_meaning (i := .intStallLimit r.num at_) hd rfl (execIntStallLimit r.num at_ s) rfl rfl
  simp only [hr, h] at run
  exact run

end Stalled

end Commands

end Sys2Proof.Machine

namespace Sys2Proof.Proofs
open Sys2Proof.Machine Sys2Proof.Claims

/-- Settles O19: each dispatch is a branch of prefillNext or decodeNext, each commit one of stepCommit; a stall and a
lending decision have their instants. -/
theorem intakeDispatchesStallsAndLends : Obligations.IntakeDispatchesStallsAndLends := by
  intro s k at_ hk hd
  have chunk := unitRuns_prefillChunkDispatch hd hk
  have step := unitRuns_decodeStep hd hk
  refine ⟨fun hr => ?dispatch, fun hr => ?notReady, fun w st hw hs => ?commit, fun r hreq => ?stalled,
    fun n hn hrole ha => ?lending⟩
  case dispatch =>
    replace chunk := chunk.congr (if_pos hr)
    replace step := step.congr (if_pos hr)
    exact ⟨fun q hs hq hf => chunk.congr_settled (Dev.prefillNext_of_no_slot hs hq hf),
      fun q hs hq => chunk.congr_settled (Dev.prefillNext_of_slot hs hq),
      fun h => step.congr_settled (Dev.decodeNext_of_in_flight h),
      fun h hf hs hl => step.congr_settled (Dev.decodeNext_of_no_slot h hf hs hl),
      fun h hf hs hl => step.congr_settled (Dev.decodeNext_of_slot h hf hs hl)⟩
  case notReady =>
    have not_ready := ne_true_of_eq_false hr
    exact ⟨chunk.congr (if_neg not_ready), step.congr (if_neg not_ready)⟩
  case commit =>
    have commit := unitRuns_stepCommit hd hw
    exact ⟨fun h => commit.congr (congrArg Dev.pump (Dev.stepCommit_of_not_ready hs h)),
      fun h => commit.congr (congrArg Dev.pump (Dev.stepCommit_of_ready hs h))⟩
  case stalled =>
    exact ⟨unitRuns_outfallRetry hd hreq, fun t ht h => (unitRuns_intStallLimit hd hreq ht).congr (if_pos h),
      fun t ht h => (unitRuns_intStallLimit hd hreq ht).congr (if_neg (Nat.not_lt.mpr h))⟩
  case lending =>
    have lending := runs_lendingDecision hd hk hn hrole ha
    exact ⟨fun h => lending.congr (if_pos h), fun h => lending.congr (if_neg (Nat.not_le.mpr h))⟩

end Sys2Proof.Proofs
end

section
/-!
PROOFS. INT_CMD, the share group that a tenant consents to, and the capture ring's registers (09 R219, R229, R230, R238;
10 R254).
-/
namespace Sys2Proof.Machine
open Sys2Proof.Claims

section Command
variable {d e : Dev} {fn k : Nat} {b : Bytes} {c : Nat}

/-- The end of an INT_CMD command: its code stands, is counted, and the function that wrote it is told. -/
def Dev.intEnd (d : Dev) (fn k code : Nat) : Dev :=
  ((d.modServe k fun x => { x with cmdCode := code }).countCode k code).mgmtDone fn .intCmdDone k

theorem Dev.intCmd_load (hs : d.isServe k = true) :
    d.intCmd fn k 1 = (d.loadProfiles k).2.intEnd fn k (d.loadProfiles k).1 := by
  simp [Dev.intCmd, Dev.intEnd, hs]

theorem Dev.intCmd_flush (hs : d.isServe k = true) : d.intCmd fn k 2 = (d.flushPrefixes k).intEnd fn k 0 := by
  simp [Dev.intCmd, Dev.intEnd, hs]

/-! ### LOAD_PROFILES -/

theorem Dev.loadProfiles_of_live (h : d.reqsOf k ≠ []) : d.loadProfiles k = (0x012C, d) := by
  simp [Dev.loadProfiles, h]

/-- The read of a district's profile table. -/
abbrev Dev.readProfiles (d : Dev) (k : Nat) : Except Nat (Bytes × Dev) :=
  d.readCtx (d.hgAcc (1024 + k)) (1024 + k) (64 * d.reg .intProfileAddr k) (64 * d.reg .intProfileCount k)

/-- The rows of a profile table as it was read. -/
def profileRows (n : Nat) (b : Bytes) : List Bytes := (List.range n).map fun j => (b.drop (64 * j)).take 64

/-- A row gives a profile of 09 Table 09-2. -/
abbrev rowOk (stride : Nat) (r : Bytes) : Bool := (parseProfile r).ok r stride

variable (hl : d.reqsOf k = [])
include hl

theorem Dev.loadProfiles_of_unread (hr : d.readProfiles k = .error c) : d.loadProfiles k = (0x012B, d) := by
  simp [Dev.loadProfiles, hl, hr]

variable (hr : d.readProfiles k = .ok (b, e))
include hr

theorem Dev.loadProfiles_of_read :
    d.loadProfiles k =
      if (profileRows (d.reg .intProfileCount k) b).all (rowOk (e.reg .intParcelStride k)) = true then
        (0, e.modServe k fun x => { x with
          profiles := (profileRows (d.reg .intProfileCount k) b).map parseProfile })
      else (0x012B, e) := by
  simp [Dev.loadProfiles, profileRows, rowOk, hl, hr]

theorem Dev.loadProfiles_of_good
    (h : ∀ r ∈ profileRows (d.reg .intProfileCount k) b, rowOk (e.reg .intParcelStride k) r = true) :
    d.loadProfiles k = (0, e.modServe k fun x => { x with
      profiles := (profileRows (d.reg .intProfileCount k) b).map parseProfile }) :=
  (Dev.loadProfiles_of_read hl hr).trans (if_pos (List.all_eq_true.mpr h))

theorem Dev.loadProfiles_of_bad_row
    (h : ∃ r ∈ profileRows (d.reg .intProfileCount k) b, rowOk (e.reg .intParcelStride k) r = false) :
    d.loadProfiles k = (0x012B, e) :=
  (Dev.loadProfiles_of_read hl hr).trans (if_neg (by simpa using h))

end Command

/-! ### The capture ring's registers -/

section Capture
variable {d : Dev} {k v : Nat} {entries : Bool} (hs : d.isServe k = true)
include hs

theorem Dev.capWrite_of_capturing (h : ((d.reqsOf k).any fun r => r.desc.capture) = true) :
    d.capWrite k entries v =
      (d.modServe k fun x => { x with capRefused := sat32 (x.capRefused + 1) }).countOft k 8 := by
  simp only [Dev.capWrite, hs, h, Bool.not_true, Bool.false_eq_true, if_false, if_true]

/-- R254: a write that is taken empties the ring. -/
theorem Dev.capWrite_of_idle (h : ((d.reqsOf k).any fun r => r.desc.capture) = false) :
    d.capWrite k entries v =
      (((if entries then d.putReg .oftCapEntries k (min 65536 v) else d.putReg .oftCapAddr k v).putReg
        .oftCapTail k 0).modServe k fun x => { x with capHead := 0 }) := by
  simp only [Dev.capWrite, hs, h, Bool.not_true, Bool.false_eq_true, if_false]

end Capture

/-! ### The commands -/

section Commands
variable {s : State} {fn k : Nat}

theorem runs_loadProfiles (h : HostAble fn (.loadProfiles fn k) s) (hfn : isPf fn = true)
    (hs : s.dev.isServe k = true) :
    Runs (.loadProfiles fn k) s ((s.dev.loadProfiles k).2.intEnd fn k (s.dev.loadProfiles k).1) := by
  obtain ⟨⟨hw, hd⟩, hf⟩ := h
  exact (runs_of_hosted (f := fun d => if isPf fn then d.intCmd fn k 1 else d) hd hf hw rfl).congr
    ((if_pos hfn).trans (Dev.intCmd_load hs))

theorem runs_flushPrefixes (h : HostAble fn (.flushPrefixes fn k) s) (hfn : isPf fn = true)
    (hs : s.dev.isServe k = true) : Runs (.flushPrefixes fn k) s ((s.dev.flushPrefixes k).intEnd fn k 0) := by
  obtain ⟨⟨hw, hd⟩, hf⟩ := h
  exact (runs_of_hosted (f := fun d => if isPf fn then d.intCmd fn k 2 else d) hd hf hw rfl).congr
    ((if_pos hfn).trans (Dev.intCmd_flush hs))

end Commands

theorem fld_low_byte (n : Nat) : fld n 0 8 = n % 256 := by simp [fld]

end Sys2Proof.Machine

namespace Sys2Proof.Proofs
open Sys2Proof.Machine Sys2Proof.Claims

/-- Settles O20: INT_CMD's two commands end in the same way with the code that loadProfiles or the flush gives; the
other two writes are one change of the device each. -/
theorem servingRegistersLoadFlushShareAndCapture : Obligations.ServingRegistersLoadFlushShareAndCapture := by
  intro s fn k t v
  refine ⟨fun h hfn hs => ?load, fun h hfn hs => runs_flushPrefixes h hfn hs, fun h => ?share,
    fun entries h hs => ?capture⟩
  case load =>
    have load {p : Nat × Dev} (hp : s.dev.loadProfiles k = p) :
        Runs (.loadProfiles fn k) s (p.2.intEnd fn k p.1) := hp ▸ runs_loadProfiles h hfn hs
    exact ⟨fun hl => load (Dev.loadProfiles_of_live hl), fun c hl hr => load (Dev.loadProfiles_of_unread hl hr),
      fun b e hl hr => ⟨fun hrows => load (Dev.loadProfiles_of_good hl hr hrows),
        fun hrow => load (Dev.loadProfiles_of_bad_row hl hr hrow)⟩⟩
  case share =>
    obtain ⟨⟨hw, hd⟩, hf⟩ := h
    exact (runs_of_hosted (f := fun d => (d.putReg .intVfShare t (fld v.toNat 0 8)).regroup t) hd hf hw rfl).congr
      (by rw [fld_low_byte])
  case capture =>
    obtain ⟨hw, hd⟩ := h
    have write := runs_of_meaning (i := .captureRingWrite k entries v) hd hw
      (execCaptureRingWrite k entries v s) rfl rfl
    refine ⟨fun hc => write.congr (Dev.capWrite_of_capturing hs hc), fun hc => ?_⟩
    cases entries <;> exact write.congr (Dev.capWrite_of_idle hs hc)

end Sys2Proof.Proofs
end

section
/-!
PROOFS. Offtakes (10 R249, R250): what the tests of an install answer and what its copy takes, the switch at the end of
the copy, and a removal.
-/
namespace Sys2Proof.Claims
open Sys2Proof.Machine

variable {i : Instr} {s : State} {d e : Dev} {c : Nat}

theorem Runs.congr_resettle (h : Runs i s (d.resettle c)) (he : d = e) : Runs i s (e.resettle c) := he ▸ h

theorem UnitRuns.congr_resettle (h : UnitRuns i s (d.resettle c)) (he : d = e) : UnitRuns i s (e.resettle c) := he ▸ h

end Sys2Proof.Claims

namespace Sys2Proof.Machine
open Sys2Proof.Claims

/-! ### OFFTAKE_INSTALL -/

/-- The body of an install: an aligned address, a length, and zeros (DEDUCED, log entry 91). -/
def Order.installBody (x : Order) : Prop := leAt x.body 0 8 % 64 = 0 ∧ allZero (x.body.drop 12) = true

theorem Order.installBody_iff {x : Order} :
    x.installBody ↔ ¬ (leAt x.body 0 8 % 64 ≠ 0 ∨ allZero (x.body.drop 12) = false) := by
  simp [Order.installBody]

/-- R250: the version that a package installs, charged and placed, before its copy is complete. -/
def packageVer (t k : Nat) (b : Bytes) (place : List (Nat × Nat)) : OftVer :=
  { tenant := t, variant := leAt b 6 2, version := leAt b 8 2, base := leAt b 16 16, district := k,
    charge := oftBytes b, place, current := false, pins := 0 }

/-- R250: the copy of a package without its signature into the frames of its version begins; its order is running. -/
def Dev.beginCopy (e : Dev) (w : Accessor) (o : OrderId) (v : OftVer) (b : Bytes) : Dev :=
  let d := (e.trafficAll w v.place true).writePieces v.place (b.take (b.length - sigBytes))
  (d.setOftInsts (d.oftInsts ++ [{ order := o, ver := v }])).runOrder o

section Install
variable {d e : Dev} {x : Order} {b : Bytes} {c k : Nat} {place : List (Nat × Nat)}

theorem Dev.install_of_bad_body (h : ¬ x.installBody) : d.install x = d.refuseOft x 0x0143 :=
  if_pos (Classical.not_not.mp (mt Order.installBody_iff.mpr h))

variable (h : x.installBody)
include h

/-- A package of no bytes is a NOOP (DEDUCED, log entry 91). -/
theorem Dev.install_of_empty (hn : leAt x.body 8 4 = 0) :
    d.install x = d.endOrder x.id 0 (d.hgSource x.ctx) true :=
  (if_neg (Order.installBody_iff.mp h)).trans (if_pos hn)

variable (hn : leAt x.body 8 4 ≠ 0)
include hn

/-- R249: a package outside the context's memory fails check 1. -/
theorem Dev.install_of_outside (hr : d.readCtx (d.reqAcc x) x.ctx (leAt x.body 0 8) (leAt x.body 8 4) = .error c)
    (hc : c = 0x0320 ∨ c = 0x0321 ∨ c = 0x0327) : d.install x = d.refuseOft x 0x0143 := by
  simp only [Dev.install, if_neg (Order.installBody_iff.mp h), if_neg hn, hr, if_pos hc]

theorem Dev.install_of_fault (hr : d.readCtx (d.reqAcc x) x.ctx (leAt x.body 0 8) (leAt x.body 8 4) = .error c)
    (hc : ¬ (c = 0x0320 ∨ c = 0x0321 ∨ c = 0x0327)) :
    d.install x =
      d.noteFault (d.reqAcc x) x.ctx c (d.badAt x.ctx (leAt x.body 0 8) (leAt x.body 8 4)) := by
  simp only [Dev.install, if_neg (Order.installBody_iff.mp h), if_neg hn, hr, if_neg hc]

variable (hk : d.districtOf x.ctx = some k)
  (hr : d.readCtx (d.reqAcc x) x.ctx (leAt x.body 0 8) (leAt x.body 8 4) = .ok (b, e))
include hk hr

/-- R249: the first check of Table 10-6 that a package fails refuses it. -/
theorem Dev.install_of_refused (hc : e.installCode k x.ctx b ≠ 0) :
    d.install x = e.refuseOft x (e.installCode k x.ctx b) := by
  simp only [Dev.install, if_neg (Order.installBody_iff.mp h), if_neg hn, hr, hk, if_pos hc]

variable (hc : e.installCode k x.ctx b = 0)
include hc

/-- The district's pool has no frames left for the copy (DESIGN CHOICE, log entry 56). -/
theorem Dev.install_of_no_room (hf : (e.frames k 65536 (oftBytes b)).2 ≠ 0) :
    d.install x = e.refuseOft x 0x0144 := by
  simp only [Dev.install, if_neg (Order.installBody_iff.mp h), if_neg hn, hr, hk, if_neg (not_not_intro hc), if_pos hf]

theorem Dev.install_of_placed (hf : e.frames k 65536 (oftBytes b) = (place, 0)) :
    d.install x = e.beginCopy (d.reqAcc x) x.id (packageVer x.ctx k b place) b := by
  simp only [Dev.install, if_neg (Order.installBody_iff.mp h), if_neg hn, hr, hk, if_neg (not_not_intro hc), hf]
  rfl

end Install

/-- An install that is handed to its handler is decided. -/
theorem unitRuns_offtakeInstall {s : State} {x : Order} (h : Handed (.offtakeInstall x.id) s x opInstall) :
    UnitRuns (.offtakeInstall x.id) s ((s.dev.install x).resettle x.ctx) := by
  have ⟨⟨hw, hd⟩, _⟩ := h
  have run := unitRuns_of_meaning (i := .offtakeInstall x.id) hd hw (execOfftakeInstall x.id s) rfl rfl
  simp only [Dev.taken_of_handed h] at run
  exact run

/-! ### The switch at the end of a copy -/

/-- R250: a version becomes current and the one before it retires; the switch is marked and its order is done. -/
def Dev.makeCurrent (d : Dev) (o : OrderId) (v : OftVer) : Dev :=
  let e := (d.setOftInsts (d.oftInsts.filter fun z => z.order != o)).oftEnd v.tenant v.variant
  let w := (e.setOfts (e.ofts ++ [{ v with current := true }])).oftMark v.tenant v.variant
  w.doneOrder o (w.hgSource v.tenant)

section Switch
variable {d : Dev} {x : Order} {y : OftInst}

theorem Dev.oftSwitch_of_copying (hy : (d.oftInsts.find? fun z => z.order == x.id) = some y) :
    d.oftSwitch x.id = d.makeCurrent x.id y.ver := by
  simp only [Dev.oftSwitch, hy]
  rfl

theorem Dev.runningOrder_of_running {op : Nat} (ho : d.order? x.id = some x) (hop : x.opcode = op)
    (hp : x.phase = .running) : d.runningOrder x.id op = some x := by
  simp [Dev.runningOrder, ho, hop, hp]

/-- The end of a running install's copy is its switch. -/
theorem runs_offtakeSwitch {s : State} (h : Able (.offtakeSwitch x.id) s) (ho : s.dev.order? x.id = some x)
    (hop : x.opcode = opInstall) (hp : x.phase = .running) :
    Runs (.offtakeSwitch x.id) s ((s.dev.oftSwitch x.id).resettle x.ctx) := by
  obtain ⟨hw, hd⟩ := h
  have run := runs_of_meaning (i := .offtakeSwitch x.id) hd hw (execOfftakeSwitch x.id s) rfl rfl
  simp only [Dev.runningOrder_of_running ho hop hp] at run
  exact run

end Switch

/-! ### OFFTAKE_REMOVE -/

section Remove
variable {d : Dev} {x : Order} (hz : allZero (x.body.drop 2) = true)
  (hi : (d.oftInsts.any fun z => z.ver.tenant == x.ctx && z.ver.variant == leAt x.body 0 2) = false)
include hz hi

/-- The removal of a variant without a current version is a NOOP. -/
theorem Dev.oftRemove_of_no_current (hv : d.oftCurrent x.ctx (leAt x.body 0 2) = none) :
    d.oftRemove x = d.endOrder x.id 0 (d.hgSource x.ctx) true := by
  simp [Dev.oftRemove, hz, hi, hv]

theorem Dev.oftRemove_of_current {v : OftVer} (hv : d.oftCurrent x.ctx (leAt x.body 0 2) = some v) :
    let w := (d.oftEnd x.ctx (leAt x.body 0 2)).oftMark x.ctx (leAt x.body 0 2)
    d.oftRemove x = w.doneOrder x.id (w.hgSource x.ctx) := by
  simp [Dev.oftRemove, hz, hi, hv]

end Remove

theorem runs_offtakeRemove {s : State} {x : Order} (h : Handed (.offtakeRemove x.id) s x opRemove) :
    Runs (.offtakeRemove x.id) s ((s.dev.oftRemove x).resettle x.ctx) := by
  have ⟨⟨hw, hd⟩, _⟩ := h
  have run := runs_of_meaning (i := .offtakeRemove x.id) hd hw (execOfftakeRemove x.id s) rfl rfl
  simp only [Dev.taken_of_handed h] at run
  exact run

end Sys2Proof.Machine

namespace Sys2Proof.Proofs
open Sys2Proof.Machine Sys2Proof.Claims

/-- Settles O21: an install is answered at the first test that it fails, or its copy begins; the copy's end switches to
its version; a removal ends what is current. -/
theorem offtakesInstallSwitchAndRemove : Obligations.OfftakesInstallSwitchAndRemove := by
  intro s x k
  refine fun hk => ⟨fun h => ?install, fun y h ho hop hp hy => ?switch, fun h hz hi => ?remove⟩
  case install =>
    have run := unitRuns_offtakeInstall h
    exact ⟨fun hb => run.congr_resettle (Dev.install_of_bad_body fun hbody => Order.installBody_iff.mp hbody hb),
      fun ha hz hn => run.congr_resettle (Dev.install_of_empty ⟨ha, hz⟩ hn),
      fun c ha hz hn hr => ⟨fun hc => run.congr_resettle (Dev.install_of_outside ⟨ha, hz⟩ hn hr hc),
        fun h0 h1 h7 => run.congr_resettle (Dev.install_of_fault ⟨ha, hz⟩ hn hr (by simp [h0, h1, h7]))⟩,
      fun b e ha hz hn hr => ⟨fun hc => run.congr_resettle (Dev.install_of_refused ⟨ha, hz⟩ hn hk hr hc),
        fun hc hf => run.congr_resettle (Dev.install_of_no_room ⟨ha, hz⟩ hn hk hr hc hf),
        fun place hc hf => run.congr_resettle (Dev.install_of_placed ⟨ha, hz⟩ hn hk hr hc hf)⟩⟩
  case switch => exact (runs_offtakeSwitch h ho hop hp).congr_resettle (Dev.oftSwitch_of_copying hy)
  case remove =>
    have run := runs_offtakeRemove h
    exact ⟨fun hv => run.congr_resettle (Dev.oftRemove_of_no_current hz hi hv),
      fun v hv => run.congr_resettle (Dev.oftRemove_of_current hz hi hv)⟩

end Sys2Proof.Proofs
end

section
/-!
PROOFS. Memory by device physical address (11 R255, R261): what a byte reads after a write or a scrub, and the one form
of the memory.
-/
namespace Sys2Proof.Machine

section Run
variable {α : Type} [DecidableEq α] {d : α} {l : List α}

/-- A key that a run of elements does not reach reads as before. -/
theorem Tbl.get_setRun_of_outside :
    ∀ {t : Tbl α} {i j : Nat}, j < i ∨ i + l.length ≤ j → Tbl.get d (Tbl.setRun d t i l) j = Tbl.get d t j := by
  induction l with
  | nil => intros; rfl
  | cons x r ih =>
    intro t i j h
    rw [List.length_cons] at h
    have hj : j ≠ i := by omega
    rw [Tbl.setRun, ih (by omega), Tbl.get_set_ne hj]

/-- The keys of a run read its elements in their order. -/
theorem Tbl.get_setRun_of_inside :
    ∀ {t : Tbl α} {i j : Nat}, i ≤ j → j < i + l.length → some (Tbl.get d (Tbl.setRun d t i l) j) = l[j - i]? := by
  induction l with
  | nil => intro t i j hi hj; exact absurd hj (Nat.not_lt.mpr hi)
  | cons x r ih =>
    intro t i j hi hj
    rw [List.length_cons] at hj
    obtain rfl | hlt := Nat.eq_or_lt_of_le hi
    · rw [Tbl.setRun, Tbl.get_setRun_of_outside (.inl (Nat.lt_succ_self _)), Tbl.get_set_same, Nat.sub_self]
      rfl
    · have hs : j - i = j - (i + 1) + 1 := by omega
      rw [Tbl.setRun, ih hlt (by omega), hs, List.getElem?_cons_succ]

end Run

section Bytes
variable {d : Dev} {a b n : Nat} {bs : Bytes}

theorem Dev.byte_write_of_inside (ha : a ≤ b) (hb : b < a + bs.length) :
    some ((d.write a bs).byte b) = bs[b - a]? := Tbl.get_setRun_of_inside ha hb

theorem Dev.byte_write_of_outside (h : b < a ∨ a + bs.length ≤ b) : (d.write a bs).byte b = d.byte b :=
  Tbl.get_setRun_of_outside h

theorem Dev.byte_scrub : (d.scrub a n).byte b = if a ≤ b ∧ b < a + n then 0 else d.byte b := by
  simp [Dev.scrub, Dev.byte, Dev.mend, Tbl.get_dropIf]

/-- What is written is read back. -/
theorem Dev.read_write_same : (d.write a bs).read a bs.length = bs := by
  refine List.ext_getElem? fun k => ?_
  by_cases hk : k < bs.length
  · have hbyte : some ((d.write a bs).byte (a + k)) = bs[a + k - a]? :=
      Dev.byte_write_of_inside (Nat.le_add_right a k) (Nat.add_lt_add_left hk a)
    simpa [Dev.read, hk] using hbyte
  · simp [Dev.read, hk]

theorem Dev.wf_mem_write (h : Memory.wf d.mem = true) : Memory.wf (d.write a bs).mem = true := Tbl.wf_setRun h

theorem Dev.wf_mem_scrub (h : Memory.wf d.mem = true) : Memory.wf (d.scrub a n).mem = true := Tbl.wf_dropIf h

end Bytes

end Sys2Proof.Machine

namespace Sys2Proof.Proofs
open Sys2Proof.Machine Sys2Proof.Claims

/-- Settles O55: a write is a run of elements in the memory's table, and a scrub drops the keys of its range. -/
theorem memoryReadsBackWhatWasWritten : Obligations.MemoryReadsBackWhatWasWritten := by
  refine ⟨rfl, fun d a n bs => ⟨fun h => ⟨Dev.wf_mem_write h, Dev.wf_mem_scrub h⟩,
    fun b => ⟨Dev.byte_write_of_inside, Dev.byte_write_of_outside⟩, fun b => ⟨fun ha hb => ?_, fun h => ?_⟩,
    Dev.read_write_same⟩⟩
  · rw [Dev.byte_scrub, if_pos ⟨ha, hb⟩]
  · rw [Dev.byte_scrub, if_neg (by omega)]

end Sys2Proof.Proofs
end

section
/-!
PROOFS. The interleave of a district (11 R258): an address is a place in the row of its set's home ranges, and the place
gives the member, its chunk and the byte in the chunk one to one.
-/
namespace Sys2Proof.Machine

theorem posOf_eq_idxOf (x : Nat) (l : List Nat) : posOf x l = l.idxOf x := by
  induction l with
  | nil => rfl
  | cons y r ih =>
    rw [posOf, List.idxOf_cons]
    by_cases h : x = y
    · rw [if_pos h, h, beq_self_eq_true, cond_true]
    · rw [if_neg h, ih, beq_false_of_ne (Ne.symm h), cond_false]

theorem posOf_lt {x : Nat} {l : List Nat} (h : x ∈ l) : posOf x l < l.length :=
  posOf_eq_idxOf x l ▸ List.idxOf_lt_length_of_mem h

theorem nth_of_lt {l : List Nat} {i : Nat} (h : i < l.length) : nth 0 l i = l[i] :=
  (List.getElem_eq_getD 0).symm

theorem nth_posOf {x : Nat} {l : List Nat} (h : x ∈ l) : nth 0 l (posOf x l) = x := by
  rw [nth_of_lt (posOf_lt h)]
  simp only [posOf_eq_idxOf, List.getElem_idxOf]

theorem posOf_inj {x y : Nat} {l : List Nat} (hx : x ∈ l) (hy : y ∈ l) (h : posOf x l = posOf y l) : x = y := by
  rw [← nth_posOf hx, h, nth_posOf hy]

/-- The place of an address in the row of its set's home ranges. -/
def setOffset (set : List Nat) (a : Nat) : Nat := posOf (a / homeBytes) set * homeBytes + a % homeBytes

section Place
variable {set : List Nat} {a b : Nat}

theorem locate_device : (locate a set).1 = nth 0 set (setOffset set a / chunkBytes % set.length) := rfl

theorem locate_offset : (locate a set).2.1 =
    setOffset set a / chunkBytes / set.length * chunkBytes + setOffset set a % chunkBytes := rfl

/-- The half and the offset in it are those of the offset on the device: a chunk holds whole pairs of units. -/
theorem locate_half : (locate a set).2.2.1 = (locate a set).2.1 / 256 % 2 := by
  have hhalf : (locate a set).2.2.1 = setOffset set a / 256 % 2 := rfl
  rw [hhalf, locate_offset]
  simp only [chunkBytes]
  omega

theorem locate_halfOffset : (locate a set).2.2.2 = (locate a set).2.1 / 512 * 256 + (locate a set).2.1 % 256 := rfl

/-- Addresses of one chunk lie on one member: a home range holds whole chunks. -/
theorem setOffset_chunk (h : a / chunkBytes = b / chunkBytes) :
    setOffset set a / chunkBytes = setOffset set b / chunkBytes := by
  have hhome : a / homeBytes = b / homeBytes := by simp only [homeBytes, chunkBytes] at *; omega
  simp only [setOffset, hhome]
  simp only [homeBytes, chunkBytes] at *
  omega

theorem setOffset_lt (ha : a / homeBytes ∈ set) : setOffset set a < set.length * homeBytes :=
  calc setOffset set a < (posOf (a / homeBytes) set + 1) * homeBytes := by
        rw [Nat.succ_mul]
        exact Nat.add_lt_add_left (Nat.mod_lt a (by decide)) _
    _ ≤ set.length * homeBytes := Nat.mul_le_mul_right _ (posOf_lt ha)

theorem setOffset_inj (ha : a / homeBytes ∈ set) (hb : b / homeBytes ∈ set)
    (h : setOffset set a = setOffset set b) : a = b := by
  have hpos : posOf (a / homeBytes) set = posOf (b / homeBytes) set := by
    simp only [setOffset, homeBytes] at h ⊢
    omega
  have hhome := posOf_inj ha hb hpos
  have hmod : a % homeBytes = b % homeBytes := by simpa [setOffset, hpos] using h
  rw [← Nat.div_add_mod a homeBytes, hhome, hmod, Nat.div_add_mod]

section Member
variable (ha : a / homeBytes ∈ set)
include ha

theorem chunk_mod_lt : setOffset set a / chunkBytes % set.length < set.length :=
  Nat.mod_lt _ (List.length_pos_of_mem ha)

theorem locate_device_mem : (locate a set).1 ∈ set := by
  rw [locate_device, nth_of_lt (chunk_mod_lt ha)]
  exact List.getElem_mem _

/-- An offset on a member lies in its home range. -/
theorem locate_offset_lt : (locate a set).2.1 < homeBytes := by
  have hn : setOffset set a / chunkBytes / set.length < homeBytes / chunkBytes := by
    rw [Nat.div_div_eq_div_mul]
    refine Nat.div_lt_of_lt_mul (Nat.lt_of_lt_of_eq (setOffset_lt ha) ?_)
    rw [Nat.mul_comm chunkBytes, Nat.mul_assoc]
    rfl
  rw [locate_offset]
  simp only [homeBytes, chunkBytes] at *
  omega

/-- The member and the offset on it give the place in the set's row, and so the address. -/
theorem locate_inj (hset : set.Nodup) (hb : b / homeBytes ∈ set) (hdev : (locate a set).1 = (locate b set).1)
    (hoff : (locate a set).2.1 = (locate b set).2.1) : a = b := by
  rw [locate_device, locate_device, nth_of_lt (chunk_mod_lt ha), nth_of_lt (chunk_mod_lt hb),
    List.getElem_inj hset] at hdev
  rw [locate_offset, locate_offset] at hoff
  have hrow : setOffset set a / chunkBytes / set.length = setOffset set b / chunkBytes / set.length := by
    simp only [chunkBytes] at hoff ⊢
    omega
  have hbyte : setOffset set a % chunkBytes = setOffset set b % chunkBytes := by simpa [hrow] using hoff
  have hchunk : setOffset set a / chunkBytes = setOffset set b / chunkBytes := by
    rw [← Nat.div_add_mod (setOffset set a / chunkBytes) set.length, hrow, hdev, Nat.div_add_mod]
  refine setOffset_inj ha hb ?_
  rw [← Nat.div_add_mod (setOffset set a) chunkBytes, hchunk, hbyte, Nat.div_add_mod]

end Member

end Place

end Sys2Proof.Machine

namespace Sys2Proof.Proofs
open Sys2Proof.Machine Sys2Proof.Claims

/-- Settles O56: the member and the offset on it determine the address, and the half with its offset that offset. -/
theorem interleaveIsOneToOne : Obligations.InterleaveIsOneToOne := by
  refine fun set hset => ⟨fun a ha => ?place, fun a b ha hb hdev => ?inj, fun a b _ hchunk => ?chunk⟩
  case place =>
    have hoff := locate_offset_lt ha
    refine ⟨locate_device_mem ha, hoff, ?_, ?_⟩
    · rw [locate_half]
      exact Nat.mod_lt _ (by decide)
    · rw [locate_halfOffset]
      simp only [homeBytes] at *
      omega
  case inj =>
    refine ⟨locate_inj ha hset hb hdev, fun hhalf hin => locate_inj ha hset hb hdev ?_⟩
    rw [locate_half, locate_half] at hhalf
    rw [locate_halfOffset, locate_halfOffset] at hin
    omega
  case chunk => rw [locate_device, locate_device, setOffset_chunk hchunk]

end Sys2Proof.Proofs
end

section
/-!
PROOFS. MEMORY orders (11 R265 to R267, R281): the tests that MAP, UNMAP and PROTECT share, and the frames that a MAP
takes.
-/
namespace Sys2Proof.Machine
open Sys2Proof.Claims

/-! ### The tests -/

/-- An order that passes the tests names a context of a district. -/
theorem Dev.memTarget_of_accepted {d : Dev} {x : Order} (hc : d.memCode x = 0) : ∃ c k, d.memTarget x = some (c, k) := by
  unfold Dev.memCode at hc
  split at hc
  · cases hc
  · cases hb : bodyCtx x (leAt x.body 4 2) with
    | none => simp [hb] at hc
    | some c =>
      cases hk : d.districtOf c with
      | none => simp [hb, hk] at hc
      | some k => exact ⟨c, k, by simp [Dev.memTarget, hb, hk]⟩

/-- The command does f to a MEMORY order of operation n that passes the tests. -/
def MemCommand (i : Instr) (s : State) (o : OrderId) (n : Nat) (f : Dev → Order → Nat → Nat → MemBody → Dev) : Prop :=
  exec i s = live i s fun d => d.memOrder o n (f d)

theorem memCommand_of_meaning {i : Instr} {s : State} {o : OrderId} {n : Nat}
    {f : Dev → Order → Nat → Nat → MemBody → Dev} (m : Host.Outcome State Fault Refusal) (he : exec i s = m)
    (hm : m = live i s fun d => d.memOrder o n (f d)) : MemCommand i s o n f := he.trans hm

section Handled
variable {i : Instr} {s : State} {x : Order} {n c k : Nat} {f : Dev → Order → Nat → Nat → MemBody → Dev}
variable (hi : MemCommand i s x.id n f) (h : Handed i s x opMemory) (hop : leAt x.body 0 1 = n)
include hi h hop

theorem MemCommand.runs_of_refused (hc : s.dev.memCode x ≠ 0) :
    Runs i s (s.dev.failOrder x.id (s.dev.memCode x) (s.dev.hgSource x.ctx)) :=
  (runs_of_live h.1.2 h.1.1 hi).congr (by simp [Dev.memOrder, Dev.taken_of_handed h, hop, hc])

/-- 00 R10: an order of no bytes is a NOOP. -/
theorem MemCommand.runs_of_empty (hc : s.dev.memCode x = 0) (hb : (memFields x.body).bytes = 0) :
    Runs i s (s.dev.endOrder x.id 0 (s.dev.hgSource x.ctx) true) := by
  obtain ⟨c, k, ht⟩ := Dev.memTarget_of_accepted hc
  exact (runs_of_live h.1.2 h.1.1 hi).congr (by simp [Dev.memOrder, Dev.taken_of_handed h, hop, hc, ht, hb])

theorem MemCommand.runs_of_accepted (hc : s.dev.memCode x = 0) (ht : s.dev.memTarget x = some (c, k))
    (hb : (memFields x.body).bytes ≠ 0) : Runs i s (f s.dev x c k (memFields x.body)) :=
  (runs_of_live h.1.2 h.1.1 hi).congr (by simp [Dev.memOrder, Dev.taken_of_handed h, hop, hc, ht, hb])

end Handled

/-! ### MAP -/

/-- The range of a MAP meets a mapping of the context, or a fixed one frames in use. -/
def Dev.mapClash (d : Dev) (c k : Nat) (m : MemBody) : Prop :=
  ((d.ctx c).maps.any fun q => overlap m.va m.bytes q.va q.bytes) = true ∨
    (m.fixed = true ∧ ((d.used k).any fun u => overlap m.va m.bytes u.1 u.2) = true)

/-- A 2 MiB chunk of a MAP's range is a hole (R262). -/
def Dev.mapHoled (d : Dev) (k : Nat) (m : MemBody) : Bool :=
  (List.range (ceilDiv m.bytes chunkBytes)).any fun i => d.hole k (m.va + i * chunkBytes)

/-- The frames that a MAP takes, and the bytes for which it finds none. -/
def Dev.mapFrames (d : Dev) (k : Nat) (m : MemBody) : List (Nat × Nat) × Nat :=
  if m.fixed then (if d.mapHoled k m then ([], m.bytes) else ([(m.va, m.bytes)], 0)) else d.frames k m.page m.bytes

/-- The device in which the frames of a MAP read as zero and are mapped, if the pool has frames for the tables (R265). -/
def Dev.mapTo (d : Dev) (c k : Nat) (m : MemBody) (fr : List (Nat × Nat)) : Option Dev :=
  (fr.foldl (fun d r => d.scrub r.1 r.2) d).remap k c ((d.ctx c).maps ++ mapPieces m.va m.page m.write m.fixed fr)

section Frames
variable {d : Dev} {k : Nat} {m : MemBody} {fr : List (Nat × Nat)}

theorem Dev.mapFrames_of_fits (h : (m.fixed = false ∧ d.frames k m.page m.bytes = (fr, 0)) ∨
    (m.fixed = true ∧ ¬ d.mapHoled k m = true ∧ fr = [(m.va, m.bytes)])) : d.mapFrames k m = (fr, 0) := by
  obtain ⟨hf, hfr⟩ | ⟨hf, hh, rfl⟩ := h
  · simp [Dev.mapFrames, hf, hfr]
  · simp [Dev.mapFrames, hf, hh]

theorem Dev.mapFrames_of_pool (hf : m.fixed = false) : d.mapFrames k m = d.frames k m.page m.bytes := by
  simp [Dev.mapFrames, hf]

theorem Dev.mapFrames_of_holed (hf : m.fixed = true) (hh : d.mapHoled k m = true) : d.mapFrames k m = ([], m.bytes) := by
  simp [Dev.mapFrames, hf, hh]

end Frames

section Map
variable {s : State} {x : Order} {c k : Nat} {fr : List (Nat × Nat)}
variable (h : Handed (.map x.id) s x opMemory) (hop : leAt x.body 0 1 = 1) (hc : s.dev.memCode x = 0)
  (ht : s.dev.memTarget x = some (c, k)) (hb : (memFields x.body).bytes ≠ 0)
include h hop hc ht hb

theorem runs_map_of_clash (hx : s.dev.mapClash c k (memFields x.body)) :
    Runs (.map x.id) s (s.dev.failOrder x.id 0x0153 (s.dev.hgSource x.ctx)) := by
  have run := (memCommand_of_meaning (execMap x.id s) rfl rfl).runs_of_accepted h hop hc ht hb
  simp only [Bool.or_eq_true, Bool.and_eq_true] at run
  exact run.congr (if_pos hx)

variable (hx : ¬ s.dev.mapClash c k (memFields x.body))
include hx

theorem runs_map_of_over_quota (hq : s.dev.quotaRoom c (memFields x.body).bytes = false) :
    Runs (.map x.id) s (s.dev.failOrder x.id 0x0151 (s.dev.hgSource x.ctx)) := by
  have run := (memCommand_of_meaning (execMap x.id s) rfl rfl).runs_of_accepted h hop hc ht hb
  simp only [Bool.or_eq_true, Bool.and_eq_true, hq] at run
  exact run.congr (if_neg hx)

variable (hq : s.dev.quotaRoom c (memFields x.body).bytes = true)
include hq

theorem runs_map_of_room :
    Runs (.map x.id) s
      (if (s.dev.mapFrames k (memFields x.body)).2 ≠ 0 then s.dev.failOrder x.id 0x0152 (s.dev.hgSource x.ctx)
       else match s.dev.mapTo c k (memFields x.body) (s.dev.mapFrames k (memFields x.body)).1 with
        | none => s.dev.failOrder x.id 0x0152 (s.dev.hgSource x.ctx)
        | some w => w.doneOrder x.id (s.dev.hgSource x.ctx)) := by
  have run := (memCommand_of_meaning (execMap x.id s) rfl rfl).runs_of_accepted h hop hc ht hb
  simp only [Bool.or_eq_true, Bool.and_eq_true, hq] at run
  exact run.congr (if_neg hx)

theorem runs_map_of_lack (hl : (s.dev.mapFrames k (memFields x.body)).2 ≠ 0) :
    Runs (.map x.id) s (s.dev.failOrder x.id 0x0152 (s.dev.hgSource x.ctx)) :=
  (runs_map_of_room h hop hc ht hb hx hq).congr (if_pos hl)

variable (hfr : s.dev.mapFrames k (memFields x.body) = (fr, 0))
include hfr

theorem runs_map_of_mapped {w : Dev} (hw : s.dev.mapTo c k (memFields x.body) fr = some w) :
    Runs (.map x.id) s (w.doneOrder x.id (s.dev.hgSource x.ctx)) :=
  (runs_map_of_room h hop hc ht hb hx hq).congr (by simp [hfr, hw])

theorem runs_map_of_no_tables (hw : s.dev.mapTo c k (memFields x.body) fr = none) :
    Runs (.map x.id) s (s.dev.failOrder x.id 0x0152 (s.dev.hgSource x.ctx)) :=
  (runs_map_of_room h hop hc ht hb hx hq).congr (by simp [hfr, hw])

end Map

end Sys2Proof.Machine

namespace Sys2Proof.Proofs
open Sys2Proof.Machine Sys2Proof.Claims

/-- Settles O15: the three commands share their tests; a MAP is decided by the clash, the quota, its frames and its tables
in this order, and UNMAP and PROTECT by whether mappings cover the range. -/
theorem memoryOrdersMapUnmapAndProtect : Obligations.MemoryOrdersMapUnmapAndProtect := by
  intro s x
  have map := memCommand_of_meaning (o := x.id) (execMap x.id s) rfl rfl
  have unmap := memCommand_of_meaning (o := x.id) (execUnmap x.id s) rfl rfl
  have protect := memCommand_of_meaning (o := x.id) (execProtect x.id s) rfl rfl
  refine ⟨fun i n hi h hop => ?tests, fun c k hc ht hb => ⟨fun h hop => ?map, fun h hop => ?unmap, fun h hop => ?protect⟩⟩
  case tests =>
    obtain ⟨rfl, rfl⟩ | ⟨rfl, rfl⟩ | ⟨rfl, rfl⟩ := hi
    · exact ⟨map.runs_of_refused h hop, map.runs_of_empty h hop⟩
    · exact ⟨unmap.runs_of_refused h hop, unmap.runs_of_empty h hop⟩
    · exact ⟨protect.runs_of_refused h hop, protect.runs_of_empty h hop⟩
  case map =>
    exact ⟨runs_map_of_clash h hop hc ht hb, runs_map_of_over_quota h hop hc ht hb,
      fun fr w hx hq hf => runs_map_of_mapped h hop hc ht hb hx hq (Dev.mapFrames_of_fits hf),
      fun fr hx hq hf => runs_map_of_no_tables h hop hc ht hb hx hq (Dev.mapFrames_of_fits hf),
      fun hx hq hf hl => runs_map_of_lack h hop hc ht hb hx hq (Dev.mapFrames_of_pool hf ▸ hl),
      fun hx hq hf hh => runs_map_of_lack h hop hc ht hb hx hq (Dev.mapFrames_of_holed hf hh ▸ hb)⟩
  case unmap =>
    have run := unmap.runs_of_accepted h hop hc ht hb
    exact ⟨fun hcov => run.congr (if_pos hcov), fun hcov => run.congr (if_neg (not_not_intro hcov))⟩
  case protect =>
    have run := protect.runs_of_accepted h hop hc ht hb
    exact ⟨fun hcov => run.congr (if_pos hcov), fun hcov => run.congr (if_neg (not_not_intro hcov))⟩

end Sys2Proof.Proofs
end

section
/-!
PROOFS. CACHE orders and the end of a load (11 R275 to R279): what accesses to memory leave of the cache, what making an
entry RESIDENT comes to in each of its states, and the two ends of a load.
-/
namespace Sys2Proof.Machine
open Sys2Proof.Claims

/-! ### What accesses to memory leave -/

/-- The time base and the entries of the model cache stand as they stood. -/
def Dev.KeepsCache (d e : Dev) : Prop := e.time = d.time ∧ e.cache = d.cache

section Keeps
variable {d e : Dev}

theorem Dev.KeepsCache.refl (d : Dev) : d.KeepsCache d := ⟨rfl, rfl⟩

theorem Dev.KeepsCache.trans {v : Dev} (h : d.KeepsCache e) (g : e.KeepsCache v) : d.KeepsCache v :=
  ⟨g.1.trans h.1, g.2.trans h.2⟩

theorem Dev.KeepsCache.entry (h : d.KeepsCache e) (i : Nat) : e.entry i = d.entry i :=
  congrArg (Tbl.get CacheEnt.init · i) h.2

theorem Dev.keepsCache_foldl {β : Type} {f : Dev → β → Dev} (h : ∀ (d : Dev) b, d.KeepsCache (f d b)) (l : List β) :
    ∀ d : Dev, d.KeepsCache (l.foldl f d) := by
  induction l with
  | nil => exact .refl
  | cons b r ih => exact fun d => (h d b).trans (ih (f d b))

theorem Dev.keepsCache_touchLine (d : Dev) (a : Nat) (alloc : Bool) : d.KeepsCache (d.touchLine a alloc) := by
  unfold Dev.touchLine
  split
  · exact .refl d
  · exact ⟨rfl, rfl⟩

theorem Dev.keepsCache_touch (d : Dev) (p : Nat × Nat) (alloc : Bool) : d.KeepsCache (d.touch p alloc) :=
  Dev.keepsCache_foldl (fun d _ => d.keepsCache_touchLine _ alloc) _ d

theorem Dev.keepsCache_canalPiece (d : Dev) (t : Nat) (p : Nat × Nat) (write : Bool) :
    d.KeepsCache (d.canalPiece t p write) := by
  unfold Dev.canalPiece
  split
  · exact .refl d
  · exact ⟨rfl, rfl⟩

theorem Dev.keepsCache_unrefresh (d : Dev) (x : Nat) : d.KeepsCache (d.unrefresh x) := by
  unfold Dev.unrefresh
  split
  · exact ⟨rfl, rfl⟩
  · exact .refl d

theorem Dev.keepsCache_traffic (d : Dev) (w : Accessor) (p : Nat × Nat) (write : Bool) :
    d.KeepsCache (d.traffic w p write) := by
  have hparts (l : List (Nat × Nat)) : d.KeepsCache (l.foldl (fun d q =>
      if d.viaPort w q.1 then d.touch q false else (d.touch q true).canalPiece w.terrace q write) d) := by
    refine Dev.keepsCache_foldl (fun d q => ?_) l d
    split
    · exact d.keepsCache_touch q false
    · exact (d.keepsCache_touch q true).trans (Dev.keepsCache_canalPiece _ _ q write)
  unfold Dev.traffic
  dsimp only
  split
  · split
    · exact hparts _
    · exact (hparts _).trans (Dev.keepsCache_unrefresh _ _)
  · exact (hparts _).trans ⟨rfl, rfl⟩
  · exact hparts _

theorem Dev.keepsCache_trafficAll (d : Dev) (w : Accessor) (l : List (Nat × Nat)) (write : Bool) :
    d.KeepsCache (d.trafficAll w l write) :=
  Dev.keepsCache_foldl (fun d p => d.keepsCache_traffic w p write) l d

theorem Dev.keepsCache_writeDev (d : Dev) (a : Nat) (bs : Bytes) : d.KeepsCache (d.writeDev a bs) := by
  unfold Dev.writeDev
  split
  · exact .refl d
  · exact ⟨rfl, rfl⟩

theorem Dev.keepsCache_storeDev (d : Dev) (w : Accessor) (a : Nat) (bs : Bytes) : d.KeepsCache (d.storeDev w a bs) :=
  (d.keepsCache_trafficAll w (chunksOf a bs.length) true).trans (Dev.keepsCache_writeDev _ a bs)

/-- The backing of an entry is read from memory, or given by the host. -/
theorem Dev.keepsCache_backingBytes {y : CacheEnt} {data bs : Bytes} (h : d.backingBytes y data = some (bs, e)) :
    d.KeepsCache e := by
  unfold Dev.backingBytes at h
  split at h
  · split at h
    · cases h
      exact d.keepsCache_trafficAll _ _ _
    · cases h
  · cases h
    exact .refl d

end Keeps

/-! ### Orders that are handed to their handler -/

section Handed
variable {i : Instr} {s : State} {x : Order} {n : Nat} {f : Dev → Order → Nat → Dev} {g : Dev → Order → Nat → Nat → Dev}
variable (h : Handed i s x opCache) (hop : leAt x.body 0 1 = n)
include h hop

theorem Dev.cacheOrder_of_handed (f : Order → Nat → Dev) :
    s.dev.cacheOrder x.id n f = f x (s.dev.hgSource x.ctx) := by
  simp [Dev.cacheOrder, Dev.taken_of_handed h, hop]

theorem unitRuns_cacheOrder (m : Host.Outcome State Fault Refusal) (he : exec i s = m)
    (hm : m = liveUnit i s fun d => d.cacheOrder x.id n (f d)) : UnitRuns i s (f s.dev x (s.dev.hgSource x.ctx)) :=
  (unitRuns_of_meaning h.1.2 h.1.1 m he hm).congr (Dev.cacheOrder_of_handed h hop _)

variable (m : Host.Outcome State Fault Refusal) (he : exec i s = m)
  (hm : m = live i s fun d => d.entryOrder x.id n (g d))
include he hm

/-- R274: a handle that names no entry of the district. -/
theorem runs_entryOrder_of_unnamed (hn : s.dev.handle? (leAt x.body 4 4) ((s.dev.districtOf x.ctx).getD 16) = none) :
    Runs i s (s.dev.failOrder x.id 0x0155 (s.dev.hgSource x.ctx)) :=
  (runs_of_meaning h.1.2 h.1.1 m he hm).congr (by simp [Dev.entryOrder, Dev.cacheOrder_of_handed h hop, hn])

theorem runs_entryOrder_of_named {e : Nat}
    (hn : s.dev.handle? (leAt x.body 4 4) ((s.dev.districtOf x.ctx).getD 16) = some e) :
    Runs i s (g s.dev x (s.dev.hgSource x.ctx) e) :=
  (runs_of_meaning h.1.2 h.1.1 m he hm).congr (by simp [Dev.entryOrder, Dev.cacheOrder_of_handed h hop, hn])

end Handed

/-! ### LOAD and PIN -/

/-- An order that asks for a RESIDENT entry is done, with an explicit pin where it asks for one (R277). -/
def Dev.endLoad (d : Dev) (o : OrderId) (src i : Nat) (pin : Bool) : Dev :=
  (if pin then d.putEntry i { d.entry i with pins := (d.entry i).pins + 1, lastUse := d.time.cnt } else d).doneOrder o src

/-- An order waits for the load of an entry (R276). -/
def Dev.awaitLoad (d : Dev) (o : OrderId) (i : Nat) (pin : Bool) : Dev :=
  (d.putEntry i { d.entry i with waiting := (d.entry i).waiting ++ [(o, pin)] }).runOrder o

section Load
variable {d d1 : Dev} {o : OrderId} {src i : Nat} {pin : Bool}

theorem Dev.loadFor_of_over_budget (hp : pin = true) (hr : d.pinRoom i = false) :
    d.loadFor o src i pin = d.failOrder o 0x0157 src := by
  simp [Dev.loadFor, hp, hr]

variable (hp : pin = true → d.pinRoom i = true)
include hp

theorem Dev.loadFor_of_room : d.loadFor o src i pin =
    match (d.entry i).state with
    | .resident => d.endLoad o src i pin
    | .loading => d.awaitLoad o i pin
    | .staged => match d.startLoad i false with
      | none => d.failOrder o 0x0158 src
      | some d => d.endLoad o src i pin
    | .backed => match d.startLoad i false with
      | none => d.failOrder o 0x0158 src
      | some d => d.awaitLoad o i pin :=
  if_neg (by simpa using hp)

theorem Dev.loadFor_of_resident (hs : (d.entry i).state = .resident) : d.loadFor o src i pin = d.endLoad o src i pin := by
  simp [Dev.loadFor_of_room hp, hs]

theorem Dev.loadFor_of_loading (hs : (d.entry i).state = .loading) : d.loadFor o src i pin = d.awaitLoad o i pin := by
  simp [Dev.loadFor_of_room hp, hs]

theorem Dev.loadFor_of_backed (hs : (d.entry i).state = .backed) (hl : d.startLoad i false = some d1) :
    d.loadFor o src i pin = d1.awaitLoad o i pin := by
  simp [Dev.loadFor_of_room hp, hs, hl]

theorem Dev.loadFor_of_staged (hs : (d.entry i).state = .staged) (hl : d.startLoad i false = some d1) :
    d.loadFor o src i pin = d1.endLoad o src i pin := by
  simp [Dev.loadFor_of_room hp, hs, hl]

theorem Dev.loadFor_of_no_place (hs : (d.entry i).state = .backed ∨ (d.entry i).state = .staged)
    (hl : d.startLoad i false = none) : d.loadFor o src i pin = d.failOrder o 0x0158 src := by
  obtain hs | hs := hs <;> simp [Dev.loadFor_of_room hp, hs, hl]

end Load

/-- What LOAD and PIN come to, by the state of the entry. -/
theorem load_outcomes {c : Instr} {s : State} {d : Dev} {o : OrderId} {src i : Nat} {pin : Bool}
    (run : Runs c s (d.loadFor o src i pin)) :
    (pin = true → d.pinRoom i = false → Runs c s (d.failOrder o 0x0157 src)) ∧
    ((pin = true → d.pinRoom i = true) →
      ((d.entry i).state = .resident → Runs c s (d.endLoad o src i pin)) ∧
      ((d.entry i).state = .loading → Runs c s (d.awaitLoad o i pin)) ∧
      (∀ d1, (d.entry i).state = .backed → d.startLoad i false = some d1 → Runs c s (d1.awaitLoad o i pin)) ∧
      (∀ d1, (d.entry i).state = .staged → d.startLoad i false = some d1 → Runs c s (d1.endLoad o src i pin)) ∧
      ((d.entry i).state = .backed ∨ (d.entry i).state = .staged → d.startLoad i false = none →
        Runs c s (d.failOrder o 0x0158 src))) :=
  ⟨fun hp hr => run.congr (Dev.loadFor_of_over_budget hp hr), fun hp =>
    ⟨fun hs => run.congr (Dev.loadFor_of_resident hp hs), fun hs => run.congr (Dev.loadFor_of_loading hp hs),
      fun _ hs hl => run.congr (Dev.loadFor_of_backed hp hs hl), fun _ hs hl => run.congr (Dev.loadFor_of_staged hp hs hl),
      fun hs hl => run.congr (Dev.loadFor_of_no_place hp hs hl)⟩⟩

/-! ### CREATE with PIN -/

/-- A CREATE whose load z is refused makes no entry (R275). -/
def Dev.endCreate (d z : Dev) (o : OrderId) (src : Nat) : Dev :=
  match z.order? o with
  | some y => if y.status = 0x0157 ∨ y.status = 0x0158 then d.failOrder o y.status src else z
  | none => z

theorem create_outcomes {c : Instr} {s : State} {d z : Dev} {o : OrderId} {src : Nat}
    (run : UnitRuns c s (d.endCreate z o src)) :
    let refused (n : Nat) : Prop := ∃ y, z.order? o = some y ∧ y.status = n ∧ (n = 0x0157 ∨ n = 0x0158)
    (∀ n, refused n → UnitRuns c s (d.failOrder o n src)) ∧ ((∀ n, ¬ refused n) → UnitRuns c s z) := by
  refine ⟨?_, fun hr => run.congr ?_⟩
  · rintro n ⟨y, hy, rfl, hn⟩
    exact run.congr (by simp [Dev.endCreate, hy, hn])
  · cases hy : z.order? o with
    | none => simp [Dev.endCreate, hy]
    | some y =>
      have hn : ¬ (y.status = 0x0157 ∨ y.status = 0x0158) := fun hn => hr _ ⟨y, hy, rfl, hn⟩
      simp [Dev.endCreate, hy, hn]

/-! ### The end of a load -/

section Loaded
variable {s : State} {i : Nat} {data : Bytes}
variable (h : Able (.cacheLoadDone i true data) s) (hl : (s.dev.entry i).live = true)
  (hs : (s.dev.entry i).state = .loading)
include h hl hs

theorem runs_cacheLoadDone_failed : Runs (.cacheLoadDone i false data) s (s.dev.loadFail i 0x015A) :=
  (runs_of_meaning (i := .cacheLoadDone i false data) h.2 h.1 (execCacheLoadDone i false data s) rfl rfl).congr
    (by simp [hl, hs])

theorem runs_cacheLoadDone_without_backing (hb : s.dev.backingBytes (s.dev.entry i) data = none) :
    Runs (.cacheLoadDone i true data) s (s.dev.loadFail i 0x015A) :=
  (runs_of_meaning (i := .cacheLoadDone i true data) h.2 h.1 (execCacheLoadDone i true data s) rfl rfl).congr
    (by simp [hl, hs, hb])

/-- R276: the entry takes its state, its waiting orders end, and its HOME is written. -/
theorem runs_cacheLoadDone_backed {bs : Bytes} {d1 : Dev}
    (hb : s.dev.backingBytes (s.dev.entry i) data = some (bs, d1)) :
    let e := s.dev.entry i
    let w := d1.storeDev (d1.hgAcc e.descCtx) e.home bs
    let y := w.putEntry i { w.entry i with
      state := if e.toStaging then .staged else .resident, lastUse := w.time.cnt, waiting := [] }
    let z := if e.toStaging then y else y.parentPin i true
    Runs (.cacheLoadDone i true data) s
      (e.waiting.foldl (fun d q => d.loadEnds i (s.dev.hgSource e.descCtx) q) (z.writeHome i)) := by
  have run := runs_of_meaning (i := .cacheLoadDone i true data) h.2 h.1 (execCacheLoadDone i true data s) rfl rfl
  have hstore := d1.keepsCache_storeDev (d1.hgAcc (s.dev.entry i).descCtx) (s.dev.entry i).home bs
  have hentry := ((Dev.keepsCache_backingBytes hb).trans hstore).entry i
  refine run.congr ?_
  simp [hl, hs, hb, Dev.modEntry, hentry, hstore.1]

end Loaded

end Sys2Proof.Machine

namespace Sys2Proof.Proofs
open Sys2Proof.Machine Sys2Proof.Claims

/-- Settles O16: CREATE is decided by its read, its descriptor and a free index, and with PIN by the load that it begins;
LOAD and PIN by the state of their entry, UNPIN and DROP by its pins; and a load ends with its backing's bytes or without
them. -/
theorem cacheOrdersCreateLoadPinAndDrop : Obligations.CacheOrdersCreateLoadPinAndDrop := by
  intro s x i
  refine ⟨fun h hop => ⟨fun c hr => ?unread, fun b d1 hr => ?create⟩, fun h hop hn => ?load, fun h hop hn => ?pin,
    fun h hop hn => ?unpin, fun h hop hn => ?drop, fun c n hc h hop hn => ?unnamed, fun data h hl hs => ?loaded⟩
  case unread => exact (unitRuns_cacheOrder h hop (execCreate x.id s) rfl rfl).congr (by simp [hr])
  case create =>
    have run := unitRuns_cacheOrder h hop (execCreate x.id s) rfl rfl
    simp only [hr] at run
    refine ⟨fun hok => run.congr (by simp [hok]), fun hok hf => run.congr (by simp [hok, hf]),
      fun hok hf hp => run.congr (by simp [hok, hf, hp, handleOf]), fun hok hf hp => ?_⟩
    simp only [hok, hf, hp, Bool.not_true, if_true, Bool.false_eq_true, if_false] at run
    exact create_outcomes run
  case load => exact load_outcomes (runs_entryOrder_of_named h hop (execLoad x.id s) rfl rfl hn)
  case pin => exact load_outcomes (runs_entryOrder_of_named h hop (execPin x.id s) rfl rfl hn)
  case unpin =>
    have run := runs_entryOrder_of_named h hop (execUnpin x.id s) rfl rfl hn
    exact ⟨fun hp => run.congr (if_pos hp), fun hp => run.congr (if_neg hp)⟩
  case drop =>
    have run := runs_entryOrder_of_named h hop (execDrop x.id s) rfl rfl hn
    exact ⟨fun hp => run.congr (if_pos (by simpa [CacheEnt.pinned] using hp)),
      fun hp hu => run.congr (if_neg (by simp [CacheEnt.pinned, hp, hu]))⟩
  case unnamed =>
    obtain ⟨rfl, rfl⟩ | ⟨rfl, rfl⟩ | ⟨rfl, rfl⟩ | ⟨rfl, rfl⟩ := hc
    · exact runs_entryOrder_of_unnamed h hop (execLoad x.id s) rfl rfl hn
    · exact runs_entryOrder_of_unnamed h hop (execPin x.id s) rfl rfl hn
    · exact runs_entryOrder_of_unnamed h hop (execUnpin x.id s) rfl rfl hn
    · exact runs_entryOrder_of_unnamed h hop (execDrop x.id s) rfl rfl hn
  case loaded =>
    exact ⟨runs_cacheLoadDone_failed h hl hs, runs_cacheLoadDone_without_backing h hl hs,
      fun bs d1 hb => runs_cacheLoadDone_backed h hl hs hb⟩

end Sys2Proof.Proofs
end

section
/-!
PROOFS. The events of the memory tiers: CXL ports (11 R272, R273), patrols of GDDR7 devices (11 R264), self-refresh (16
R371) and Aqueducts (12 R286).
-/
namespace Sys2Proof.Machine
open Sys2Proof.Claims

/-! ### CXL ports -/

section Port
variable {s : State} {n : Nat} (hn : n < 4) (hd : s.dev.dry = false)
include hn hd

/-- R272: a port links in stage 6 or behind it, unless it is up or fenced. -/
theorem runs_cxlLinkUp (devs : List CxlDev) :
    Runs (.cxlLinkUp n devs) s
      (if 6 ≤ s.dev.startup.stage ∧ s.dev.cxlUp n = false ∧ s.dev.fenced kCxl n = false then
        (s.dev.cxlLink n devs).linkCheck else s.dev) :=
  runs_of_meaning (i := .cxlLinkUp n devs) hd (decide_eq_true hn) (execCxlLinkUp n devs s) rfl rfl

/-- Table 11-4, 0x0420: the port is fenced once a request is older than CXL_TIMEOUT.MS. -/
theorem runs_cxlTimeout (at_ : Nat) :
    let e := s.dev.advance at_
    Runs (.cxlTimeout n at_) s
      (if ∃ t ∈ e.portSince n, t + 1000000 * e.reg .cxlTimeout 0 ≤ e.time.osc then e.cxlViolation n 0 else e) := by
  have run := runs_of_meaning (i := .cxlTimeout n at_) hd (decide_eq_true hn) (execCxlTimeout n at_ s) rfl rfl
  simp only [List.any_eq_true, decide_eq_true_eq] at run
  exact run

theorem runs_cxlMalformed : Runs (.cxlMalformed n) s (s.dev.cxlViolation n 1) :=
  runs_of_meaning (i := .cxlMalformed n) hd (decide_eq_true hn) (execCxlMalformed n s) rfl rfl

theorem runs_cxlLink : Runs (.cxlLink n) s (s.dev.cxlViolation n 2) :=
  runs_of_meaning (i := .cxlLink n) hd (decide_eq_true hn) (execCxlLink n s) rfl rfl

theorem runs_cxlMedia (addr : Nat) :
    Runs (.cxlMedia n addr) s
      (if s.dev.cxlUp n then (s.dev.cxlCount n 5).unitRecord (srcCxl n) 0x0425 [n, addr] else s.dev) :=
  runs_of_meaning (i := .cxlMedia n addr) hd (decide_eq_true hn) (execCxlMedia n addr s) rfl rfl

omit hn in
/-- R273: poisoned data at a port that is down reaches no requester. -/
theorem leaves_cxlPoison_of_down {req : MemReq} (hw : (Instr.cxlPoison n req).wf = true) (hu : s.dev.cxlUp n = false) :
    Leaves (.cxlPoison n req) s :=
  (runs_of_meaning hd hw (execCxlPoison n req s) rfl rfl).congr (by simp [hu])

theorem runs_cxlPoison_context {c : Nat} (hc : c < 1040) (hu : s.dev.cxlUp n = true) :
    Runs (.cxlPoison n (.context c)) s (settled ((s.dev.cxlCount n 3).poison n (.context c)) c) :=
  (runs_of_meaning (i := .cxlPoison n (.context c)) hd (Bool.and_eq_true_iff.mpr ⟨decide_eq_true hn, decide_eq_true hc⟩)
    (execCxlPoison n (.context c) s) rfl rfl).congr (if_pos hu)

end Port

/-! ### GDDR7 devices -/

/-- R264: the corrected errors of a patrol are counted, in its device and towards the device's thresholds. -/
def Dev.patrolled (d : Dev) (x ce : Nat) : Dev :=
  let y := d.unrefresh x
  (y.putMemDev x { y.memDev x with ce := sat32 ((y.memDev x).ce + ce) }).countCe kDevice x ce

section Device
variable {s : State} {x : Nat} (hx : x < 32) (hd : s.dev.dry = false)
include hx hd

theorem leaves_patrolScrub_of_down {ce : Nat} {addr : Option Nat} (hu : s.dev.memUp x = false) :
    Leaves (.patrolScrub x ce addr) s :=
  (runs_of_meaning (i := .patrolScrub x ce addr) hd (decide_eq_true hx) (execPatrolScrub x ce addr s) rfl rfl).congr
    (by simp [hu])

theorem runs_selfRefresh :
    Runs (.selfRefresh x) s
      (if s.dev.memUp x then s.dev.putMemDev x { s.dev.memDev x with refresh := true } else s.dev) :=
  runs_of_meaning (i := .selfRefresh x) hd (decide_eq_true hx) (execSelfRefresh x s) rfl rfl

section Up
variable (ce : Nat) (hu : s.dev.memUp x = true)
include hu

theorem runs_patrolScrub_clean : Runs (.patrolScrub x ce none) s (s.dev.patrolled x ce) :=
  (runs_of_meaning (i := .patrolScrub x ce none) hd (decide_eq_true hx) (execPatrolScrub x ce none s) rfl rfl).congr
    (if_pos hu)

/-- R264: an uncorrectable error that a patrol finds spoils its location only where it stands on the device. -/
theorem runs_patrolScrub_error (addr : Nat) :
    let z := s.dev.patrolled x ce
    Runs (.patrolScrub x ce (some addr)) s
      ((if z.devOf addr = some x then z.spoil [.uncorrectable addr] else z).deviceUe x addr).pump :=
  (runs_of_meaning (i := .patrolScrub x ce (some addr)) hd (decide_eq_true hx) (execPatrolScrub x ce (some addr) s) rfl
    rfl).congr (if_pos hu)

end Up

end Device

/-! ### Aqueducts -/

theorem runs_aqueductDegraded {s : State} {n : Nat} (hn : n < 4) (hd : s.dev.dry = false) (half : Bool) :
    Runs (.aqueductDegraded n half) s
      (if half then s.dev.setCanal { s.dev.canal with aqStatus := s.dev.canal.aqStatus.set n 2 }
       else (s.dev.setCanal { s.dev.canal with aqStatus := s.dev.canal.aqStatus.set n 0 }).fatal srcLkk 0x0026 0 kAqueduct
        n n) :=
  runs_of_meaning (i := .aqueductDegraded n half) hd (decide_eq_true hn) (execAqueductDegraded n half s) rfl rfl

end Sys2Proof.Machine

namespace Sys2Proof.Proofs
open Sys2Proof.Machine Sys2Proof.Claims

/-- Settles O47: each event acts on a port or a device that is up, and a port links while it is down; the timeout and an
error that a patrol finds have their two cases. -/
theorem memoryTiersLinkFailAndScrub : Obligations.MemoryTiersLinkFailAndScrub := by
  intro s n x at_ ce addr devs req hn hx hd
  refine ⟨fun _ => ?link, ?timeout, runs_cxlMalformed hn hd, runs_cxlLink hn hd, fun hu => ?portDown, fun hu => ?portUp,
    fun hu => ?deviceDown, fun hu => ?deviceUp, runs_aqueductDegraded hn hd true, runs_aqueductDegraded hn hd false⟩
  case link =>
    have run := runs_cxlLinkUp hn hd devs
    refine ⟨fun hs hu hf => run.congr (if_pos ⟨hs, hu, hf⟩), fun hnot => run.congr (if_neg fun ⟨hs, hu, hf⟩ => ?_)⟩
    obtain hs' | hu' | hf' := hnot
    · exact absurd hs (Nat.not_le.mpr hs')
    · exact absurd hu (ne_false_of_eq_true hu')
    · exact absurd hf (ne_false_of_eq_true hf')
  case timeout =>
    have run := runs_cxlTimeout hn hd at_
    exact ⟨fun hlate => run.congr (if_pos hlate), fun hlate => run.congr (if_neg hlate)⟩
  case portDown =>
    exact ⟨(runs_cxlMedia hn hd addr).congr (if_neg (ne_true_of_eq_false hu)),
      fun ⟨hw, _⟩ => leaves_cxlPoison_of_down hd hw hu⟩
  case portUp =>
    refine ⟨(runs_cxlMedia hn hd addr).congr (if_pos hu), ?_⟩
    rintro c hc rfl
    exact runs_cxlPoison_context hn hd hc hu
  case deviceDown =>
    exact ⟨leaves_patrolScrub_of_down hx hd hu, (runs_selfRefresh hx hd).congr (if_neg (ne_true_of_eq_false hu))⟩
  case deviceUp =>
    have error := runs_patrolScrub_error hx hd ce hu addr
    refine ⟨runs_patrolScrub_clean hx hd ce hu, fun hdev => ?_, fun hdev => ?_, (runs_selfRefresh hx hd).congr (if_pos hu)⟩
    · exact error.congr_pump (congrArg (Dev.deviceUe · x addr) (if_pos hdev))
    · exact error.congr_pump (congrArg (Dev.deviceUe · x addr) (if_neg hdev))

end Sys2Proof.Proofs
end

section
/-!
PROOFS. DMA orders on the system DMA engines (12 R292): how one starts, what its transfer comes to, and what a write of
a context's memory changes.
-/
namespace Sys2Proof.Machine
open Sys2Proof.Claims

/-! ### What traffic leaves -/

/-- A device without the parts that traffic changes: the Reservoir cache's lines (11 R269), the Canal (12 R284), the
GDDR7 devices with their channels' wakes (16 R371), and the CXL ports (Table 11-9). -/
def Dev.besideTraffic (d : Dev) : Dev := { d with lines := [], canal := Canal.init, devs := [], wakes := [], cxl := [] }

section Traffic
variable (d : Dev) (w : Accessor) (p : Nat × Nat) (write : Bool)

theorem Dev.besideTraffic_foldl {β : Type} {f : Dev → β → Dev} (h : ∀ d b, (f d b).besideTraffic = d.besideTraffic)
    (l : List β) : (l.foldl f d).besideTraffic = d.besideTraffic :=
  List.foldlRecOn l f (motive := fun e => e.besideTraffic = d.besideTraffic) rfl fun _ he _ _ => (h _ _).trans he

theorem Dev.besideTraffic_touchLine (a : Nat) (alloc : Bool) :
    (d.touchLine a alloc).besideTraffic = d.besideTraffic := by
  unfold Dev.touchLine
  split <;> rfl

theorem Dev.besideTraffic_touch (alloc : Bool) : (d.touch p alloc).besideTraffic = d.besideTraffic :=
  d.besideTraffic_foldl (fun d _ => d.besideTraffic_touchLine _ alloc) _

theorem Dev.besideTraffic_canalPiece (t : Nat) : (d.canalPiece t p write).besideTraffic = d.besideTraffic := by
  unfold Dev.canalPiece
  split <;> rfl

theorem Dev.besideTraffic_unrefresh (x : Nat) : (d.unrefresh x).besideTraffic = d.besideTraffic := by
  unfold Dev.unrefresh
  split <;> rfl

theorem Dev.besideTraffic_traffic : (d.traffic w p write).besideTraffic = d.besideTraffic := by
  have hparts (l : List (Nat × Nat)) : (l.foldl (fun d q =>
      if d.viaPort w q.1 then d.touch q false else (d.touch q true).canalPiece w.terrace q write) d).besideTraffic =
        d.besideTraffic := by
    refine d.besideTraffic_foldl (fun d q => ?_) l
    split
    · exact d.besideTraffic_touch q false
    · exact (Dev.besideTraffic_canalPiece _ q write _).trans (d.besideTraffic_touch q true)
  unfold Dev.traffic
  dsimp only
  split
  · split
    · exact hparts _
    · exact (Dev.besideTraffic_unrefresh _ _).trans (hparts _)
  · exact hparts _
  · exact hparts _

theorem Dev.besideTraffic_trafficAll (l : List (Nat × Nat)) :
    (d.trafficAll w l write).besideTraffic = d.besideTraffic :=
  d.besideTraffic_foldl (fun d p => d.besideTraffic_traffic w p write) l

theorem Dev.trafficAll_mem (l : List (Nat × Nat)) : (d.trafficAll w l write).mem = d.mem :=
  (congrArg Dev.mem (d.besideTraffic_trafficAll w write l) :)

end Traffic

/-! ### What a write of a context's memory changes -/

section Mem
variable {d e : Dev}

/-- What a write to a device address puts in memory depends on memory alone. -/
theorem Dev.writeDev_mem_congr (h : d.mem = e.mem) (a : Nat) (bs : Bytes) :
    (d.writeDev a bs).mem = (e.writeDev a bs).mem := by
  unfold Dev.writeDev
  split
  · exact h
  · exact congrArg (Tbl.setRun 0 · a bs) h

theorem Dev.writePieces_mem_congr (l : List (Nat × Nat)) :
    ∀ {d e : Dev} (bs : Bytes), d.mem = e.mem → (d.writePieces l bs).mem = (e.writePieces l bs).mem := by
  induction l with
  | nil => exact fun _ h => h
  | cons p r ih => exact fun bs h => ih _ (Dev.writeDev_mem_congr h p.1 _)

variable {c : Nat} (hc : c < 1024)
include hc

/-- 09 R234 masks rows of serving contexts alone. -/
theorem Dev.rowMasked_of_tenant (d : Dev) (w : Accessor) (q : Nat × Nat) : d.rowMasked w c q = false := by
  simp [Dev.rowMasked, Nat.not_le.mpr hc]

theorem Dev.putPieces_of_tenant (w : Accessor) (l : List (Nat × Nat)) :
    ∀ (d : Dev) (bs : Bytes), d.putPieces w c l bs = d.writePieces l bs := by
  induction l with
  | nil => exact fun _ _ => rfl
  | cons p r ih =>
    intro d bs
    rw [Dev.putPieces, Dev.rowMasked_of_tenant hc, if_neg Bool.false_ne_true, ih]
    rfl

/-- A write of a tenant's memory changes the bytes of its pieces alone. -/
theorem Dev.writeCtx_mem_of_tenant {w : Accessor} {va : Nat} {bs : Bytes} {l : List (Nat × Nat)}
    (hw : d.writeCtx w c va bs = .ok e) (hl : d.range c va bs.length true = .ok l) :
    e.mem = (d.writePieces l bs).mem := by
  simp only [Dev.writeCtx, hl] at hw
  split at hw
  · cases hw
  · cases hw
    rw [Dev.putPieces_of_tenant hc]
    exact Dev.writePieces_mem_congr l bs (d.trafficAll_mem w true l)

end Mem

/-! ### The start -/

/-- A context is resident: only then has it transfers in progress (13 R301). -/
def Dev.movesData (d : Dev) (c : Nat) : Prop :=
  (d.ctx c).slot ≠ 0xFF ∧ (d.ctx c).rootLoading = false ∧ (d.ctx c).state ≠ .draining

/-- A DMA order names a byte outside the memory of its context. -/
def Dev.dmaOutside (d : Dev) (x : Order) : Prop :=
  ((dmaFields x.body).srcHost = false ∧ d.outside x.ctx (dmaFields x.body).src (dmaFields x.body).bytes = true) ∨
    ((dmaFields x.body).dstHost = false ∧ d.outside x.ctx (dmaFields x.body).dst (dmaFields x.body).bytes = true)

section Start
variable {s : State} {d : Dev} {x : Order}

theorem Dev.movesData_iff {c : Nat} : d.movesData c ↔
    ¬ ((d.ctx c).slot = 0xFF ∨ (d.ctx c).rootLoading = true ∨ (d.ctx c).state = .draining) := by
  simp [Dev.movesData]

theorem Dev.beginDma_of_empty (hb : (dmaFields x.body).bytes = 0) :
    d.beginDma x = d.endOrder x.id 0 (srcDma (engineOf (portOf x.id.fn))) true := if_pos hb

theorem Dev.beginDma_of_outside (hb : (dmaFields x.body).bytes ≠ 0) (ho : d.dmaOutside x) :
    d.beginDma x = d.failOrder x.id 0x01C1 (srcDma (engineOf (portOf x.id.fn))) :=
  (if_neg hb).trans (if_pos (by simpa [Dev.dmaOutside] using ho))

theorem Dev.beginDma_of_inside (hb : (dmaFields x.body).bytes ≠ 0) (ho : ¬ d.dmaOutside x) :
    d.beginDma x = (d.runOrder x.id).modOrder x.id fun y => { y with since := d.time.osc } :=
  (if_neg hb).trans (if_neg (by simpa [Dev.dmaOutside] using ho))

variable (h : Handed (.dmaOrder x.id) s x opDma)
include h

theorem leaves_dmaOrder_of_away (hr : ¬ s.dev.movesData x.ctx) : Leaves (.dmaOrder x.id) s := by
  have run := runs_of_meaning h.1.2 h.1.1 (execDmaOrder x.id s) rfl rfl
  simp only [Dev.taken_of_handed h] at run
  exact run.congr (if_pos (Classical.not_not.mp (mt Dev.movesData_iff.mpr hr)))

theorem runs_dmaOrder_of_resident (hr : s.dev.movesData x.ctx) :
    Runs (.dmaOrder x.id) s (settled (s.dev.beginDma x) x.ctx) := by
  have run := runs_of_meaning h.1.2 h.1.1 (execDmaOrder x.id s) rfl rfl
  simp only [Dev.taken_of_handed h] at run
  exact run.congr (if_neg (Dev.movesData_iff.mp hr))

end Start

/-! ### The end of a transfer -/

/-- The bytes that the host gives a transfer. -/
def dmaHostBytes (x : Order) (data : Bytes) : Bytes :=
  (data ++ zeros ((dmaFields x.body).bytes - data.length)).take (dmaFields x.body).bytes

/-- What a transfer comes to: its bytes are written, or it meets a burst whose link failed or the fault of an access. -/
def Dev.dmaResult (d : Dev) (x : Order) (data : Bytes) (ecc : List EccStrike) : Except Nat Dev :=
  if linkLost ecc (d.orderReads x) then .error 0x0322 else d.moveDma x data

/-- A transfer ends as it came out: with DONE, or with its fault. It takes the error of a location that it reads if the
fault is that error's (17 R382). -/
def Dev.endDma (d : Dev) (x : Order) (src : Nat) : Except Nat Dev → Dev
  | .ok w => w.doneOrder x.id src
  | .error c => match (d.badIn (d.orderReads x)).filter fun a => eccCode a == c with
    | some a => (d.faultOrder x.id c src).ueAt a
    | none => d.faultOrder x.id c src

theorem length_dmaHostBytes {x : Order} {data : Bytes} : (dmaHostBytes x data).length = (dmaFields x.body).bytes := by
  simp only [dmaHostBytes, List.length_take, List.length_append, zeros, List.length_replicate]
  omega

section Moved
variable {d w : Dev} {x : Order} {data bs : Bytes} {ecc : List EccStrike} {c src : Nat}

theorem Dev.moveDma_of_host (hs : (dmaFields x.body).srcHost = true) : d.moveDma x data =
    if (dmaFields x.body).dstHost then
      .ok (d.hostWrite (portOf x.id.fn) (dmaFields x.body).dst (dmaHostBytes x data))
    else d.writeCtx (dmaAcc x) x.ctx (dmaFields x.body).dst (dmaHostBytes x data) := by
  simp only [Dev.moveDma, hs, if_true]
  rfl

theorem Dev.moveDma_of_read (hs : (dmaFields x.body).srcHost = false)
    (hr : d.readCtx (dmaAcc x) x.ctx (dmaFields x.body).src (dmaFields x.body).bytes = .ok (bs, w)) :
    d.moveDma x data =
      if (dmaFields x.body).dstHost then .ok (w.hostWrite (portOf x.id.fn) (dmaFields x.body).dst bs)
      else w.writeCtx (dmaAcc x) x.ctx (dmaFields x.body).dst bs := by
  simp [Dev.moveDma, hs, hr]

theorem Dev.dmaResult_of_linked (h : linkLost ecc (d.orderReads x) = false) :
    d.dmaResult x data ecc = d.moveDma x data := if_neg (Bool.eq_false_iff.mp h)

theorem Dev.dmaResult_of_lost (h : linkLost ecc (d.orderReads x) = true) :
    d.dmaResult x data ecc = .error 0x0322 := if_pos h

theorem Dev.endDma_of_moved : d.endDma x src (.ok w) = w.doneOrder x.id src := rfl

theorem Dev.endDma_of_bad {a : Nat} (ha : d.badIn (d.orderReads x) = some a) (hc : eccCode a = c) :
    d.endDma x src (.error c) = (d.faultOrder x.id c src).ueAt a := by
  simp [Dev.endDma, ha, hc, Option.filter]

theorem Dev.endDma_of_sound (h : ∀ a, d.badIn (d.orderReads x) = some a → eccCode a ≠ c) :
    d.endDma x src (.error c) = d.faultOrder x.id c src := by
  have hnone : ((d.badIn (d.orderReads x)).filter fun a => eccCode a == c) = none :=
    Option.filter_eq_none_iff.mpr fun a ha => by simpa using h a ha
  simp only [Dev.endDma, hnone]

end Moved

section Done
variable {s : State} {x : Order} {data : Bytes} {ecc : List EccStrike}
variable (h : Able (.systemDmaDone x.id ⟨data, ecc⟩) s) (ho : s.dev.order? x.id = some x) (hop : x.opcode = opDma)
  (hp : x.phase = .running)
include h ho hop hp

theorem runs_systemDmaDone {r : Except Nat Dev} (hr : (s.dev.spoil ecc).dmaResult x data ecc = r) :
    Runs (.systemDmaDone x.id ⟨data, ecc⟩) s
      (settled (((s.dev.spoil ecc).endDma x (srcDma (engineOf (portOf x.id.fn))) r).strikes ecc) x.ctx) := by
  subst hr
  have run := runs_of_meaning h.2 h.1 (execSystemDmaDone x.id ⟨data, ecc⟩ s) rfl rfl
  simp only [Dev.runningOrder_of_running ho hop hp] at run
  exact run

theorem runs_systemDmaDone_of_moved {w : Dev} (hm : (s.dev.spoil ecc).dmaResult x data ecc = .ok w) :
    Runs (.systemDmaDone x.id ⟨data, ecc⟩) s
      (settled ((w.doneOrder x.id (srcDma (engineOf (portOf x.id.fn)))).strikes ecc) x.ctx) :=
  (runs_systemDmaDone h ho hop hp hm).congr_settled (congrArg (Dev.strikes · ecc) Dev.endDma_of_moved)

theorem runs_systemDmaDone_of_fault {c : Nat} (hm : (s.dev.spoil ecc).dmaResult x data ecc = .error c) :
    let e := s.dev.spoil ecc
    let failed := e.faultOrder x.id c (srcDma (engineOf (portOf x.id.fn)))
    (∀ a, e.badIn (e.orderReads x) = some a → eccCode a = c →
      Runs (.systemDmaDone x.id ⟨data, ecc⟩) s (settled ((failed.ueAt a).strikes ecc) x.ctx)) ∧
    ((∀ a, e.badIn (e.orderReads x) = some a → eccCode a ≠ c) →
      Runs (.systemDmaDone x.id ⟨data, ecc⟩) s (settled (failed.strikes ecc) x.ctx)) := by
  have run := runs_systemDmaDone h ho hop hp hm
  exact ⟨fun a ha hc => run.congr_settled (congrArg (Dev.strikes · ecc) (Dev.endDma_of_bad ha hc)),
    fun hsound => run.congr_settled (congrArg (Dev.strikes · ecc) (Dev.endDma_of_sound hsound))⟩

end Done

end Sys2Proof.Machine

namespace Sys2Proof.Proofs
open Sys2Proof.Machine Sys2Proof.Claims

/-- Settles O12: an order starts by its own tests while its context is resident; its transfer's end is decided by where
its bytes come from and go to, and a tenant's memory changes in the pieces of the write alone. -/
theorem dmaOrdersStartAndMoveTheirBytes : Obligations.DmaOrdersStartAndMoveTheirBytes := by
  intro s x data ecc
  refine ⟨fun h => ⟨leaves_dmaOrder_of_away h, fun hr hb => ?empty, fun hr hb ho => ?outside, fun hr hb ho => ?starts⟩,
    fun h ho hop hp => ?ends⟩
  case empty => exact (runs_dmaOrder_of_resident h hr).congr_settled (Dev.beginDma_of_empty hb)
  case outside => exact (runs_dmaOrder_of_resident h hr).congr_settled (Dev.beginDma_of_outside hb ho)
  case starts => exact (runs_dmaOrder_of_resident h hr).congr_settled (Dev.beginDma_of_inside hb ho)
  case ends =>
    have moved {w : Dev} (hlost : linkLost ecc ((s.dev.spoil ecc).orderReads x) = false)
        (hm : (s.dev.spoil ecc).moveDma x data = .ok w) :=
      runs_systemDmaDone_of_moved h ho hop hp ((Dev.dmaResult_of_linked hlost).trans hm)
    refine ⟨fun hlost hs hd => ?hostToHost, fun w hlost hs hd hw => ?hostToContext,
      fun bs w hlost hs hd hr => ?contextToHost, fun bs w z hlost hs hd hr hw => ?contextToContext,
      fun c hlost hm => ?fails, fun hlost => ?loses, fun w l hc hw hl => ?bytes⟩
    case hostToHost => exact moved hlost ((Dev.moveDma_of_host hs).trans (if_pos hd))
    case hostToContext =>
      exact moved hlost ((Dev.moveDma_of_host hs).trans ((if_neg (ne_true_of_eq_false hd)).trans hw))
    case contextToHost => exact moved hlost ((Dev.moveDma_of_read hs hr).trans (if_pos hd))
    case contextToContext =>
      exact moved hlost ((Dev.moveDma_of_read hs hr).trans ((if_neg (ne_true_of_eq_false hd)).trans hw))
    case fails => exact runs_systemDmaDone_of_fault h ho hop hp ((Dev.dmaResult_of_linked hlost).trans hm)
    case loses => exact runs_systemDmaDone_of_fault h ho hop hp (Dev.dmaResult_of_lost hlost)
    case bytes => exact Dev.writeCtx_mem_of_tenant hc hw (length_dmaHostBytes.symm ▸ hl)

end Sys2Proof.Proofs
end

section
/-!
PROOFS. Signals at Gates (12 R293, R294): what a Gate holds after a signal, and which waits it releases.
-/
namespace Sys2Proof.Machine

section Gate
variable {d : Dev} {g h : Nat} {x : Gate}

@[simp] theorem Dev.gate_putGate_same : (d.putGate g x).gate g = x := Tbl.get_set_same

theorem Dev.gate_putGate_ne (hne : h ≠ g) : (d.putGate g x).gate h = d.gate h := Tbl.get_set_ne hne

end Gate

/-- R294: a wait as a signal of a Gate leaves it, with the value that the Gate then has. -/
def GateWait.tested (w : GateWait) (g v : Nat) : GateWait :=
  if w.gate = g ∧ condHolds w.cond v w.operand then { w with released := true } else w

section Tested
variable {w : GateWait} {g v : Nat}

theorem GateWait.tested_who : (w.tested g v).who = w.who := by
  unfold GateWait.tested
  split <;> rfl

theorem GateWait.tested_of_other_gate (h : w.gate ≠ g) : w.tested g v = w := if_neg fun hw => h hw.1

theorem GateWait.tested_of_released (h : w.released = true) : w.tested g v = { w with released := true } := by
  have hw : { w with released := true } = w := by rw [← h]
  rw [GateWait.tested, hw, ite_self]

/-- A wait that a signal of its Gate has tested is released if it was, or if its condition holds. -/
theorem GateWait.tested_of_same_gate (h : w.gate = g) : w.tested g v =
    if w.released = true ∨ condHolds w.cond v w.operand = true then { w with released := true } else w := by
  by_cases hr : w.released = true
  · rw [GateWait.tested_of_released hr, if_pos (.inl hr)]
  · simp only [GateWait.tested, h, true_and, hr, Bool.false_eq_true, false_or]

end Tested

section Signal
variable {d : Dev} {g h v src : Nat}

theorem Dev.gate_signalTo_same : (d.signalTo g v src).gate g =
    { d.gate g with value := BitVec.ofNat 64 v, mark := d.nextMark src, source := src } := Dev.gate_putGate_same

theorem Dev.gate_signalTo_ne (hne : h ≠ g) : (d.signalTo g v src).gate h = d.gate h := Dev.gate_putGate_ne hne

theorem Dev.waits_signalTo : (d.signalTo g v src).waits = d.waits.map fun w => w.tested g (v % 2 ^ 64) := rfl

/-- R293: the sum is modulo 2⁶⁴. -/
theorem Dev.gate_signal_same : (d.signal g v src).gate g =
    { d.gate g with value := (d.gate g).value + BitVec.ofNat 64 v, mark := d.nextMark src, source := src } := by
  rw [Dev.signal, Dev.gate_signalTo_same, BitVec.ofNat_add, BitVec.ofNat_toNat, BitVec.setWidth_eq]

end Signal

end Sys2Proof.Machine

namespace Sys2Proof.Proofs
open Sys2Proof.Machine Sys2Proof.Claims

/-- Settles O14: the Gate takes the sum, and every wait is the same wait, tested. -/
theorem signalsUpdateOneGateAndReleaseItsWaits : Obligations.SignalsUpdateOneGateAndReleaseItsWaits := by
  intro d g v src
  have hwaits : (d.signal g v src).waits = d.waits.map fun w => w.tested g (((d.gate g).value.toNat + v) % 2 ^ 64) :=
    Dev.waits_signalTo
  refine ⟨Dev.gate_signal_same, fun h hne => Dev.gate_signalTo_ne hne, ?who, fun w hw hg => ?other,
    fun w hw hg => ?same, rfl, rfl, rfl⟩
  case who =>
    rw [hwaits, List.map_map]
    exact List.map_congr_left fun _ _ => GateWait.tested_who
  case other => exact hwaits ▸ List.mem_map.mpr ⟨w, hw, GateWait.tested_of_other_gate hg⟩
  case same => exact hwaits ▸ List.mem_map.mpr ⟨w, hw, GateWait.tested_of_same_gate hg⟩

end Sys2Proof.Proofs
end

section
/-!
PROOFS. GATE orders (12 R295, R296, Table 12-5): the checks that ALLOC, FREE, SET and ADD share.
-/
namespace Sys2Proof.Machine
open Sys2Proof.Claims

/-- A GATE order of operation n on at least one Gate, for a context of a district, does its operation. -/
theorem runs_gateOrder {i : Instr} {s : State} {x : Order} {c n : Nat} {f : Dev → Order → Nat → List Nat → Dev}
    (h : Handed i s x opGate) (hop : leAt x.body 0 1 = n) (hc : bodyCtx x (leAt x.body 6 2) = some c)
    (hk : (s.dev.districtOf c).isSome = true) (hn : leAt x.body 2 2 ≠ 0) (m : Host.Outcome State Fault Refusal)
    (he : exec i s = m) (hm : m = live i s fun d => d.gateOrder x.id n (f d)) :
    Runs i s (f s.dev x c (gateRange x.body)) :=
  (runs_of_meaning h.1.2 h.1.1 m he hm).congr (by
    simp [Dev.gateOrder, Dev.taken_of_handed h, hop, hc, hn, Option.isSome_iff_ne_none.mp hk])

section Outcomes
variable {i : Instr} {s : State} {gs : List Nat} {p q : Nat → Bool} {refused busy done : Dev}

/-- What SET and ADD come to, by whether the test holds of every Gate. -/
theorem held_outcomes (run : Runs i s (if gs.all p then done else refused)) :
    ((∀ g ∈ gs, p g = true) → Runs i s done) ∧ ((∃ g ∈ gs, p g = false) → Runs i s refused) :=
  ⟨fun hall => run.congr (if_pos (List.all_eq_true.mpr hall)), fun hnot => run.congr (if_neg (by simpa using hnot))⟩

/-- What FREE comes to: a Gate that is not held is found before one that is in use (Table 12-5). -/
theorem free_outcomes (run : Runs i s (if !gs.all p then refused else if gs.any q then busy else done)) :
    ((∀ g ∈ gs, p g = true) → (∀ g ∈ gs, q g = false) → Runs i s done) ∧
    ((∃ g ∈ gs, p g = false) → Runs i s refused) ∧
    ((∀ g ∈ gs, p g = true) → (∃ g ∈ gs, q g = true) → Runs i s busy) := by
  refine ⟨fun hall hidle => run.congr ?_, fun hnot => run.congr (if_pos (by simpa using hnot)),
    fun hall hbusy => run.congr ?_⟩
  · exact (if_neg (by simpa using hall)).trans (if_neg (by simpa using hidle))
  · exact (if_neg (by simpa using hall)).trans (if_pos (List.any_eq_true.mpr hbusy))

end Outcomes

end Sys2Proof.Machine

namespace Sys2Proof.Proofs
open Sys2Proof.Machine Sys2Proof.Claims

/-- Settles O13: behind the shared checks, each operation is refused whole or acts on every Gate it names. -/
theorem gateOrdersAllocateFreeAndSignal : Obligations.GateOrdersAllocateFreeAndSignal := by
  intro s x c d n gs v src hc hk
  have hlen : (gateRange x.body).length = n := by simp [gateRange, n]
  refine ⟨fun h hop hn => ?alloc, fun h hop hn => ?free, fun h hop hn => ?set, fun h hop hn => ?add⟩
  case alloc =>
    have run := runs_gateOrder h hop hc hk hn (execAlloc x.id s) rfl rfl
    simp only [hlen, Bool.and_eq_true, List.all_eq_true, beq_iff_eq] at run
    exact ⟨fun hmay => run.congr (if_pos hmay), fun hmay => run.congr (if_neg hmay)⟩
  case free => exact free_outcomes (runs_gateOrder h hop hc hk hn (execFree x.id s) rfl rfl)
  case set => exact held_outcomes (runs_gateOrder h hop hc hk hn (execSet x.id s) rfl rfl)
  case add => exact held_outcomes (runs_gateOrder h hop hc hk hn (execAdd x.id s) rfl rfl)

end Sys2Proof.Proofs
end

section
/-!
PROOFS. The rotation table (13 R312, R313) and the self-test that its TEST entries make room for (17 R390, R391): which
entry is in force after the device has settled, which entries are led into, and what a piece of the test does.
-/
namespace Sys2Proof.Machine
open Sys2Proof.Claims

/-- A fold whose every step keeps what π reads keeps it. -/
theorem foldl_keeps {α β γ : Type} {π : α → γ} {f : α → β → α} (h : ∀ a b, π (f a b) = π a) (l : List β) (a : α) :
    π (l.foldl f a) = π a :=
  List.foldlRecOn l f (motive := fun x => π x = π a) rfl fun _ hx b _ => (h _ b).trans hx

/-! ### The entry in force -/

@[simp] theorem Dev.stopCore_sched (d : Dev) (i : Nat) (cause : StopCause) : (d.stopCore i cause).sched = d.sched := rfl

@[simp] theorem Dev.putTest_sched (d : Dev) (f : Nat) (on : Bool) : (d.putTest f on).sched = d.sched := by
  unfold Dev.putTest
  split <;> rfl

/-- What an entry stops is in the cores. -/
@[simp] theorem Dev.rotStops_sched (d : Dev) (r : RotEnt) : (d.rotStops r).sched = d.sched := by
  unfold Dev.rotStops
  split
  case isTrue => rfl
  case isFalse =>
    refine foldl_keeps (fun d f => foldl_keeps (fun d i => ?_) (coresIn f) d) _ d
    cases (d.core i).inst with
    | none => rfl
    | some y => rw [apply_ite Dev.sched, apply_ite Dev.sched, Dev.stopCore_sched, Dev.stopCore_sched, ite_self, ite_self]

/-- R312: the device takes the entry in force for its own; the stops and tests that follow leave it so. -/
theorem Dev.rotSync_rot (d : Dev) : d.rotSync.sched.rot = d.rotNow := by
  unfold Dev.rotSync
  rw [foldl_keeps (π := Dev.sched) Dev.rotStops_sched, foldl_keeps (π := Dev.sched) fun d f => d.putTest_sched f _]
  split
  case isTrue h => exact h
  case isFalse => rfl

/-! ### The entries that are led into -/

theorem mk_mem_range_zip {α : Type} {l : List α} {j : Nat} {r : α} :
    (j, r) ∈ (List.range l.length).zip l ↔ l[j]? = some r := by
  simp only [List.mem_iff_getElem?, List.getElem?_zip_eq_some]
  constructor
  · rintro ⟨i, hi, hr⟩
    obtain ⟨-, rfl⟩ : i < l.length ∧ i = j := by simpa [List.getElem?_eq_some_iff] using hi
    exact hr
  · exact fun hr => ⟨j, List.getElem?_range (List.getElem?_eq_some_iff.mp hr).1, hr⟩

/-- R312, R313: an entry of the table is led into once its next start is SCH_RT_LEAD.US away or nearer. -/
theorem Dev.mem_rotLeads {d : Dev} {j : Nat} :
    j ∈ d.rotLeads ↔ ∃ r, d.rotTable.2[j]? = some r ∧ d.rotNext r ≤ d.time.cnt + 1000 * d.reg .schRtLead 0 := by
  simp [Dev.rotLeads, mk_mem_range_zip]

section Entries
variable {s : State} {j : Nat} (hj : j < 4096) (hd : s.dev.dry = false) (at_ : Nat)
include hj hd

theorem runs_rotationLead : Runs (.rotationLead ⟨j, at_⟩) s
    (if j ∈ (s.dev.advance at_).rotLeads then (s.dev.advance at_).pump else s.dev.advance at_) := by
  have run := runs_of_meaning (i := .rotationLead ⟨j, at_⟩) hd (decide_eq_true hj) (execRotationLead ⟨j, at_⟩ s) rfl rfl
  simpa only [List.contains_iff_mem] using run

/-- A start acts while its entry is in force. -/
theorem runs_rotationEntryStart_of_some {k start : Nat} (h : (s.dev.advance at_).rotNow = some (k, start)) :
    Runs (.rotationEntryStart j at_) s (if k = j then (s.dev.advance at_).pump else s.dev.advance at_) := by
  have run := runs_of_meaning (i := .rotationEntryStart j at_) hd (decide_eq_true hj) (execRotationEntryStart j at_ s)
    rfl rfl
  simpa only [h] using run

theorem runs_rotationEntryStart_of_none (h : (s.dev.advance at_).rotNow = none) :
    Runs (.rotationEntryStart j at_) s (s.dev.advance at_) := by
  have run := runs_of_meaning (i := .rotationEntryStart j at_) hd (decide_eq_true hj) (execRotationEntryStart j at_ s)
    rfl rfl
  simpa only [h] using run

/-- An end acts once its entry, which was in force when the device last settled, is in force no more. -/
theorem runs_rotationEntryEnd_of_some {k start : Nat} (h : (s.dev.advance at_).sched.rot = some (k, start)) :
    Runs (.rotationEntryEnd j at_) s
      (if k = j ∧ (s.dev.advance at_).rotNow ≠ some (k, start) then (s.dev.advance at_).pump
        else s.dev.advance at_) := by
  have run := runs_of_meaning (i := .rotationEntryEnd j at_) hd (decide_eq_true hj) (execRotationEntryEnd j at_ s)
    rfl rfl
  simpa only [h] using run

theorem runs_rotationEntryEnd_of_none (h : (s.dev.advance at_).sched.rot = none) :
    Runs (.rotationEntryEnd j at_) s (s.dev.advance at_) := by
  have run := runs_of_meaning (i := .rotationEntryEnd j at_) hd (decide_eq_true hj) (execRotationEntryEnd j at_ s)
    rfl rfl
  simpa only [h] using run

end Entries

/-! ### The self-test -/

section Test
variable {s : State} {f : Nat} {failing : List Nat} {steward : Bool} (hf : f < 16) (hd : s.dev.dry = false)
  (hfail : ∀ p ∈ failing, p < 16) (at_ : Nat)
include hf hd hfail

/-- R390, R391: a piece that the field's slot fits finds a fault, completes the test, or counts. -/
theorem runs_selftestPiece :
    let e := s.dev.advance at_
    let y := (coresIn f).foldl (fun d i => d.clearCore i) e
    Runs (.selftestPiece f failing steward at_) s
      (if (e.field f).inTest = true ∧ e.testWanted f = true ∧ e.pieceFits f = true ∧ e.fieldEmpty f = true then
        if steward = true ∨ failing ≠ [] then (y.testFail f failing steward).pump
        else if (y.field f).testPieces + 1 = 24 then y.testOver f 1 24
        else y.putField f { y.field f with testPieces := (y.field f).testPieces + 1 }
      else e) := by
  have hw : (Instr.selftestPiece f failing steward at_).wf = true := by
    simpa [Instr.wf, fieldOk, coreInOk, hf] using hfail
  have run := runs_of_meaning hd hw (execSelftestPiece f failing steward at_ s) rfl rfl
  simp only [Bool.and_eq_true, and_assoc, Bool.or_eq_true, Bool.not_eq_true', List.isEmpty_eq_false_iff] at run
  exact run

end Test

end Sys2Proof.Machine

namespace Sys2Proof.Proofs
open Sys2Proof.Machine Sys2Proof.Claims

/-- Settles O45: each command is one test, of the table, of the entry in force or of the piece; what it brings about is
the pump, which begins by taking the entry in force. -/
theorem rotationEntriesStartTestAndEnd : Obligations.RotationEntriesStartTestAndEnd := by
  intro s f j at_ failing steward hf hj hd hfail
  have lead := runs_rotationLead hj hd at_
  have start {k t : Nat} := runs_rotationEntryStart_of_some hj hd at_ (k := k) (start := t)
  have ends {k t : Nat} := runs_rotationEntryEnd_of_some hj hd at_ (k := k) (start := t)
  have piece := runs_selftestPiece (steward := steward) hf hd hfail at_
  simp only [Dev.mem_rotLeads] at lead
  refine ⟨fun z => ⟨rfl, z.rotSync_rot⟩, fun h => lead.congr (if_neg ?unlisted),
    fun r hr => ⟨fun h => lead.congr (if_neg ?far), fun h => lead.congr (if_pos ⟨r, hr, h⟩)⟩,
    runs_rotationEntryStart_of_none hj hd at_,
    fun k t h => ⟨fun hk => (start h).congr (if_neg hk), fun hk => (start h).congr (if_pos hk)⟩,
    runs_rotationEntryEnd_of_none hj hd at_,
    fun k t h => ⟨fun hk => (ends h).congr (if_neg ?other), fun hk hn => (ends h).congr (if_pos ⟨hk, hn⟩)⟩,
    fun hn => piece.congr (if_neg hn), fun hy hb => ?fails, fun hy hs he hl => ?last, fun hy hs he hl => ?counts⟩
  case unlisted => simp [h]
  case far => simp [hr, Nat.not_le.mpr h]
  case other => exact fun hc => hk.elim (· hc.1) hc.2
  case fails => exact piece.congr ((if_pos hy).trans (if_pos hb))
  case last => exact piece.congr ((if_pos hy).trans ((if_neg (by simp [hs, he])).trans (if_pos hl)))
  case counts => exact piece.congr ((if_pos hy).trans ((if_neg (by simp [hs, he])).trans (if_neg hl)))

end Sys2Proof.Proofs
end

section
/-!
PROOFS. Contexts that a physical function resets and tears down (13 R315, R316, R319).
-/
namespace Sys2Proof.Machine
open Sys2Proof.Claims

/-- A write that a port takes acts for a physical function alone. -/
theorem pfWrite_outcomes {i : Instr} {s : State} {fn : Nat} {g : Dev → Dev} (h : HostAble fn i s)
    (m : Host.Outcome State Fault Refusal) (he : exec i s = m)
    (hm : m = hosted fn i s fun d => if isPf fn then g d else d) :
    (isPf fn = true → Runs i s (g s.dev)) ∧ (isPf fn = false → Leaves i s) := by
  obtain ⟨⟨hw, hd⟩, hf⟩ := h
  have run := runs_of_hosted hd hf hw (he.trans hm)
  exact ⟨fun hfn => run.congr (if_pos hfn), fun hfn => run.congr (if_neg (ne_true_of_eq_false hfn))⟩

end Sys2Proof.Machine

namespace Sys2Proof.Proofs
open Sys2Proof.Machine Sys2Proof.Claims

/-- Settles O46: a write acts for a physical function alone, and a teardown is done once it has begun and all has
stopped. -/
theorem contextsResetAndTearDown : Obligations.ContextsResetAndTearDown := by
  intro s fn c hc hd
  have done := runs_of_meaning (i := .teardownDone c) hd (decide_eq_true hc) (execTeardownDone c s) rfl rfl
  have reset := pfWrite_outcomes (s := s) (i := .resetContext fn c) (g := fun d => settled (d.schReset (portOf fn) c) c)
    (m := execResetContext fn c s) (he := rfl) (hm := rfl)
  have teardown := pfWrite_outcomes (s := s) (i := .teardown fn c) (g := fun d => (d.schTeardown (portOf fn) c).pump)
    (m := execTeardown fn c s) (he := rfl) (hm := rfl)
  refine ⟨reset, teardown, fun ht hs => done.congr (if_pos ⟨ht, hs⟩), fun h => done.congr (if_neg ?running)⟩
  case running => exact fun ⟨ht, hs⟩ => h.elim (· ht) (ne_true_of_eq_false · hs)

end Sys2Proof.Proofs
end

section
/-!
PROOFS. The queue of commands: what a step takes from it, and that no command touches it or stops the device.
-/
namespace Sys2Proof.Machine

/-- Every command does its change to the device where it names units that the device has, and else nothing. -/
theorem exec_eq_ite (i : Instr) (s : State) :
    ∃ d : Dev, exec i s = if i.wf then .next { s with dev := d } else .next s := by
  cases i <;> exact ⟨_, rfl⟩

theorem exec_next (i : Instr) (s : State) : ∃ d : Dev, exec i s = .next { s with dev := d } := by
  obtain ⟨d, he⟩ := exec_eq_ite i s
  by_cases hw : i.wf = true
  · exact ⟨d, he.trans (if_pos hw)⟩
  · exact ⟨s.dev, he.trans (if_neg hw)⟩

theorem exec_of_ill_formed {i : Instr} (s : State) (hw : i.wf = false) : exec i s = .next s := by
  obtain ⟨d, he⟩ := exec_eq_ite i s
  exact he.trans (if_neg (Bool.eq_false_iff.mp hw))

/-- A step goes on, and takes the front command from the queue. -/
theorem step_next (s : State) : ∃ t, step s = .next t ∧ t.pending = s.pending.tail := by
  cases h : s.pending with
  | nil => exact ⟨idle s, by simp [step, h], h⟩
  | cons c r =>
    obtain ⟨d, he⟩ := exec_next c { s with pending := r }
    exact ⟨{ pending := r, dev := d }, by simp [step, h, he], rfl⟩

end Sys2Proof.Machine

namespace Sys2Proof.Claims
open Sys2Proof.Machine

/-- As many steps as one asks for take as many commands from the queue. -/
theorem runSteps_next (n : Nat) : ∀ s : State, ∃ t, runSteps n s = some t ∧ t.pending = s.pending.drop n := by
  induction n with
  | zero => exact fun s => ⟨s, rfl, rfl⟩
  | succ n ih =>
    intro s
    obtain ⟨u, hu, hq⟩ := step_next s
    obtain ⟨t, ht, hp⟩ := ih u
    refine ⟨t, ?_, ?_⟩
    · simp [runSteps, hu, ht]
    · rw [hp, hq, List.drop_tail]

end Sys2Proof.Claims

namespace Sys2Proof.Proofs
open Sys2Proof.Machine Sys2Proof.Claims

/-- Settles O1. -/
theorem stepRunsTheFrontCommand : Obligations.StepRunsTheFrontCommand := by
  intro c r s h
  simp [step, h]

/-- Settles O2: the nanosecond is an advance to the next instant; with no hold and no slew the counter takes its whole
rate. -/
theorem emptyQueueCountsOneNanosecond : Obligations.EmptyQueueCountsOneNanosecond := by
  intro s h
  refine ⟨?_, fun hh hs => ?_⟩
  · simp [step, h, idle, Dev.advance]
  · simp [Time.tick, hh, hs, addFrac, slewUnits, fracUnit]

/-- Settles O60: no command stops the device or touches the queue, so by induction the steps take its commands in order. -/
theorem aWellFormedQueueRunsToItsEnd : Obligations.AWellFormedQueueRunsToItsEnd := by
  refine ⟨fun i s => ⟨exec_next i s, exec_of_ill_formed s⟩, fun c hc => absurd hc (List.not_mem_nil), fun n s => ?_⟩
  obtain ⟨t, ht, hp⟩ := runSteps_next n s
  exact ⟨t, ht, hp, fun hq c hc => hq c (List.mem_of_mem_drop (hp ▸ hc))⟩

end Sys2Proof.Proofs
end

section
/-!
PROOFS. Dry (17 R397, R398): what the device's work is, which operations leave it as it stands, and that the commands
that Dry does not stop are made of those alone.
-/
namespace Sys2Proof.Machine
open Sys2Proof.Claims

/-- What Dry keeps: the state of start-up with GEN_STATE, and everything that work is made of. -/
def Dev.work (d : Dev) : Startup × List Host.Cell × List Order × Tbl Ring × Tbl Gate × Tbl Ctx × Tbl Dist × Tbl Field × Tbl Core :=
  (d.startup, d.mem, d.orders, d.rings, d.gates, d.ctxs, d.dists, d.fields, d.cores)

/-! ### Operations that leave the work -/

section Work
variable {d : Dev} {fn sl v : Nat}

theorem Dev.startup_of_work {e : Dev} (h : e.work = d.work) : e.startup = d.startup := congrArg (·.1) h

theorem Dev.dry_of_work {e : Dev} (hd : d.dry = true) (h : e.work = d.work) : e.dry = true :=
  (congrArg (·.gen == .dry) (Dev.startup_of_work h)).trans hd

theorem Dev.work_ite {c : Prop} [Decidable c] {a b : Dev} (ha : a.work = d.work) (hb : b.work = d.work) :
    (if c then a else b).work = d.work := by
  split
  · exact ha
  · exact hb

theorem Dev.work_foldl {β : Type} {f : Dev → β → Dev} {l : List β} (h : ∀ b ∈ l, ∀ d, (f d b).work = d.work) :
    ∀ d : Dev, (l.foldl f d).work = d.work := by
  induction l with
  | nil => exact fun _ => rfl
  | cons b r ih =>
    rw [List.forall_mem_cons] at h
    exact fun d => (ih h.2 (f d b)).trans (h.1 d)

@[simp] theorem Dev.work_setTime (x : Time) : (d.setTime x).work = d.work := rfl
@[simp] theorem Dev.work_setOut (x : List OutEvent) : (d.setOut x).work = d.work := rfl
@[simp] theorem Dev.work_setRegs (x : Tbl DWord) : (d.setRegs x).work = d.work := rfl
@[simp] theorem Dev.work_setErrs (x : Tbl ErrRing) : (d.setErrs x).work = d.work := rfl
@[simp] theorem Dev.work_setSluices (x : Tbl Sluice) : (d.setSluices x).work = d.work := rfl
@[simp] theorem Dev.work_setMsix (x : Tbl MsixEnt) : (d.setMsix x).work = d.work := rfl
@[simp] theorem Dev.work_setSilt (x : Silt) : (d.setSilt x).work = d.work := rfl
@[simp] theorem Dev.work_setPower (x : Power) : (d.setPower x).work = d.work := rfl
@[simp] theorem Dev.work_setLkk (x : Lkk) : (d.setLkk x).work = d.work := rfl

@[simp] theorem Dev.work_putReg (r : Reg) (i : Nat) : (d.putReg r i v).work = d.work := rfl
@[simp] theorem Dev.work_emit (x : OutEvent) : (d.emit x).work = d.work := rfl
@[simp] theorem Dev.work_putSluice (x : Sluice) : (d.putSluice sl x).work = d.work := rfl
@[simp] theorem Dev.work_putMsix (x : MsixEnt) : (d.putMsix fn v x).work = d.work := rfl
@[simp] theorem Dev.work_modPower (f : Power → Power) : (d.modPower f).work = d.work := rfl

@[simp] theorem Dev.work_advance (at_ : Nat) : (d.advance at_).work = d.work := by
  unfold Dev.advance
  split <;> rfl

/-! #### Records, interrupts and the Silt record -/

@[simp] theorem Dev.work_fire : (d.fire fn v).work = d.work := by
  simp only [Dev.fire, apply_ite Dev.work, Dev.work_putMsix, Dev.work_emit, ite_self]

@[simp] theorem Dev.work_errTo (copy : Bool) (r : ErrRec) : (d.errTo fn copy r).work = d.work := by
  unfold Dev.errTo
  dsimp only
  split
  · exact Dev.work_fire
  · rfl

@[simp] theorem Dev.work_record (r : ErrRec) : (d.record r).work = d.work := by
  simp only [Dev.record, apply_ite Dev.work, Dev.work_errTo, ite_self]

@[simp] theorem Dev.work_raise (src ctx status tag : Nat) (l : List Nat) : (d.raise src ctx status tag l).work = d.work :=
  Dev.work_record _

@[simp] theorem Dev.work_pldmEvent (event : Nat) : (d.pldmEvent event v).work = d.work := Dev.work_ite rfl rfl

@[simp] theorem Dev.work_siltAt (src event status kind unit ctx detail : Nat) (fatal : Bool) :
    (d.siltAt src event status kind unit ctx detail fatal).work = d.work := by
  unfold Dev.siltAt
  refine Dev.work_ite ((Dev.work_setSilt _).trans ((Dev.work_putReg _ _).trans ?_)) ?_
  all_goals exact Dev.work_ite ((Dev.work_pldmEvent _).trans rfl) rfl

@[simp] theorem Dev.work_siltEv (src event status kind unit detail : Nat) :
    (d.siltEv src event status kind unit detail).work = d.work := Dev.work_siltAt ..

@[simp] theorem Dev.work_silt2 (src event x y : Nat) : (d.silt2 src event x y).work = d.work := rfl

@[simp] theorem Dev.work_copyDone : d.copyDone.work = d.work := by
  unfold Dev.copyDone
  split
  · rfl
  · exact Dev.work_siltEv ..

/-! #### Sluices -/

@[simp] theorem Dev.work_fireSluice (sender : Nat) : (d.fireSluice sender).work = d.work := by
  unfold Dev.fireSluice
  split
  · exact Dev.work_fire
  · rfl

@[simp] theorem Dev.work_sluiceRecord (who code : Nat) : (d.sluiceRecord who code).work = d.work := Dev.work_raise ..

@[simp] theorem Dev.work_misuse (who code : Nat) : (d.misuse who sl code).work = d.work := Dev.work_sluiceRecord ..

@[simp] theorem Dev.work_msgWrite (who k len : Nat) : (d.msgWrite who sl k len v).work = d.work := by
  simp only [Dev.msgWrite, apply_ite Dev.work, Dev.work_sluiceRecord, Dev.work_misuse, Dev.work_putSluice, ite_self]

@[simp] theorem Dev.work_send (who seq : Nat) : (d.send who sl seq).work = d.work := by
  simp only [Dev.send, apply_ite Dev.work, Dev.work_sluiceRecord, Dev.work_misuse, Dev.work_fireSluice,
    Dev.work_putSluice, Dev.work_emit, ite_self]

@[simp] theorem Dev.work_sluiceWord (who k : Nat) : (d.sluiceWord who sl k v).work = d.work := by
  simp only [Dev.sluiceWord, apply_ite Dev.work, Dev.work_msgWrite, Dev.work_send, Dev.work_putSluice,
    Dev.work_sluiceRecord, ite_self]

@[simp] theorem Dev.work_sluiceWrite (who o len : Nat) : (d.sluiceWrite who sl o len v).work = d.work := by
  unfold Dev.sluiceWrite
  split
  · exact Dev.work_msgWrite ..
  · exact Dev.work_foldl (fun _ _ _ => Dev.work_sluiceWord ..) d

theorem Dev.work_bindWrite : (d.bindWrite sl v).work = d.work := by
  simp only [Dev.bindWrite, apply_ite Dev.work, Dev.work_putSluice, ite_self]

theorem Dev.work_slcWrite (o len : Nat) : (d.slcWrite fn o len v).work = d.work := by
  have bind := Dev.work_foldl (l := wordsOf o len v)
    (f := fun d w => d.bindWrite ((w.1 - 0x2000) / 4) w.2) (fun _ _ _ => Dev.work_bindWrite) d
  simp only [Dev.slcWrite, apply_ite Dev.work, Dev.work_sluiceWrite, bind, ite_self]

/-! #### The time base and the power stage -/

/-- In Dry the rotation does not follow the time base. -/
theorem Dev.work_timeMoved {e : Dev} (hd : d.dry = true) (h : e.work = d.work) : e.timeMoved.work = d.work :=
  (congrArg Dev.work (if_pos (Dev.dry_of_work hd h))).trans h

@[simp] theorem Dev.work_stepTo : (d.stepTo v).work = d.work := rfl

@[simp] theorem Dev.work_setEpoch : (d.setEpoch v).work = d.work := by
  unfold Dev.setEpoch
  split <;> rfl

@[simp] theorem Dev.work_ppsEdge : d.ppsEdge.work = d.work := by
  unfold Dev.ppsEdge
  cases h : d.time.pendingSet <;>
    simp only [h, apply_ite Dev.work, Dev.work_setTime, Dev.work_setEpoch, Dev.work_stepTo, ite_self]

/-- In Dry the Allotment does not follow the module limit. -/
theorem Dev.work_limitNow {e : Dev} (hd : d.dry = true) (h : e.work = d.work) : e.limitNow.work = d.work :=
  (congrArg Dev.work (if_pos (Dev.dry_of_work hd h))).trans h

theorem Dev.work_switchTo (hd : d.dry = true) (source : Nat) : (d.switchTo source).work = d.work :=
  Dev.work_limitNow hd ((Dev.work_siltEv ..).trans rfl)

/-! #### Register writes -/

theorem Dev.work_msixWrite (o : Nat) : (d.msixWrite fn o v).work = d.work :=
  Dev.work_ite rfl <| Dev.work_ite (Dev.work_putMsix _) <| Dev.work_ite (Dev.work_putMsix _) <|
    Dev.work_ite (Dev.work_putMsix _) <| Dev.work_ite (Dev.work_putMsix _) <|
      Dev.work_ite (Dev.work_fire.trans (Dev.work_putMsix _)) (Dev.work_putMsix _)

theorem Dev.work_writeField (r : Reg) (i : Nat) : (d.writeField r i v).work = d.work := by
  simp only [Dev.writeField, apply_ite Dev.work, Dev.work_putReg, ite_self]

/-- A register that the Weir serves in Dry has no effect beyond its field. -/
theorem Dev.work_fieldWritten (r : Reg) (hr : r.inDry = true) (c : Nat) : (d.fieldWritten r c v).work = d.work := by
  unfold Dev.fieldWritten
  split
  case h_8 => simp only [apply_ite Dev.work, Dev.work_writeField, ite_self]
  all_goals cases hr

theorem Dev.work_writeReg (ws : List (Nat × Nat)) (r : Reg) (hr : r.inDry = true) : (d.writeReg fn ws r).work = d.work := by
  unfold Dev.writeReg
  split
  · rfl
  · refine Dev.work_foldl (fun j _ d => ?_) d
    dsimp only
    split
    · rfl
    · exact Dev.work_fieldWritten r hr _

/-- 17 R397: in Dry a write reaches the registers that the Weir serves, SEND, and LKK_RESET, which stands in slot 25. -/
theorem Dev.work_blockWrite (hd : d.dry = true) (slot o len : Nat) (hs : (isPf fn && slot == 25) = false) :
    (d.blockWrite fn slot o len v).work = d.work := by
  have fields : ((Reg.all.filter fun r => r.info.slot == slot && !r.commanded && (!d.dry || r.inDry)).foldl
      (fun d r => d.writeReg fn (wordsOf o len v) r) d).work = d.work := by
    refine Dev.work_foldl (fun r hr d => Dev.work_writeReg _ r ?_) d
    simp_all
  have hdry := Dev.dry_of_work hd fields
  simp only [Dev.blockWrite, hdry, hs, if_true, Bool.false_eq_true, if_false, apply_ite Dev.work, Dev.work_slcWrite,
    ite_self]
  exact fields

end Work

/-! ### Commands -/

section Commands
variable {i : Instr} {s : State} {f : Dev → Dev}

/-- In Dry a command that Dry stops leaves the device as it is. -/
theorem work_live (hd : s.dev.dry = true)
    (h : ∃ e : Dev, exec i s = if i.wf then .next { s with dev := if s.dev.dry then s.dev else e } else .next s) :
    ∃ d : Dev, exec i s = .next { s with dev := d } ∧ d.work = s.dev.work := by
  obtain ⟨e, he⟩ := h
  exact ⟨s.dev, by simp [he, hd], rfl⟩

/-- A command that Dry does not stop leaves the work where its change to the device does. -/
theorem work_always (m : Host.Outcome State Fault Refusal) (he : exec i s = m) (hm : m = always i s f)
    (hf : (f s.dev).work = s.dev.work) :
    ∃ d : Dev, exec i s = .next { s with dev := d } ∧ d.work = s.dev.work := by
  by_cases hw : i.wf = true
  · exact ⟨f s.dev, he.trans (hm.trans (always_ok hw)), hf⟩
  · exact ⟨s.dev, he.trans (hm.trans (always_bad (Bool.eq_false_iff.mpr hw))), rfl⟩

/-- In Dry, with the power stages behind it, a command leaves the work unless it is one that may leave Dry. -/
theorem work_exec (hd : s.dev.dry = true) (hstage : 3 ≤ s.dev.startup.stage) (hi : mayLeaveDry i = false) :
    ∃ d : Dev, exec i s = .next { s with dev := d } ∧ d.work = s.dev.work := by
  have hready : s.dev.ready = false := by simp_all [Dev.ready, Dev.dry]
  cases i
  case full | fullResetN | supplyLoss => cases hi
  case slcSend who sl seq =>
    exact work_always (execSlcSend who sl seq s) rfl rfl (Dev.work_ite rfl (Dev.work_send ..))
  case ppsEdge at_ =>
    refine work_always (execPpsEdge at_ s) rfl rfl ?_
    dsimp only
    split
    · exact Dev.work_timeMoved hd (Dev.work_ppsEdge.trans (Dev.work_advance at_))
    · exact Dev.work_advance at_
  case holdover at_ =>
    refine work_always (execHoldover at_ s) rfl rfl ?_
    dsimp only
    split <;> exact Dev.work_advance at_
  case stepHoldEnd at_ => exact work_always (execStepHoldEnd at_ s) rfl rfl (Dev.work_advance at_)
  case ref10mhz present => exact work_always (execRef10mhz present s) rfl rfl rfl
  case supplySwitch mvA mvB =>
    exact work_always (execSupplySwitch mvA mvB s) rfl rfl
      (Dev.work_ite (Dev.work_switchTo (d := s.dev.modPower _) hd _) rfl)
  case supplyReturn at_ =>
    have hdry : (s.dev.advance at_).dry = true := Dev.dry_of_work hd (Dev.work_advance at_)
    refine work_always (execSupplyReturn at_ s) rfl rfl ?_
    dsimp only
    split
    · exact Dev.work_advance at_
    · split
      · exact (Dev.work_switchTo hdry 1).trans (Dev.work_advance at_)
      · exact Dev.work_advance at_
  case inputInRange b mv =>
    refine work_always (execInputInRange b mv s) rfl rfl ?_
    split <;> rfl
  case flashCopy => exact work_always (execFlashCopy s) rfl rfl Dev.work_copyDone
  case coldReset at_ => exact work_always (execColdReset at_ s) rfl rfl (congrArg Dev.work (if_neg (by omega)))
  case powerGood mvA mvB => exact work_always (execPowerGood mvA mvB s) rfl rfl (congrArg Dev.work (if_neg (by omega)))
  case warm fn =>
    refine work_always (execWarm fn s) rfl rfl ?_
    simp only [Dev.warm, hready, Bool.false_eq_true, if_false, apply_ite Dev.work, Dev.work_setLkk, ite_self]
  case registerWrite fn off len data =>
    have msix := Dev.work_foldl (l := wordsOf (off - msixAt fn) len data.toNat)
      (f := fun d w => d.msixWrite fn w.1 w.2) (fun _ _ _ => Dev.work_msixWrite _) s.dev
    have block := Dev.work_blockWrite (v := data.toNat) hd (window fn off).1 (window fn off).2 len hi
    exact work_always (execRegisterWrite fn off len data s) rfl rfl (by simp only [apply_ite Dev.work, msix, block, hd, if_true, ite_self])
  case pcieRegAccess fn off len write =>
    have answered : (if write then s.dev else s.dev.emit (.pcieAnswer fn 1)).work = s.dev.work := Dev.work_ite rfl rfl
    exact work_always (execPcieRegAccess fn off len write s) rfl rfl (Dev.work_ite (Dev.work_ite rfl rfl)
      (Dev.work_ite (Dev.work_ite rfl rfl) ((congrArg Dev.work (if_pos (Dev.dry_of_work hd answered))).trans answered)))
  all_goals exact work_live hd ⟨_, rfl⟩

end Commands

end Sys2Proof.Machine

namespace Sys2Proof.Proofs
open Sys2Proof.Machine Sys2Proof.Claims

/-- Settles O59: every step from Dry leaves the work as it stands, and with it GEN_STATE. -/
theorem dryIsLeftOnlyByFullOrSupplyLoss : Obligations.DryIsLeftOnlyByFullOrSupplyLoss := by
  intro s t ⟨hd, hstage, hq⟩ hstep
  have ⟨hwork, hpending⟩ : t.dev.work = s.dev.work ∧ ∀ c ∈ t.pending, mayLeaveDry c = false := by
    cases h : s.pending with
    | nil =>
      simp only [step, h, Host.Outcome.next.injEq] at hstep
      subst hstep
      exact ⟨Dev.work_advance _, hq⟩
    | cons c r =>
      rw [h, List.forall_mem_cons] at hq
      obtain ⟨d, he, hw⟩ := work_exec (s := { s with pending := r }) hd hstage hq.1
      simp only [step, h, he, Host.Outcome.next.injEq] at hstep
      subst hstep
      exact ⟨hw, hq.2⟩
  refine ⟨⟨Dev.dry_of_work hd hwork, (Dev.startup_of_work hwork).symm ▸ hstage, hpending⟩, ?_⟩
  simp only [Dev.work, Prod.mk.injEq] at hwork
  exact hwork.2

end Sys2Proof.Proofs
end

section
/-!
PROOFS. Rings and orders (14 R323 to R335, R340): what a doorbell comes to, how a ring's control register starts, drains
and aborts it, and an order from its bytes over its fetch and dispatch to its completion.
-/
namespace Sys2Proof.Machine
open Sys2Proof.Claims

/-- A write of the host that its function's port takes does what its meaning m says. -/
theorem runs_of_hostAble {i : Instr} {s : State} {fn : Nat} {f : Dev → Dev} (h : HostAble fn i s)
    (m : Host.Outcome State Fault Refusal) (he : exec i s = m) (hm : m = hosted fn i s f) : Runs i s (f s.dev) := by
  obtain ⟨⟨hw, hd⟩, hf⟩ := h
  exact runs_of_hosted hd hf hw (he.trans hm)

/-! ### Doorbells -/

theorem Ring.rung_eq_false_iff {r : Ring} : r.rung = false ↔ r.state = .disabled ∨ r.state = .resetting := by
  cases h : r.state <;> simp [Ring.rung, h]

/-- What a doorbell comes to: a violation, a count beyond its ring, or the count. -/
theorem doorbell_outcomes {i : Instr} {s : State} {r : Ring} {far : Prop} [Decidable far] {violation error moved : Dev}
    (run : Runs i s (if !r.rung then violation else if r.state = .active ∧ far then error else moved)) :
    (r.state = .disabled ∨ r.state = .resetting → Runs i s violation) ∧
    (¬ (r.state = .disabled ∨ r.state = .resetting) → ¬ (r.state = .active ∧ far) → Runs i s moved) ∧
    (r.state = .active ∧ far → Runs i s error) := by
  simp only [← Ring.rung_eq_false_iff]
  refine ⟨fun h => run.congr (if_pos (by simp [h])), fun h hf => run.congr ((if_neg (by simp [h])).trans (if_neg hf)),
    fun hf => run.congr ((if_neg ?_).trans (if_pos hf))⟩
  simp [Ring.rung, hf.1]

/-! ### HIF_RING_CTL -/

section RingCtl
variable {d : Dev} {fn pair ctl : Nat}

/-- The registers that a write of HIF_RING_CTL stores (Table 14-15). -/
def Dev.storeRingCtl (d : Dev) (fn pair ctl : Nat) : Dev :=
  let q := ringKey fn pair
  let d := (d.putReg .hifIrqAll q (fld ctl 29 1)).putReg .hifHoldoff q (fld ctl 0 16)
  if vectorOk fn (fld ctl 16 11) then d.putReg .hifVector q (fld ctl 16 11) else d

theorem Dev.ring_storeRingCtl : (d.storeRingCtl fn pair ctl).ring fn pair = d.ring fn pair := by
  unfold Dev.storeRingCtl
  dsimp only
  split <;> rfl

/-- Ending a ring's orders leaves every ring. -/
theorem Dev.ring_endRing (status : Nat) (p : Order → Bool) : (d.endRing fn pair status p).ring fn pair = d.ring fn pair := by
  have ended (l : List Order) : ∀ d : Dev, (l.foldl (fun d o =>
      (d.endWait (.order o.id)).endOrder o.id status (srcRing (portOf fn)) false) d).rings = d.rings := by
    induction l with
    | nil => exact fun _ => rfl
    | cons o l ih => exact fun d => ih _
  exact congrArg (Tbl.get Ring.init · (ringKey fn pair)) (ended _ d)

/-- What the state of its ring makes of a write of HIF_RING_CTL, e being the device after ABORT. -/
theorem Dev.writeRingCtl_of_ring {e : Dev}
    (he : (if bit ctl 30 then (d.storeRingCtl fn pair ctl).abortRing fn pair else d.storeRingCtl fn pair ctl) = e) :
    ((e.ring fn pair).state = .disabled → bit ctl 31 = true → d.writeRingCtl fn pair ctl = e.putRing fn pair
      { Ring.init with
        state := .active, code := (e.ring fn pair).code, base := e.orphanBase fn pair
        lastFire := (e.ring fn pair).lastFire }) ∧
    ((e.ring fn pair).state = .active → bit ctl 31 = true → d.writeRingCtl fn pair ctl = e) ∧
    ((e.ring fn pair).state = .draining ∨ (e.ring fn pair).state = .resetting → d.writeRingCtl fn pair ctl = e) ∧
    ((e.ring fn pair).state = .active ∨ (e.ring fn pair).state = .error → bit ctl 31 = false →
      d.writeRingCtl fn pair ctl = ((e.abortRing fn pair).modRing fn pair fun r =>
        { r with state := .draining }).ringDrained fn pair) := by
  subst he
  refine ⟨fun hs h1 => ?_, fun hs h1 => ?_, fun hs => ?_, fun hs h1 => ?_⟩
  all_goals simp only [Dev.storeRingCtl] at hs ⊢
  · simp only [Dev.writeRingCtl, hs, h1, if_true, Dev.modRing]
  · simp only [Dev.writeRingCtl, hs, h1, if_true]
  · obtain hs | hs := hs <;> simp only [Dev.writeRingCtl, hs]
  · obtain hs | hs := hs <;> simp only [Dev.writeRingCtl, hs, h1, Bool.false_eq_true, if_false]

end RingCtl

/-! ### HIF_ERR_SIZE -/

/-- R333: LOG2 takes a value of its range while ENABLE is 0. -/
def Dev.storeErrLog2 (d : Dev) (fn v : Nat) : Dev :=
  if 4 ≤ fld v 0 5 ∧ fld v 0 5 ≤ 16 then d.putReg .hifErrLog2 fn (fld v 0 5) else d

theorem Dev.writeErrSize_of_enabled {d : Dev} {fn v : Nat} (h : d.reg .hifErrEnable fn = 1) :
    d.writeErrSize fn v = d.putReg .hifErrEnable fn (fld v 8 1) := if_pos h

theorem Dev.writeErrSize_of_disabled {d : Dev} {fn v : Nat} (h : d.reg .hifErrEnable fn = 0) :
    d.writeErrSize fn v = if bit v 8 then
      (((d.storeErrLog2 fn v).putReg .hifErrEnable fn 1).putReg .hifErrTail fn 0).putErr fn ErrRing.init
    else d.storeErrLog2 fn v := if_neg (by simp [h])

/-! ### Orders -/

section Orders
variable {d : Dev} {o : Order} {fn pair t : Nat}

theorem Dev.mayFetch_iff : d.mayFetch fn pair = true ↔
    d.ready = true ∧ (d.ring fn pair).state = .active ∧
      0 < w32 ((d.ring fn pair).hrTail + 2 ^ 32 - (d.ring fn pair).fetched) ∧
      w32 ((d.ring fn pair).hrTail + 2 ^ 32 - (d.ring fn pair).fetched) ≤ d.hrEntries fn pair ∧
      d.ringLive fn pair + w32 ((d.ring fn pair).written + 2 ^ 32 - (d.ring fn pair).trHead) < d.trEntries fn pair :=
  decide_eq_true_iff

/-- A dispatch changes nothing that the district of a context follows from. -/
theorem Dev.drainCode_of_dispatched (x : OrderId) (f : Order → Order) :
    ((d.endWait (.order x)).modOrder x f).drainCode o = d.drainCode o := rfl

/-- R335: the vector fires at once where the holdoff has passed. -/
theorem Dev.ringFire_of_due (hl : (d.ring fn pair).lastFire = some t)
    (hd : t + 1000 * d.reg .hifHoldoff (ringKey fn pair) ≤ d.time.osc) :
    d.ringFire fn pair = (d.putRing fn pair { d.ring fn pair with lastFire := some d.time.osc, deferred := false }).fire fn
      (d.reg .hifVector (ringKey fn pair)) := by
  simp only [Dev.ringFire, hl, ge_iff_le, hd, decide_true, if_true]
  rfl

end Orders

/-! ### The bytes of an order -/

theorem length_le (k : Nat) : ∀ n, (le k n).length = k := by
  induction k with
  | zero => exact fun _ => rfl
  | succ k ih => exact fun n => congrArg Nat.succ (ih _)

theorem ofLe_le (k : Nat) : ∀ n, n < 256 ^ k → ofLe (le k n) = n := by
  induction k with
  | zero => exact fun n h => by simp_all [ofLe, le]
  | succ k ih =>
    intro n h
    have hn : n / 256 < 256 ^ k := Nat.div_lt_of_lt_mul (by rwa [Nat.mul_comm, ← Nat.pow_succ])
    simp only [le, ofLe, ih _ hn, BitVec.toNat_ofNat]
    omega

section Fields
variable {k o n j : Nat} {r : Bytes}

/-- The field at the front of bytes. -/
theorem leAt_le_append (h : n < 256 ^ k) : leAt (le k n ++ r) 0 k = n := by
  simp [leAt, List.take_left' (length_le k n), ofLe_le k n h]

theorem drop_le_append (h : k ≤ o) : (le k n ++ r).drop o = r.drop (o - k) := by
  simp [List.drop_append, length_le, h]

/-- A field behind the front one. -/
theorem leAt_le_append_of_le (h : k ≤ o) : leAt (le k n ++ r) o j = leAt r (o - k) j := by
  rw [leAt, leAt, drop_le_append h]

end Fields

end Sys2Proof.Machine

namespace Sys2Proof.Proofs
open Sys2Proof.Machine Sys2Proof.Claims

/-- Settles O3: either doorbell is a violation, an error of its ring or its count. -/
theorem doorbellsMoveTheirCountsOrFault : Obligations.DoorbellsMoveTheirCountsOrFault := by
  intro s fn pair v
  refine ⟨fun h => ?tail, fun h => ?head, fun page off len h => ?malformed⟩
  case tail => exact doorbell_outcomes (runs_of_hostAble h (execHrTail fn pair v s) rfl rfl)
  case head => exact doorbell_outcomes (runs_of_hostAble h (execTrHead fn pair v s) rfl rfl)
  case malformed => exact runs_of_hostAble h (execPcieDoorbell fn page off len s) rfl rfl

/-- Settles O4: each command acts on the order or the fire that waits for it. -/
theorem ordersAreFetchedDispatchedAndCompleted : Obligations.OrdersAreFetchedDispatchedAndCompleted := by
  intro s fn pair
  refine ⟨fun bytes ⟨hw, hd⟩ => ?fetch, fun o ⟨hw, hd⟩ hf hup hc hwait hfence hmay hdrain => ?dispatch,
    fun o ⟨hw, hd⟩ ho hp horphan => ?complete, fun at_ t ⟨hw, hd⟩ => ?holdoff⟩
  case fetch =>
    have fetch := runs_of_meaning hd hw (execOrderFetch fn pair bytes s) rfl rfl
    exact fun hready hactive hahead hroom hlive =>
      fetch.congr (if_neg (by simp [Dev.mayFetch_iff.mpr ⟨hready, hactive, hahead, hroom, hlive⟩]))
  case dispatch =>
    have dispatch := runs_of_meaning hd hw (execOrderDispatch fn pair s) rfl rfl
    simp only [hf, hup, hc, hwait, hfence, hmay, Bool.and_self, if_true, Dev.drainCode_of_dispatched, hdrain] at dispatch
    exact dispatch
  case complete =>
    have complete := runs_of_meaning hd hw (execOrderComplete o.id s) rfl rfl
    simp only [ho, hp, if_true, Dev.complete, horphan, Bool.false_eq_true, if_false] at complete
    exact complete
  case holdoff =>
    have expiry := runs_of_meaning hd hw (execHoldoffExpiry fn pair at_ s) rfl rfl
    exact fun hdef hl hdue =>
      expiry.congr ((if_pos (by simpa [hdef, hl] using hdue)).trans (Dev.ringFire_of_due hl hdue))

/-- Settles O5: each field is read behind the fields before it. -/
theorem orderHeaderStandsAsTable14_3 : Obligations.OrderHeaderStandsAsTable14_3 := by
  intro id mark op flags cond rsvd ctx rsvd2 tag uj wait sig sigV waitV body hbody hop hflags hcond hrsvd hctx hrsvd2 htag
    huj hwait hsig hsigV hwaitV
  simp (disch := omega) [parseOrder, leAt_le_append, leAt_le_append_of_le, drop_le_append, length_le, hbody, zeros,
    List.take_of_length_le]

/-- Settles O6: each write stores its registers first, and then acts by the state the ring stands in. -/
theorem ringControlStartsDrainsAndAborts : Obligations.RingControlStartsDrainsAndAborts := by
  intro s fn pair ctl
  have stored : (s.dev.storeRingCtl fn pair ctl.toNat).ring fn pair = s.dev.ring fn pair := Dev.ring_storeRingCtl
  have steered (h0 : bit ctl.toNat 30 = false) :=
    Dev.writeRingCtl_of_ring (d := s.dev) (fn := fn) (pair := pair) (if_neg (Bool.eq_false_iff.mp h0))
  simp only [stored] at steered
  refine ⟨fun h h1 h0 hs => ?starts, fun h h1 h0 hs => ?ignored, fun h h1 h0 hs => ?drains, fun h h1 h0 hs => ?aborts,
    fun v h he => ?enables, fun v h he => ?keeps⟩
  case starts =>
    obtain ⟨starts, -⟩ := steered h0
    exact (runs_of_hostAble h (execRingEnable fn pair _ s) rfl rfl).congr (starts hs h1)
  case ignored =>
    obtain ⟨-, -, ignored, -⟩ := steered h0
    exact (runs_of_hostAble h (execRingEnable fn pair _ s) rfl rfl).congr (ignored hs)
  case drains =>
    obtain ⟨-, -, -, drains⟩ := steered h0
    exact (runs_of_hostAble h (execRingDisable fn pair _ s) rfl rfl).congr (drains hs h1)
  case aborts =>
    obtain ⟨-, aborts, -⟩ := Dev.writeRingCtl_of_ring (d := s.dev) (fn := fn) (pair := pair) (if_pos h0)
    rw [Dev.abortRing, Dev.ring_endRing, stored] at aborts
    exact (runs_of_hostAble h (execAbort fn pair _ s) rfl rfl).congr (aborts hs h1)
  case enables =>
    exact (runs_of_hostAble h (execErrorRingEnable fn v s) rfl rfl).congr (Dev.writeErrSize_of_disabled he)
  case keeps =>
    exact (runs_of_hostAble h (execErrorRingEnable fn v s) rfl rfl).congr (Dev.writeErrSize_of_enabled he)

end Sys2Proof.Proofs
end

section
/-!
PROOFS. Sluices (14 R336 to R339): message writes and sends, what a receiver takes, and the timeout.
-/
namespace Sys2Proof.Machine
open Sys2Proof.Claims

/-- A command that Dry does not stop does what its meaning m says. -/
theorem runs_of_always {i : Instr} {s : State} {f : Dev → Dev} (hw : i.wf = true)
    (m : Host.Outcome State Fault Refusal) (he : exec i s = m) (hm : m = always i s f) : Runs i s (f s.dev) :=
  (he.trans hm).trans (always_ok hw)

section Sluices
variable {d : Dev} {who sl k seq code v : Nat}

/-! ### The sender -/

theorem Dev.msgWrite_of_unbound (len : Nat) (hb : (d.sluice sl).bound who = false) :
    d.msgWrite who sl k len v = d.sluiceRecord who 0x0413 := by
  simp [Dev.msgWrite, hb]

theorem Dev.msgWrite_of_full (len : Nat) (hb : (d.sluice sl).bound who = true) (hf : (d.sluice sl).full = true) :
    d.msgWrite who sl k len v = d.misuse who sl 0x0411 := by
  simp [Dev.msgWrite, hb, hf]

section Empty
variable (hb : (d.sluice sl).bound who = true) (hf : (d.sluice sl).full = false)
include hb hf

theorem Dev.msgWrite_word : d.msgWrite who sl k 4 v =
    d.putSluice sl { d.sluice sl with msg := (d.sluice sl).msg.set k (v % 2 ^ 32) } := by
  simp [Dev.msgWrite, hb, hf, fld]

theorem Dev.msgWrite_pair : d.msgWrite who sl k 8 v =
    d.putSluice sl { d.sluice sl with
      msg := ((d.sluice sl).msg.set k (v % 2 ^ 32)).set (k + 1) (v / 2 ^ 32 % 2 ^ 32) } := by
  simp [Dev.msgWrite, hb, hf, fld]

/-- R338: a header that no message has. -/
def Sluice.badHeader (x : Sluice) : Prop := 60 < x.length ∨ x.command = 0

theorem Dev.send_of_bad (h : (d.sluice sl).badHeader) : d.send who sl seq =
    (d.putSluice sl { d.sluice sl with ackCode := 0x0412, ackSeq := seq % 256 }).fireSluice (d.sluice sl).sender := by
  simp only [Dev.send, hb, hf, Bool.not_true, Bool.false_eq_true, if_false]
  exact if_pos h

theorem Dev.send_of_down (h : ¬ (d.sluice sl).badHeader) (hd : d.receiverDown (d.receiverOf (d.sluice sl)) = true) :
    d.send who sl seq =
      (d.putSluice sl { d.sluice sl with ackCode := 0x0201, ackSeq := seq % 256 }).fireSluice (d.sluice sl).sender := by
  simp only [Dev.send, hb, hf, hd, Bool.not_true, Bool.false_eq_true, if_false, if_true]
  exact if_neg h

theorem Dev.send_of_up (h : ¬ (d.sluice sl).badHeader) (hd : d.receiverDown (d.receiverOf (d.sluice sl)) = false) :
    d.send who sl seq =
      (d.putSluice sl { d.sluice sl with seq := seq % 256, full := true, sentAt := d.time.osc }).emit
        (.sluiceReceiver sl) := by
  simp only [Dev.send, hb, hf, hd, Bool.not_true, Bool.false_eq_true, if_false]
  exact if_neg h

end Empty

theorem Dev.send_of_unbound (hb : (d.sluice sl).bound who = false) : d.send who sl seq = d.sluiceRecord who 0x0413 := by
  simp [Dev.send, hb]

theorem Dev.send_of_full (hb : (d.sluice sl).bound who = true) (hf : (d.sluice sl).full = true) :
    d.send who sl seq = d.misuse who sl 0x0410 := by
  simp [Dev.send, hb, hf]

/-- R339: in Dry no receiver takes a message. -/
theorem Dev.receiverDown_of_dry (hd : d.dry = true) (r : Nat) : d.receiverDown r = true := by
  simp [Dev.receiverDown, hd]

/-! ### The receiver -/

theorem Dev.take_of_empty (hf : (d.sluice sl).full = false) (code : Nat) : d.take sl code = d := by
  simp [Dev.take, hf]

theorem Dev.take_of_full (hf : (d.sluice sl).full = true) (hc : code ≠ 3) : d.take sl code =
    (d.putSluice sl { d.sluice sl with lastTaken := some ((d.sluice sl).seq, (d.sluice sl).msg) }).ack sl code := by
  simp [Dev.take, hf, hc]

/-- A duplicate leaves what was last taken. -/
theorem Dev.take_duplicate (hf : (d.sluice sl).full = true) :
    d.take sl 3 = (d.putSluice sl (d.sluice sl)).ack sl 3 := if_neg (by simp [hf])

/-- A code of the master table's refusals. -/
def isRefusal (code : Nat) : Bool := refusalCodes.any fun r => decide (r.1 ≤ code ∧ code ≤ r.2)

theorem ne_of_isRefusal {n : Nat} (h : isRefusal code = true) (hn : isRefusal n = false) : code ≠ n := by
  rintro rfl
  exact absurd h (ne_true_of_eq_false hn)

/-- R337: the Lockkeeper knows its own commands. -/
theorem Sluice.known_of_lockkeeper {x : Sluice} (hr : x.receiver = 0x600) (hlo : 0x0101 ≤ x.command)
    (hhi : x.command ≤ 0x0105) : x.known = true := by
  simp [Sluice.known, hr, hlo, hhi, idLkk]

/-! ### What an advance of time leaves -/

theorem Dev.sluice_advance (d : Dev) (at_ : Nat) : (d.advance at_).sluice sl = d.sluice sl := by
  unfold Dev.advance
  split <;> rfl

theorem Dev.reg_advance (d : Dev) (at_ : Nat) (r : Reg) (i : Nat) : (d.advance at_).reg r i = d.reg r i := by
  unfold Dev.advance
  split <;> rfl

/-- R339: a clear of a FULL Sluice. -/
theorem Dev.clearSluice_of_full (hf : (d.sluice sl).full = true) (src : Nat) : d.clearSluice sl src =
    ((d.putSluice sl { d.sluice sl with full := false, ackCode := 0x0201, ackSeq := (d.sluice sl).seq }).fireSluice
      (d.sluice sl).sender).siltEv src 0x0008 0x0201 0 0 (pack16 [sl, (d.sluice sl).seq]) := if_pos hf

end Sluices

end Sys2Proof.Machine

namespace Sys2Proof.Proofs
open Sys2Proof.Machine Sys2Proof.Claims

/-- Settles O7: a write or a SEND is decided by its sender, by whether the Sluice holds a message, and a SEND then by the
message's header and its receiver. -/
theorem sluiceWritesAndSendsFollowR338 : Obligations.SluiceWritesAndSendsFollowR338 := by
  intro s who sl
  refine fun hdeaf hwho hsl => ?_
  refine ⟨fun k len v hd hk hlen => ?write, fun seq => ?send, fun hd hb => ?unbound,
    fun hd hb => ?bound⟩
  all_goals have hw : (masterOk who && sluiceOk sl) = true := by simp [masterOk, sluiceOk, hwho, hsl]
  case write =>
    have hwf : (Instr.slcMsgWrite who sl k len v).wf = true := by
      obtain rfl | rfl := hlen <;> simp [Instr.wf, hw, slcWordOk, hk, lenOk]
    have write := runs_of_meaning hd hwf (execSlcMsgWrite who sl k len v s) rfl rfl
    simp only [hdeaf, Bool.false_eq_true, if_false] at write
    refine ⟨fun h8 hodd => write.congr (if_pos ⟨h8, hodd⟩), fun h hb => ?_, fun h hb hf => ?_, fun hb hf h4 => ?_,
      fun hb hf h8 heven => ?_⟩
    all_goals replace write := write.congr (if_neg (by omega))
    · exact write.congr (Dev.msgWrite_of_unbound len hb)
    · exact write.congr (Dev.msgWrite_of_full len hb hf)
    · exact write.congr (h4 ▸ Dev.msgWrite_word hb hf)
    · exact write.congr (h8 ▸ Dev.msgWrite_pair hb hf)
  case send =>
    have send := runs_of_always (i := .slcSend who sl seq) hw (execSlcSend who sl seq s) rfl rfl
    rw [hdeaf] at send
    exact ⟨fun hb => send.congr (Dev.send_of_unbound hb), fun hb hf => send.congr (Dev.send_of_full hb hf),
      fun hb hf h => send.congr (Dev.send_of_bad hb hf h), fun hb hf h hr => send.congr (Dev.send_of_down hb hf h hr),
      fun hd => Dev.receiverDown_of_dry hd _, fun hb hf h hr => send.congr (Dev.send_of_up hb hf h hr)⟩
  all_goals
    have unbound := runs_of_meaning (i := .sluiceUnbound who sl) hd hw (execSluiceUnbound who sl s) rfl rfl
    rw [hb, hdeaf] at unbound
    exact unbound

/-- Settles O8: PING is taken by every receiver, and of the other commands only the Lockkeeper's are known; a message that
stands past its timeout is cleared. -/
theorem sluiceTakesAndTimeoutsAcknowledge : Obligations.SluiceTakesAndTimeoutsAcknowledge := by
  intro s sl code at_
  refine fun hd hsl => ?_
  have hw : sluiceOk sl = true := decide_eq_true hsl
  have ping := runs_of_meaning (i := .ping sl) hd hw (execPing sl s) rfl rfl
  have take := runs_of_meaning (i := .sluiceTake sl code) hd hw (execSluiceTake sl code s) rfl rfl
  have timeout := runs_of_meaning (i := .sluiceTimeout sl at_) hd hw (execSluiceTimeout sl at_ s) rfl rfl
  refine ⟨fun hf hc hl => ?ping, fun hf hp hlkk => ?unknown, fun hf ⟨hr, hlo, hhi⟩ hlast => ?duplicate,
    fun hf ⟨hr, hlo, hhi⟩ hlast => ?refusal, fun hf => ?empty, ?timeout⟩
  case ping =>
    have taken := Dev.take_of_full hf (code := 1) (by decide)
    have hknown : (s.dev.sluice sl).known = true := by simp [Sluice.known, hc, hl]
    simp only [hknown, hc, Bool.not_true, Bool.false_eq_true, if_false, if_true] at take
    exact ⟨ping.congr ((if_pos ⟨hc, hl⟩).trans taken), take.congr taken⟩
  case unknown =>
    have hknown : (s.dev.sluice sl).known = false := by simpa [Sluice.known, idLkk] using And.intro (not_and.mp hp) hlkk
    simp only [hknown, Bool.not_false, if_true] at take
    exact take.congr (Dev.take_of_full hf (by decide))
  case duplicate =>
    simp only [Sluice.known_of_lockkeeper hr hlo hhi, Sluice.duplicate, hlast, beq_self_eq_true, Bool.not_true, Bool.false_eq_true, if_true,
      if_false, if_neg (show (s.dev.sluice sl).command ≠ 1 by omega)] at take
    exact take.congr (Dev.take_duplicate hf)
  case refusal =>
    simp only [Sluice.known_of_lockkeeper hr hlo hhi, Sluice.duplicate, beq_eq_false_iff_ne.mpr hlast, Bool.not_true, Bool.false_eq_true,
      if_false, if_neg (show (s.dev.sluice sl).command ≠ 1 by omega)] at take
    exact ⟨fun h => (take.congr (if_pos h)).congr (Dev.take_of_full hf (ne_of_isRefusal h (by decide))),
      fun h => take.congr (if_neg h)⟩
  case empty =>
    simp only [Dev.take_of_empty hf, ite_self] at ping take
    exact ⟨ping, take⟩
  case timeout =>
    have hx := s.dev.sluice_advance (sl := sl) at_
    simp only [hx, Dev.reg_advance, Bool.and_eq_true, decide_eq_true_eq, ge_iff_le] at timeout
    refine ⟨fun hf hdue => timeout.congr ((if_pos ⟨hf, hdue⟩).trans ?_), fun h => timeout.congr (if_neg h)⟩
    have cleared := Dev.clearSluice_of_full (d := s.dev.advance at_) (hx ▸ hf)
    rw [hx] at cleared
    exact cleared _

end Sys2Proof.Proofs
end

section
/-!
PROOFS. The PCIe ports (14 R322, R340, Table 14-12; 16 R378; 18 R419): violations by the partner, reads of the host that
fail, and the resets of functions and ports.
-/
namespace Sys2Proof.Machine
open Sys2Proof.Claims

/-! ### Reads of the host that fail -/

section Reads
variable {d : Dev} {x : Order}

/-- R340: a transfer that reads the host ends with the code of its read. -/
theorem Dev.readFails_of_source (code : Nat) (ho : d.order? x.id = some x) (hop : x.opcode = opDma)
    (hp : x.phase = .running) (hs : (dmaFields x.body).srcHost = true) :
    d.readFails (.order x.id) code = settled (d.failOrder x.id code (srcDma (engineOf (portOf x.id.fn)))) x.ctx := by
  simp only [Dev.readFails, ho, hop, hp, hs, true_and, if_true]
  rfl

theorem Dev.readFails_of_fetch {fn pair : Nat} (code : Nat) (h : d.mayFetch fn pair = true) :
    d.readFails (.ringFetch fn pair) code = (d.ringError fn pair code).pump := if_pos h

end Reads

/-! ### Resets -/

theorem Dev.startedUp_iff {d : Dev} (hd : d.dry = false) :
    d.startedUp = true ↔ d.startup.gen = .ready ∨ d.startup.gen = .recovery := by
  cases h : d.startup.gen <;> simp_all [Dev.startedUp, Dev.dry]

theorem Dev.portDown_of_started {d : Dev} (port : Nat) (perst : Bool) (h : d.startedUp = true) :
    d.portDown port perst = (((d.resetVfs port).resetPf port).pump).modPort port fun p =>
      { p with linkUp := false, retry := false, perstReleased := p.perstReleased && !perst } :=
  congrArg (Dev.modPort · port _) (if_pos h)

theorem Dev.portDown_of_starting {d : Dev} (port : Nat) (perst : Bool) (h : ¬ d.startedUp = true) :
    d.portDown port perst = d.modPort port fun p =>
      { p with linkUp := false, retry := false, perstReleased := p.perstReleased && !perst } :=
  congrArg (Dev.modPort · port _) (if_neg h)

theorem Tbl.get_filter_of_dropped {α : Type} {d : α} {p : Nat × α → Bool} {i : Nat} (h : ∀ v, p (i, v) = false) :
    ∀ t : Tbl α, Tbl.get d (t.filter p) i = d := by
  intro t
  induction t with
  | nil => rfl
  | cons e r ih =>
    by_cases hp : p e = true
    · have hi : e.1 ≠ i := by
        rintro rfl
        exact absurd hp (ne_true_of_eq_false (h e.2))
      simp [hp, Tbl.get, hi, ih]
    · simp [hp, ih]

/-- R322: every entry of the function's MSI-X table is as after a reset. -/
theorem Dev.msix_resetMsix (d : Dev) (t v : Nat) :
    Tbl.get MsixEnt.init (d.resetMsix t).msix (2048 * t + v % 2048) = MsixEnt.init :=
  Tbl.get_filter_of_dropped (fun _ => by simp; omega) d.msix

/-- R339: a discarded message leaves the contexts. -/
theorem Dev.ctxs_dropSent (d : Dev) (who : Nat) : (d.dropSent who).ctxs = d.ctxs := by
  have dropped (l : List (Nat × Sluice)) : ∀ d : Dev,
      (l.foldl (fun d q => d.putSluice q.1 { q.2 with full := false }) d).ctxs = d.ctxs := by
    induction l with
    | nil => exact fun _ => rfl
    | cons q l ih => exact fun d => ih _
  exact dropped _ d

section Vf
variable {d : Dev} {t : Nat}

theorem Dev.stopRings_vf (ht : t < 1024) (st : RingState) : d.stopRings t st =
    ((((List.range 8).foldl (fun d p => d.putRing t p { Ring.init with state := st }) d).setOrders
      (((List.range 8).foldl (fun d p => d.putRing t p { Ring.init with state := st }) d).orders.map fun o =>
        if o.id.fn = t then { o with orphan := true } else o)).putReg .hifErrEnable t 0) := by
  have hp : pairsOf t = 8 := if_neg (by simp [isPf]; omega)
  simp only [Dev.stopRings, hp]

/-- The context's state, as the reset finds it, decides how it goes. -/
theorem Dev.ctx_dropSent_resetMsix : ((d.dropSent t).resetMsix t).ctx t = d.ctx t :=
  congrArg (Tbl.get Ctx.init · t) (d.ctxs_dropSent t)

theorem Dev.resetVf_of_absent (hs : (d.ctx t).state = .absent) :
    d.resetVf t = ((d.dropSent t).resetMsix t).stopRings t .disabled := by
  simp only [Dev.resetVf, Dev.ctx_dropSent_resetMsix, hs]

theorem Dev.resetVf_of_faulted (hs : (d.ctx t).state = .faulted) :
    d.resetVf t = (((d.dropSent t).resetMsix t).stopRings t .disabled).resetCtx t := by
  simp only [Dev.resetVf, Dev.ctx_dropSent_resetMsix, hs]

/-- R322, 13 R316: the context is torn down. -/
theorem Dev.resetVf_of_live (hs : (d.ctx t).state = .idle ∨ (d.ctx t).state = .swapped ∨ (d.ctx t).state = .runnable ∨
      (d.ctx t).state = .blocked ∨ (d.ctx t).state = .draining) :
    d.resetVf t = ((((d.dropSent t).resetMsix t).stopRings t .resetting).teardown t 0 none .idle).modCtx t fun x =>
      { x with flrWaiting := true } := by
  obtain hs | hs | hs | hs | hs := hs <;> simp only [Dev.resetVf, Dev.ctx_dropSent_resetMsix, hs]

/-- A teardown in progress ends in IDLE, also where it would have ended in FAULTED. -/
theorem Dev.resetVf_of_teardown (hs : (d.ctx t).state = .teardown) :
    d.resetVf t = (((d.dropSent t).resetMsix t).stopRings t .resetting).modCtx t fun x => { x with
      afterTeardown := if x.afterTeardown = .faulted then .idle else x.afterTeardown, flrWaiting := true
      unfault := x.unfault || x.afterTeardown == .faulted } := by
  have ended (x : Ctx) : (match x.afterTeardown with | .faulted => CtxState.idle | z => z) =
      if x.afterTeardown = .faulted then .idle else x.afterTeardown := by
    cases x.afterTeardown <;> rfl
  simp only [Dev.resetVf, Dev.ctx_dropSent_resetMsix, hs]
  exact congrArg (Dev.modCtx _ t) (funext fun (x : Ctx) => congrArg (fun z => { x with
    afterTeardown := z, flrWaiting := true, unfault := x.unfault || x.afterTeardown == CtxState.faulted }) (ended x))

end Vf

end Sys2Proof.Machine

namespace Sys2Proof.Proofs
open Sys2Proof.Machine Sys2Proof.Claims

/-- Settles O9: a violation is answered where the partner waits for an answer, and recorded; a failed read ends its ring's
fetch or its order. -/
theorem pcieViolationsAreAnswered : Obligations.PcieViolationsAreAnswered := by
  intro s fn pair
  refine ⟨fun ⟨hw, hd⟩ => ?miss, fun ⟨hw, hd⟩ => ?malformed, fun off len hd hfn hlen hf => ?misaligned,
    fun off len hfn hlen ha => ?aligned, fun ⟨hw, hd⟩ hm => ?fetch, fun x ⟨hw, hd⟩ ho hop hp => ?order⟩
  case miss =>
    have miss := runs_of_meaning hd hw (execPcieBarMiss fn s) rfl rfl
    exact miss
  case malformed =>
    have malformed := runs_of_meaning hd hw (execPcieMalformed fn s) rfl rfl
    exact malformed
  case misaligned =>
    have access (write : Bool) := runs_of_always (i := .pcieRegAccess fn off len write) (decide_eq_true hfn)
      (execPcieRegAccess fn off len write s) rfl rfl
    have written := (access true).congr ((if_neg hlen).trans (if_neg (ne_true_of_eq_false hf)))
    have read := (access false).congr ((if_neg hlen).trans (if_neg (ne_true_of_eq_false hf)))
    exact ⟨written.congr (if_neg (ne_true_of_eq_false hd)), read.congr (if_neg (ne_true_of_eq_false hd))⟩
  case aligned =>
    exact (runs_of_always (i := .pcieRegAccess fn off len false) (decide_eq_true hfn)
      (execPcieRegAccess fn off len false s) rfl rfl).congr (if_pos ⟨hlen, ha⟩)
  case fetch =>
    have timeout := runs_of_meaning (i := .pcieCplTimeout (.ringFetch fn pair)) hd hw (execPcieCplTimeout _ s) rfl rfl
    have error := runs_of_meaning (i := .pcieCplError (.ringFetch fn pair)) hd hw (execPcieCplError _ s) rfl rfl
    exact ⟨timeout.congr (Dev.readFails_of_fetch _ hm), error.congr (Dev.readFails_of_fetch _ hm)⟩
  case order =>
    have timeout := runs_of_meaning (i := .pcieCplTimeout (.order x.id)) hd hw (execPcieCplTimeout _ s) rfl rfl
    have error := runs_of_meaning (i := .pcieCplError (.order x.id)) hd hw (execPcieCplError _ s) rfl rfl
    refine ⟨fun hs => ⟨timeout.congr (Dev.readFails_of_source _ ho hop hp hs),
      error.congr (Dev.readFails_of_source _ ho hop hp hs)⟩, fun hh => ?_⟩
    have ats := runs_of_meaning (i := .pcieAts x.id) hd hw (execPcieAts x.id s) rfl rfl
    simp only [ho] at ats
    exact ats.congr_settled (if_pos ⟨hop, hp, hh⟩)

/-- Settles O10: the resets are what their rows say; a port's functions are reset where start-up is over. -/
theorem functionsAndPortsResetAndComeUp : Obligations.FunctionsAndPortsResetAndComeUp := by
  intro s t port refclk
  have ofVf (h : Able (.vfFunctionLevelReset t) s) := runs_of_meaning h.2 h.1 (execVfFunctionLevelReset t s) rfl rfl
  have ofPf (h : Able (.pfFunctionLevelReset port) s) := runs_of_meaning h.2 h.1 (execPfFunctionLevelReset port s) rfl rfl
  have ofVfs (h : Able (.vfEnableClear port) s) := runs_of_meaning h.2 h.1 (execVfEnableClear port s) rfl rfl
  refine ⟨ofVf, ofPf, ofVfs, fun hd hp => ?_⟩
  have hw : portOk port = true := decide_eq_true hp
  have perst := runs_of_meaning (i := .perstAssert port) hd hw (execPerstAssert port s) rfl rfl
  have down := runs_of_meaning (i := .linkDown port) hd hw (execLinkDown port s) rfl rfl
  have linked := runs_of_meaning (i := .pcieLinkUp port) hd hw (execPcieLinkUp port s) rfl rfl
  have released := runs_of_meaning (i := .perstRelease port refclk) hd hw (execPerstRelease port refclk s) rfl rfl
  have started := Dev.startedUp_iff hd
  refine ⟨fun up => ⟨perst.congr (Dev.portDown_of_started port true (started.mpr up)),
      down.congr (Dev.portDown_of_started port false (started.mpr up))⟩,
    fun up => ⟨perst.congr (Dev.portDown_of_starting port true (up ∘ started.mp)),
      down.congr (Dev.portDown_of_starting port false (up ∘ started.mp))⟩,
    released, fun hr hu hs => linked.congr (if_pos ⟨hr, hu, hs⟩)⟩

/-- Settles O11: the rings stop in the state that the context's state asks for, and the context is torn down or left. -/
theorem virtualFunctionResetStopsItsRings : Obligations.VirtualFunctionResetStopsItsRings := by
  intro d t ht
  have stopped := Dev.stopRings_vf (d := (d.dropSent t).resetMsix t) ht
  refine ⟨fun v => Dev.msix_resetMsix _ t v, fun hs => ?_, fun hs => ?_, fun hs => ?_, fun hs => ?_⟩
  · rw [Dev.resetVf_of_absent hs, stopped]
  · rw [Dev.resetVf_of_live hs, stopped]
  · rw [Dev.resetVf_of_teardown hs, stopped]
  · rw [Dev.resetVf_of_faulted hs, stopped]

end Sys2Proof.Proofs
end

section
/-!
PROOFS. The Security block (15 R346, R349 to R359): the commands of a function that has none in progress, and of one that
has, and the choice of a firmware slot.
-/
namespace Sys2Proof.Machine
open Sys2Proof.Claims

section Commands
variable {d e : Dev} {fn op k code : Nat} {flash : Bool} {bytes : Bytes}

/-! ### A function with a command in progress -/

section Busy
variable (hr : d.secRunning fn ≠ 0)
include hr

theorem Dev.secQueue_of_busy : d.secQueue fn op flash = d.secCode fn 0x050B := if_pos hr
theorem Dev.secFloor_of_busy : d.secFloor fn flash = d.secCode fn 0x050B := if_pos hr
theorem Dev.secRotate_of_busy : d.secRotate fn k flash = d.secCode fn 0x050B := if_pos hr

theorem Dev.secObject_of_busy (ho : d.secRunning fn ≠ op) : d.secObject fn op bytes flash = d.secCode fn 0x050B := by
  simp only [Dev.secObject, if_neg hr, if_neg ho, if_pos hr]

end Busy

/-! ### Objects -/

theorem Dev.secRunning_secEnd : (d.secEnd fn code).secRunning fn = 0 :=
  (Tbl.get_set_same : Tbl.get 0 (Tbl.set 0 d.sec.running fn 0) fn = 0)

/-- R354, R359: a command that is refused before its object is read. -/
theorem Dev.secObject_of_refused (hr : d.secRunning fn = 0) (hs : d.secStart fn = code) (hc : code ≠ 0) (hop : op ≠ 0) :
    d.secObject fn op bytes flash = d.secEnd fn code := by
  have hread : d.secRead fn op = d.secEnd fn code := by
    simp only [Dev.secRead, hr, hs, hc, ne_eq, not_true, not_false_eq_true, if_true, if_false]
  simp only [Dev.secObject, if_pos hr, hread, Dev.secRunning_secEnd, if_neg (Ne.symm hop), ne_eq, not_true, if_false]

/-- A command that reads an object is in progress from now on, with the length that SEC_IN_LEN gives it. -/
def Dev.secReading (d : Dev) (fn op : Nat) : Dev :=
  d.modSec fun x => { x with
    running := Tbl.set 0 x.running fn op, inLen := Tbl.set 0 x.inLen fn (d.reg .secInLen fn) }

theorem Dev.secRunning_secReading : (d.secReading fn op).secRunning fn = op :=
  (Tbl.get_set_same : Tbl.get 0 (Tbl.set 0 d.sec.running fn op) fn = op)

theorem Dev.secRead_of_accepted (hr : d.secRunning fn = 0) (hfn : isPf fn = true) (hs : d.surveyHeld = false)
    (hl : d.reg .secInLen fn ≠ 0) : d.secRead fn op = d.secReading fn op := by
  simp [Dev.secRead, Dev.secStart, hr, hfn, hs, hl, Dev.secReading]

/-- The device e from which the object of a function's command is taken: one command of its OP is in progress, whether it
was before or is written now. -/
def Dev.secReads (d e : Dev) (fn op : Nat) : Prop :=
  (d.secRunning fn = op ∧ op ≠ 0 ∧ e = d) ∨ (d.secRunning fn = 0 ∧ isPf fn = true ∧ d.surveyHeld = false ∧
    d.reg .secInLen fn ≠ 0 ∧ e = d.secReading fn op)

theorem Dev.flash_of_secReads (h : d.secReads e fn op) : e.sec.flash = d.sec.flash := by
  obtain ⟨-, -, rfl⟩ | ⟨-, -, -, -, rfl⟩ := h <;> rfl

/-- R354: the object that has been read decides how its command ends. -/
theorem Dev.secObject_of_secReads (h : d.secReads e fn op) : d.secObject fn op bytes flash =
    let bs := bytes.take (Tbl.get 0 e.sec.inLen fn)
    let r := if op = 3 then e.installPolicy bs flash else e.transferOwner bs flash
    r.2.secEnd fn r.1 := by
  obtain ⟨hr, hop, rfl⟩ | ⟨hr, hfn, hs, hl, rfl⟩ := h
  · simp only [Dev.secObject, hr, if_neg hop, if_true]
  · simp only [Dev.secObject, if_pos hr, Dev.secRead_of_accepted hr hfn hs hl, Dev.secRunning_secReading, if_true]

end Commands

/-- The checks of an ownership record are made against the flash. -/
theorem Dev.ownerCode_congr {d e : Dev} (h : e.sec.flash = d.sec.flash) (r : Bytes) : e.ownerCode r = d.ownerCode r := by
  simp only [Dev.ownerCode, h]

/-! ### Firmware images -/

/-- One check in a row of checks is passed. -/
theorem check_eq_zero_iff {c : Prop} [Decidable c] {n rest : Nat} (hn : n ≠ 0) :
    (if c then n else rest) = 0 ↔ ¬ c ∧ rest = 0 := by
  by_cases hc : c <;> simp [hc, hn]

/-- R349: an image passes if none of the checks fails. -/
theorem Dev.firmwareCode_eq_zero_iff {d : Dev} {kind : Nat} {image : Bytes} : d.firmwareCode kind image = 0 ↔
    firmwareForm kind image = true ∧ bit d.sec.flash.revoke (leAt image 7 1) = false ∧
      shake256 (cutAt image 32 68) 32 = Config.rootDigest (leAt image 7 1) ∧ signedBy (cutAt image 32 68) image = true ∧
      (if kind = 1 then d.sec.flash.lkkFloor else d.sec.flash.hgFloor) ≤ fwSvn image := by
  simp only [Dev.firmwareCode, check_eq_zero_iff (n := 0x0500) (by decide), check_eq_zero_iff (n := 0x0505) (by decide),
    check_eq_zero_iff (n := 0x0507) (by decide), check_eq_zero_iff (n := 0x0504) (by decide),
    check_eq_zero_iff (n := 0x0506) (by decide), Bool.not_eq_true', Bool.not_eq_false, Bool.not_eq_true,
    bne_iff_ne, ne_eq, Decidable.not_not, Nat.not_lt, and_true]

end Sys2Proof.Machine

namespace Sys2Proof.Proofs
open Sys2Proof.Machine Sys2Proof.Claims

/-- Settles O27: a command of a function that has one in progress is refused, but for the object that it waits for; any
other is decided by the function, the survey unit, its operands and the flash. -/
theorem securityCommandsAttestInstallAndRotate : Obligations.SecurityCommandsAttestInstallAndRotate := by
  intro s fn k flash bytes hfn hk hd hf
  have hw : fnOk fn = true := decide_eq_true hfn
  have hwk : (fnOk fn && distOk k) = true := Bool.and_eq_true_iff.mpr ⟨hw, decide_eq_true hk⟩
  have attest := runs_of_hostAble (i := .attest fn flash) ⟨⟨hw, hd⟩, hf⟩ (execAttest fn flash s) rfl rfl
  have certs := runs_of_hostAble (i := .readCerts fn) ⟨⟨hw, hd⟩, hf⟩ (execReadCerts fn s) rfl rfl
  have install := runs_of_hostAble (i := .installPolicy fn bytes flash) ⟨⟨hw, hd⟩, hf⟩
    (execInstallPolicy fn bytes flash s) rfl rfl
  have transfer := runs_of_hostAble (i := .transferOwner fn bytes flash) ⟨⟨hw, hd⟩, hf⟩
    (execTransferOwner fn bytes flash s) rfl rfl
  have floor := runs_of_hostAble (i := .raiseFwFloor fn flash) ⟨⟨hw, hd⟩, hf⟩ (execRaiseFwFloor fn flash s) rfl rfl
  have rotate := runs_of_hostAble (i := .rotateSystem fn k flash) ⟨⟨hwk, hd⟩, hf⟩ (execRotateSystem fn k flash s) rfl rfl
  have ak := runs_of_meaning (i := .akRootReady) hd rfl (execAkRootReady s) rfl rfl
  refine ⟨fun hr => ?busy, fun hr hi => ?anonymous, fun hr hi => ?queued, fun hr hp => ?virtual, fun hr hp hs => ?held,
    fun hr hp hs hl => ?short, fun e op h => ⟨fun hop => ?install, fun hop => ?transfer⟩, fun hr => ?other,
    fun hr hp => ?flash, fun h => ak.congr (if_pos h), fun h => ak.congr (if_neg h)⟩
  case busy =>
    exact ⟨attest.congr (Dev.secQueue_of_busy hr), certs.congr (Dev.secQueue_of_busy hr),
      floor.congr (Dev.secFloor_of_busy hr), rotate.congr (Dev.secRotate_of_busy hr)⟩
  case anonymous =>
    have refused (op : Nat) (w : Bool) : s.dev.secQueue fn op w = s.dev.secEnd fn 0x0501 :=
      (if_neg (not_not_intro hr)).trans (if_pos (by simp [hi]))
    exact ⟨attest.congr (refused 1 flash), certs.congr (refused 2 true)⟩
  case queued =>
    have joined (op : Nat) (w : Bool) : s.dev.secQueue fn op w =
        (s.dev.modSec fun x => { x with running := Tbl.set 0 x.running fn op, waiting := x.waiting ++ [fn] }).secServe w
          (s.dev.sec.waiting ++ [fn]).length := (if_neg (not_not_intro hr)).trans (if_neg (by simp [hi]))
    simp only [List.length_append, List.length_singleton] at joined
    exact ⟨attest.congr (joined 1 flash), certs.congr (joined 2 true)⟩
  case virtual =>
    have hs : s.dev.secStart fn = 0x0104 := by simp [Dev.secStart, hp]
    have floored : s.dev.secFloor fn flash = s.dev.secEnd fn 0x0104 :=
      (if_neg (not_not_intro hr)).trans (if_pos (by simp [hp]))
    have rotated : s.dev.secRotate fn k flash = s.dev.secEnd fn 0x0104 :=
      (if_neg (not_not_intro hr)).trans (if_pos (by simp [hp]))
    exact ⟨install.congr (Dev.secObject_of_refused hr hs (by decide) (by decide)),
      transfer.congr (Dev.secObject_of_refused hr hs (by decide) (by decide)), floor.congr floored, rotate.congr rotated⟩
  case held =>
    have hc : s.dev.secStart fn = 0x050B := by simp [Dev.secStart, hp, hs]
    exact ⟨install.congr (Dev.secObject_of_refused hr hc (by decide) (by decide)),
      transfer.congr (Dev.secObject_of_refused hr hc (by decide) (by decide))⟩
  case short =>
    have hc : s.dev.secStart fn = 0x0500 := by simp [Dev.secStart, hp, hs, hl]
    exact ⟨install.congr (Dev.secObject_of_refused hr hc (by decide) (by decide)),
      transfer.congr (Dev.secObject_of_refused hr hc (by decide) (by decide))⟩
  case install =>
    subst hop
    have object := install.congr (Dev.secObject_of_secReads h)
    simp only [if_true, Dev.installPolicy, Dev.flash_of_secReads h] at object
    refine ⟨fun hc => object.congr (by rw [if_pos hc]), fun hc hw => object.congr ?_, fun hc hw => object.congr ?_⟩
    all_goals rw [if_neg (not_not_intro hc), hw]; rfl
  case transfer =>
    subst hop
    have object := transfer.congr (Dev.secObject_of_secReads h)
    have hflash := Dev.flash_of_secReads h
    simp only [Nat.reduceEqDiff, if_false, Dev.transferOwner, hflash, Dev.ownerCode_congr hflash] at object
    refine ⟨fun hc => object.congr (by rw [if_pos hc]), fun hc hc2 => object.congr ?_, fun hc hc2 hw => object.congr ?_,
      fun hc hc2 hw => object.congr ?_⟩
    all_goals rw [if_neg (not_not_intro hc)]
    · rw [if_pos hc2]
    all_goals rw [if_neg (not_not_intro hc2), hw]; rfl
  case other =>
    exact ⟨fun h3 => install.congr (Dev.secObject_of_busy hr h3), fun h4 => transfer.congr (Dev.secObject_of_busy hr h4)⟩
  case flash =>
    simp only [Dev.secFloor, hr, hp, ne_eq, not_true, if_false, Bool.not_true, Bool.false_eq_true] at floor
    simp only [Dev.secRotate, hr, hp, ne_eq, not_true, if_false, Bool.not_true, Bool.false_eq_true] at rotate
    exact ⟨fun hw => floor.congr (if_pos (by simp [hw])), fun hw => floor.congr (if_neg (by simp [hw])),
      fun h => rotate.congr (if_pos h),
      fun h hw => rotate.congr ((if_neg (not_not_intro h)).trans (if_pos (by simp [hw]))),
      fun h hw => rotate.congr ((if_neg (not_not_intro h)).trans (if_neg (by simp [hw])))⟩

/-- Settles O32: the two slots are tried in turn, and an image passes if no check of R349 fails. -/
theorem firmwareSlotsRunOnlyWhatPasses : Obligations.FirmwareSlotsRunOnlyWhatPasses := by
  refine ⟨fun d kind active image _ => ⟨fun h => if_pos h, fun h h1 => (if_neg h).trans (if_pos h1),
    fun h h1 => (if_neg h).trans (if_neg h1)⟩, fun d kind image _ => Dev.firmwareCode_eq_zero_iff⟩

end Sys2Proof.Proofs
end

section
/-!
PROOFS. The power stage, the Allotment and the droop guard (16 R360 to R369).
-/
namespace Sys2Proof.Machine
open Sys2Proof.Claims

/-! ### The power stage -/

theorem inVolts_iff {mv : Nat} : inVolts mv = true ↔ 4000 ≤ mv ∧ mv ≤ 6000 := decide_eq_true_iff

theorem inVolts_eq_false_iff {mv : Nat} : inVolts mv = false ↔ ¬ (4000 ≤ mv ∧ mv ≤ 6000) := decide_eq_false_iff_not

section Source
variable {mvA mvB : Nat}

theorem sourceOf_a (ha : inVolts mvA = true) : sourceOf mvA mvB = 1 := if_pos ha

theorem sourceOf_b (ha : inVolts mvA = false) (hb : inVolts mvB = true) : sourceOf mvA mvB = 2 := by
  simp [sourceOf, ha, hb]

theorem sourceOf_none (ha : inVolts mvA = false) (hb : inVolts mvB = false) : sourceOf mvA mvB = 0 := by
  simp [sourceOf, ha, hb]

end Source

/-! ### The Allotment -/

section Allotment
variable {d : Dev}

/-- R367: a window starts with nothing to undo. -/
theorem Dev.startWindow_of_no_acts (wA wB : Nat) (ha : d.power.acts = []) :
    d.startWindow wA wB =
      let y := d.modPower fun x => { x with
        window := d.time.cnt / 10 ^ 7, watts := [wA, wB], input := wA + wB
        base := wA + wB - x.windowField / 10000, windowField := 0
        overs := if x.windowLimit < wA + wB then sat32 (x.overs + 1) else x.overs, windowLimit := d.limitW }
      y.modPower fun x => { x with floorShort := y.floorShort } := if_pos (by simp [ha])

/-- R366, R368: a charge of a slot that holds a program, on a field that is not held. -/
theorem Dev.postCharge_of_prog {f sl uj : Nat} {p : Prog} (hp : d.prog f sl = some p) (hf : (d.field f).held = false) :
    d.postCharge (.slot f sl uj) =
      ((((d.meterField uj).modPower fun x => { x with fieldUj := addAt x.fieldUj p.district uj }).chargeGrant p.district f
        sl uj).chargeProg p uj) := by
  have hp' : (d.meterField uj).prog f sl = some p := hp
  have hf' : ((d.meterField uj).field f).held = false := hf
  simp only [Dev.postCharge, hp', hf', Bool.false_eq_true, if_false]

end Allotment

end Sys2Proof.Machine

namespace Sys2Proof.Proofs
open Sys2Proof.Machine Sys2Proof.Claims

/-- Settles O28: which input is in range decides every clause; no state of the device stops these commands, but a write of
PWR_RATING is the host's. -/
theorem powerStageSwitchesReturnsAndFails : Obligations.PowerStageSwitchesReturnsAndFails := by
  intro s mvA mvB at_ fn v
  have switch := runs_of_always (i := .supplySwitch mvA mvB) rfl (execSupplySwitch mvA mvB s) rfl rfl
  have back := runs_of_always (i := .supplyReturn at_) rfl (execSupplyReturn at_ s) rfl rfl
  have loss := runs_of_always (i := .supplyLoss mvA mvB) rfl (execSupplyLoss mvA mvB s) rfl rfl
  have inputA := runs_of_always (i := .inputInRange 0 mvA) rfl (execInputInRange 0 mvA s) rfl rfl
  have inputB := runs_of_always (i := .inputInRange 1 mvB) rfl (execInputInRange 1 mvB s) rfl rfl
  simp only [← inVolts_iff, Bool.not_eq_true]
  refine ⟨fun hs ha hb => ?toB, fun hs hb ha => ?toA, fun t hs ht => ?back, fun hs ha hb => ?loss, fun hs ha => ?inA,
    fun hs => ?inB, fun h hfn => ?rating⟩
  case toB =>
    simp only [hs, if_true, sourceOf_b ha hb] at switch
    exact switch.congr (if_pos ⟨by decide, ha, by decide⟩)
  case toA =>
    simp only [hs, if_neg (show ¬ 2 = 1 by decide), sourceOf_a ha] at switch
    exact switch.congr (if_pos ⟨by decide, hb, by decide⟩)
  case back =>
    simp only [hs, ht, true_and] at back
    exact ⟨fun h => back.congr (if_pos h), fun h => back.congr (if_neg (Nat.not_le.mpr h))⟩
  case loss => exact loss.congr (if_pos ⟨hs, sourceOf_none ha hb⟩)
  case inA => exact inputA.congr (by simp [Dev.modPower, hs, ha])
  case inB => exact inputB.congr (by simp [Dev.modPower, hs])
  case rating =>
    have rating := runs_of_hostAble h (execPwrRating fn v s) rfl rfl
    exact (rating.congr (if_pos hfn)).congr (by simp [Dev.pwrRating, fld])

/-- Settles O29: each clause is one branch of its command's meaning. -/
theorem allotmentWindowsWaitsChargesAndDroop : Obligations.AllotmentWindowsWaitsChargesAndDroop := by
  intro s wA wB at_ f sl uj hf hsl hd
  have hw : fieldOk f = true := decide_eq_true hf
  have hws : (fieldOk f && slotOk sl) = true := Bool.and_eq_true_iff.mpr ⟨hw, decide_eq_true hsl⟩
  have window := runs_of_meaning (i := .allotmentWindow wA wB at_) hd rfl (execAllotmentWindow wA wB at_ s) rfl rfl
  have limit := runs_of_meaning (i := .altGrantLimit f sl at_) hd hws (execAltGrantLimit f sl at_ s) rfl rfl
  have slot := runs_of_meaning (i := .chargePost (.slot f sl uj)) hd hws (execChargePost _ s) rfl rfl
  have device := runs_of_meaning (i := .chargePost (.device uj)) hd rfl (execChargePost _ s) rfl rfl
  have memory (k : Nat) (hk : k < 16) := runs_of_meaning (i := .chargePost (.memory k uj)) hd (decide_eq_true hk)
    (execChargePost _ s) rfl rfl
  have engage := runs_of_meaning (i := .droopEngage f) hd hw (execDroopEngage f s) rfl rfl
  have restore := runs_of_meaning (i := .droopRestore f) hd hw (execDroopRestore f s) rfl rfl
  refine ⟨fun hwin ha => ?starts, fun hwin => window.congr (if_neg (not_not_intro hwin)), fun w hfind => ?limit,
    fun p hp hheld => slot.congr (Dev.postCharge_of_prog hp hheld), device, memory, fun hh => ?engage, fun hh => ?engaged,
    restore⟩
  case starts =>
    exact (window.congr (if_pos hwin)).congr_pump (Dev.startWindow_of_no_acts wA wB ha)
  case limit =>
    simp only [hfind] at limit
    exact ⟨fun h => limit.congr (if_pos h), fun h => limit.congr (if_neg (Nat.not_le.mpr h))⟩
  case engage => exact engage.congr (if_neg (ne_true_of_eq_false hh))
  case engaged => exact engage.congr (if_pos hh)

end Sys2Proof.Proofs
end

section
/-!
PROOFS. The time base and the stages of start-up (16 R372 to R377, 15 R344 and R350).
-/
namespace Sys2Proof.Machine
open Sys2Proof.Claims

/-! ### The time base -/

section TimeBase
variable {d : Dev} {v : Nat}

theorem Dev.timeMoved_of_live (h : d.dry = false) : d.timeMoved = d.pump := if_neg (ne_true_of_eq_false h)

/-- R374: once the epoch is set, a value more than a second in the past is ignored. -/
theorem Dev.setEpoch_of_past (hset : d.time.epochSet = true) (hv : v + 10 ^ 9 < d.time.cnt) :
    d.setEpoch v = d.putReg .timSetIgnored 0 1 := if_pos ⟨hset, hv⟩

theorem Dev.setEpoch_of_not_past (h : d.time.epochSet = false ∨ d.time.cnt ≤ v + 10 ^ 9) :
    d.setEpoch v = (d.setTime { d.time with epochSet := true }).stepTo v :=
  if_neg fun ⟨hset, hv⟩ => h.elim (fun hn => Bool.false_ne_true (hn.symm.trans hset)) (fun hle => Nat.not_le.mpr hv hle)

/-- The counter's reading at an edge of TIME_PPS, less the cable delay. -/
def Dev.ppsCount (d : Dev) : Int := (d.time.cnt : Int) - d.reg .timPpsDelay 0

theorem Dev.ppsEdge_of_early {l : Int} (hl : d.time.last = some l) (h : d.ppsCount - l < 500000000) :
    d.ppsEdge = d.setTime { d.time with ppsIgnored := sat32 (d.time.ppsIgnored + 1) } := by
  unfold Dev.ppsEdge
  simp only [hl]
  exact if_pos (decide_eq_true h)

/-- R375: an edge of at most 1 ms of error, with no TIM_SET pending, is taken into the drift and the slew. -/
theorem Dev.ppsEdge_of_small (hset : d.time.pendingSet = none)
    (hl : ∀ l, d.time.last = some l → 500000000 ≤ d.ppsCount - l)
    (hlo : -1000000 ≤ d.ppsCount - nearestSecond d.ppsCount) (hhi : d.ppsCount - nearestSecond d.ppsCount ≤ 1000000) :
    let t := d.time
    let err := d.ppsCount - nearestSecond d.ppsCount
    d.ppsEdge = d.setTime { t with
      ppsCount := sat32 (t.ppsCount + 1), lastAcceptOsc := t.osc, holdover := false, last := some d.ppsCount, err := err
      goodEdges := if -1000 ≤ err ∧ err ≤ 1000 then min 3 (t.goodEdges + 1) else 0
      drift := t.drift + err / 8, slew := clampInt (-(t.drift + err / 8 + err)) (-500000) 500000 } := by
  have late : ¬ (match d.time.last with | none => false | some l => decide (d.ppsCount - l < 500000000)) = true := by
    cases h : d.time.last with
    | none => exact Bool.false_ne_true
    | some l => simpa using hl l h
  refine (if_neg late).trans ?_
  simp only [hset]
  exact if_neg (by rintro (h | h) <;> simp only [Dev.ppsCount] at * <;> omega)

end TimeBase

end Sys2Proof.Machine

namespace Sys2Proof.Proofs
open Sys2Proof.Machine Sys2Proof.Claims

/-- Settles O30: no command of these reaches the rotation in Dry, and with the device out of Dry it follows at once. -/
theorem timeBaseSetsFollowsAndHolds : Obligations.TimeBaseSetsFollowsAndHolds := by
  intro s at_ fn v present
  have pps := runs_of_always (i := .ppsEdge at_) rfl (execPpsEdge at_ s) rfl rfl
  have hold := runs_of_always (i := .holdover at_) rfl (execHoldover at_ s) rfl rfl
  refine ⟨fun h hfn => ?set, fun hen => pps.congr (if_neg hen), fun hen hset => ?edge, fun h => hold.congr (if_pos h),
    fun h => hold.congr (if_neg (Nat.not_le.mpr h)), runs_of_always rfl (execStepHoldEnd at_ s) rfl rfl,
    runs_of_always rfl (execRef10mhz present s) rfl rfl⟩
  case set =>
    have ⟨⟨_, hd⟩, _⟩ := h
    have run := runs_of_hostAble h (execTimSet fn v s) rfl rfl
    simp only [Dev.timSet, hfn, Bool.not_true, Bool.false_eq_true, if_false] at run
    refine ⟨fun hp => ?_, fun hp hset hv => ?_, fun hp hv => ?_⟩
    · simp only [if_pos hp] at run
      exact run.congr (Dev.timeMoved_of_live hd)
    · simp only [if_neg hp, Dev.setEpoch_of_past hset hv] at run
      exact run.congr (Dev.timeMoved_of_live hd)
    · simp only [if_neg hp, Dev.setEpoch_of_not_past hv] at run
      exact run.congr (Dev.timeMoved_of_live hd)
  case edge =>
    have run := pps.congr (if_pos hen)
    exact ⟨fun l hl h => run.congr (congrArg Dev.timeMoved (Dev.ppsEdge_of_early hl h)),
      fun hl hlo hhi => run.congr (congrArg Dev.timeMoved (Dev.ppsEdge_of_small hset hl hlo hhi))⟩

/-- Settles O31: a stage's command acts in its own stage alone, and what a limit does follows the stage's number. -/
theorem startUpStagesRunInOrder : Obligations.StartUpStagesRunInOrder := by
  intro s at_ mvA mvB dev variant b0 b1 ok flash
  have cold := runs_of_always (i := .coldReset at_) rfl (execColdReset at_ s) rfl rfl
  have good := runs_of_always (i := .powerGood mvA mvB) rfl (execPowerGood mvA mvB s) rfl rfl
  refine ⟨fun h => cold.congr (if_pos h), fun h hsrc => good.congr (if_pos ⟨h, hsrc⟩), fun ⟨hw, hd⟩ h => ?boot,
    fun ⟨hw, hd⟩ h => ?reboot, fun ⟨hw, hd⟩ h => ?identity, fun ⟨hw, hd⟩ h => ?train, fun hd h => ?survey,
    fun ⟨hw, hd⟩ h => ?headgates, fun stg ⟨hw, hd⟩ h => ?limit⟩
  case boot =>
    have run := (runs_of_meaning hd hw (execLkkBoot b0 b1 variant s) rfl rfl).congr (if_pos h)
    refine ⟨fun hp => ?_, fun i b hp => ⟨fun hc => ?_, fun hc => ?_⟩⟩
    all_goals simp only [hp] at run
    · exact run
    · exact run.congr (if_neg (ne_true_of_eq_false hc))
    · exact run.congr (if_pos hc)
  case reboot =>
    have run := (runs_of_meaning hd hw (execLkkBoot b0 b1 variant s) rfl rfl).congr (if_neg h)
    refine ⟨fun hg hl => ?_, fun hn => run.congr (if_neg (Decidable.not_and_iff_not_or_not.mpr hn))⟩
    have run := run.congr (if_pos ⟨hg, hl⟩)
    refine ⟨fun hp => ?_, fun i b hp => ?_⟩
    all_goals simp only [hp] at run
    all_goals exact run
  case identity =>
    have run := (runs_of_meaning hd hw (execIdentity ok flash s) rfl rfl).congr (if_neg (not_not_intro h))
    refine ⟨fun hok => ?_, fun hok hfl => ?_, fun hok hfl => ?_⟩
    · exact run.congr (if_pos (by simp [hok]))
    · exact run.congr ((if_neg (by simp [hok])).trans (if_pos (by simp [hfl])))
    · exact run.congr ((if_neg (by simp [hok])).trans (if_neg (by simp [hfl])))
  case train =>
    have run := runs_of_meaning hd hw (execMemTrain dev ok s) rfl rfl
    simp only [h] at run
    exact ⟨fun hok => run.congr (congrArg Dev.trainCheck (if_pos hok)),
      fun hok => run.congr (congrArg Dev.trainCheck (if_neg (ne_true_of_eq_false hok)))⟩
  case survey =>
    exact (runs_of_meaning (i := .surveyLoad) hd rfl (execSurveyLoad s) rfl rfl).congr (if_pos h)
  case headgates =>
    have run := (runs_of_meaning hd hw (execHeadgateLoad b0 b1 s) rfl rfl).congr (if_neg (not_not_intro h))
    refine ⟨fun hp => ?_, fun i b hp => ?_⟩
    all_goals simp only [hp] at run
    all_goals exact run
  case limit =>
    have run := runs_of_meaning hd hw (execStageLimit stg at_ s) rfl rfl
    have limit (hdue) := run.congr (if_pos ⟨h, hdue⟩)
    refine ⟨fun hdue => run.congr (if_neg fun hc => hdue hc.2), fun hdue hs => ?_, fun hdue hs => ?_, fun hdue hs => ?_,
      fun hdue hs => ?_, fun hdue hs => ?_⟩
    case refine_2 => obtain rfl | rfl := hs <;> exact limit hdue
    all_goals subst hs; exact limit hdue

end Sys2Proof.Proofs
end

section
/-!
PROOFS. The resets of the module (17 R398, 18 R415) and the messages to the Lockkeeper (17 R393).
-/
namespace Sys2Proof.Machine
open Sys2Proof.Claims

/-! ### The waveform of the pin -/

section Pin
variable {m lo hi : Nat} {wave : List (Nat × Nat)}

/-- 18 R415: no measurement starts in a low shorter than 1 ms. -/
theorem resetAsked_of_short (h : lo < ms) : resetAsked none ((lo, hi) :: wave) = resetAsked none wave := if_pos h

theorem resetAsked_of_not_short (h : ms ≤ lo) : resetAsked none ((lo, hi) :: wave) =
    (decide (10 * ms ≤ lo) || resetAsked (if hi < ms then some (lo + hi) else none) wave) := if_neg (Nat.not_lt.mpr h)

theorem resetAsked_of_measured (h : 10 * ms ≤ m + lo) : resetAsked (some m) ((lo, hi) :: wave) = true :=
  Bool.or_eq_true_iff.mpr (.inl (decide_eq_true h))

theorem resetAsked_of_long (h : 10 * ms ≤ lo) : resetAsked none ((lo, hi) :: wave) = true := by
  rw [resetAsked_of_not_short (by omega), decide_eq_true h, Bool.true_or]

/-- A high of 1 ms or longer ends a measurement that began with a low shorter than 10 ms. -/
theorem resetAsked_of_ended (h : ms ≤ lo) (hlo : lo < 10 * ms) (hhi : ms ≤ hi) :
    resetAsked none ((lo, hi) :: wave) = resetAsked none wave := by
  rw [resetAsked_of_not_short h, decide_eq_false (Nat.not_le.mpr hlo), Bool.false_or, if_neg (Nat.not_lt.mpr hhi)]

/-- A high shorter than 1 ms counts as low. -/
theorem resetAsked_of_held (h : ms ≤ lo) (hlo : lo < 10 * ms) (hhi : hi < ms) :
    resetAsked none ((lo, hi) :: wave) = resetAsked (some (lo + hi)) wave := by
  rw [resetAsked_of_not_short h, decide_eq_false (Nat.not_le.mpr hlo), Bool.false_or, if_pos hhi]

end Pin

/-! ### Messages to the Lockkeeper -/

section Messages
variable {i : Instr} {s : State} {sl cmd len : Nat} {hgToo : Bool} {b : Bytes}

/-- R393: the Lockkeeper looks at the payload of a message that it received. -/
theorem Dev.lkkMsg_of_received (h : Received i s sl cmd len hgToo) (act : Bytes → Option (Nat × Dev)) :
    s.dev.lkkMsg sl cmd len hgToo act =
      (act ((s.dev.sluice sl).bytes.drop 4)).elim (s.dev.take sl 0x0101) fun r => r.2.take sl r.1 := by
  obtain ⟨_, hfull, hrec, hcmd, hlkk, hfrozen, hdup, hsender, hlen, hres⟩ := h
  have sender : (isPfId (s.dev.sluice sl).sender || (hgToo && isHgId (s.dev.sluice sl).sender)) = true := by
    simpa using hsender
  simp only [Dev.lkkMsg, hfull, hrec, hcmd, hlkk, hfrozen, hdup, sender, hlen, hres, beq_self_eq_true, Bool.not_false,
    Bool.and_self, Bool.not_true, Bool.false_eq_true, if_false, ne_eq, not_true_eq_false, or_self]
  cases act ((s.dev.sluice sl).bytes.drop 4) <;> rfl

theorem Dev.lkkMsg_of_some (h : Received i s sl cmd len hgToo) {act : Bytes → Option (Nat × Dev)} {code : Nat} {e : Dev}
    (ha : act ((s.dev.sluice sl).bytes.drop 4) = some (code, e)) : s.dev.lkkMsg sl cmd len hgToo act = e.take sl code := by
  rw [Dev.lkkMsg_of_received h, ha, Option.elim_some]

theorem Dev.lkkMsg_of_none (h : Received i s sl cmd len hgToo) {act : Bytes → Option (Nat × Dev)}
    (ha : act ((s.dev.sluice sl).bytes.drop 4) = none) : s.dev.lkkMsg sl cmd len hgToo act = s.dev.take sl 0x0101 := by
  rw [Dev.lkkMsg_of_received h, ha, Option.elim_none]

/-- A payload names a unit of Table 17-8. -/
theorem payloadUnit_eq_some (h : leAt b 0 1 ≤ 5 ∧ leAt b 1 1 = 0 ∧ leAt b 2 2 < unitCount (leAt b 0 1)) :
    payloadUnit b = some (leAt b 0 1, leAt b 2 2) := if_pos h

theorem payloadUnit_eq_none (h : ¬ (leAt b 0 1 ≤ 5 ∧ leAt b 1 1 = 0 ∧ leAt b 2 2 < unitCount (leAt b 0 1))) :
    payloadUnit b = none := if_neg h

end Messages

end Sys2Proof.Machine

namespace Sys2Proof.Proofs
open Sys2Proof.Machine Sys2Proof.Claims

/-- Settles O33: a reset is reached through a port that is heard or by a low of the pin that is measured long enough. -/
theorem warmAndFullResetsRestartTheModule : Obligations.WarmAndFullResetsRestartTheModule := by
  intro s port at_ lo hi wave hp
  have pin := runs_of_always (i := .fullResetN ⟨wave, at_⟩) rfl (execFullResetN ⟨wave, at_⟩ s) rfl rfl
  refine ⟨fun hf => ?asked, fun h hask => ?pinned, fun h => ?unasked, rfl, resetAsked_of_long, resetAsked_of_short,
    resetAsked_of_ended, fun h hlo hhi lo' hi' hsum => ?held⟩
  case asked =>
    have hpf : (isPf (pf port) && !s.dev.deaf (pf port)) = true := by simp [isPf_pf hp, hf]
    have warm := (runs_of_always (i := .warm (pf port)) (fnOk_pf hp) (execWarm (pf port) s) rfl rfl).congr (if_pos hpf)
    have reset := (runs_of_always (i := .full (pf port)) (fnOk_pf hp) (execFull (pf port) s) rfl rfl).congr (if_pos hpf)
    exact ⟨fun hr => warm.congr (if_pos hr), fun hr => warm.congr (if_neg (ne_true_of_eq_false hr)),
      fun h => reset.congr (if_neg (Nat.not_lt.mpr h))⟩
  case pinned => exact pin.congr ((if_pos hask).trans (if_neg (Nat.not_lt.mpr h)))
  case unasked =>
    refine pin.congr ?_
    dsimp only
    split
    · next hask => exact if_pos (h.resolve_right (ne_false_of_eq_true hask))
    · rfl
  case held => exact (resetAsked_of_held h hlo hhi).trans (resetAsked_of_measured hsum)

/-- Settles O48: each message is received, and what its payload says chooses the answer. -/
theorem lockkeeperMessagesFenceReturnNoteAndTest : Obligations.LockkeeperMessagesFenceReturnNoteAndTest := by
  intro s sl
  refine ⟨fun h => ?fence, fun h => ?back, fun h => ?note, fun h => ?test, fun h => ?copy⟩
  all_goals have ⟨⟨hw, hd⟩, _⟩ := h
  case fence =>
    have run := runs_of_meaning hd hw (execLkkFence sl s) rfl rfl
    refine ⟨fun hu => run.congr (Dev.lkkMsg_of_none h ?_), fun hu hk hf => run.congr (Dev.lkkMsg_of_none h ?_),
      fun hu hn => run.congr (Dev.lkkMsg_of_some h ?_)⟩
    · simp only [payloadUnit_eq_none hu]
    · simp only [payloadUnit_eq_some hu]
      exact if_pos ⟨hk, hf⟩
    · simp only [payloadUnit_eq_some hu]
      exact if_neg fun ⟨hk, hf⟩ => hn.elim (absurd hk) (fun hn => Bool.false_ne_true (hn.symm.trans hf))
  case back =>
    have run := runs_of_meaning hd hw (execReturnUnit sl s) rfl rfl
    refine ⟨fun hu => run.congr (Dev.lkkMsg_of_none h ?_), fun hu hf => run.congr (Dev.lkkMsg_of_some h ?_),
      fun hu hf => run.congr (Dev.lkkMsg_of_some h ?_)⟩
    · simp only [payloadUnit_eq_none hu]
    · simp only [payloadUnit_eq_some hu, hf]
    · simp only [payloadUnit_eq_some hu]
  case note =>
    have run := runs_of_meaning hd hw (execNote sl s) rfl rfl
    exact run.congr (Dev.lkkMsg_of_some h rfl)
  case test =>
    have run := runs_of_meaning hd hw (execSelftest sl s) rfl rfl
    exact ⟨fun hk => run.congr (Dev.lkkMsg_of_none h (if_neg (Nat.not_lt.mpr hk))),
      fun hk => run.congr (Dev.lkkMsg_of_some h (if_pos hk))⟩
  case copy =>
    have run := runs_of_meaning hd hw (execCopySilt sl s) rfl rfl
    exact run.congr (Dev.lkkMsg_of_some h rfl)

end Sys2Proof.Proofs
end

section
/-!
PROOFS. Returns of units, restarts, temperatures, dumps, and the recovery of the Lockkeeper (17 R385 to R397, R405, R406).
-/
namespace Sys2Proof.Machine
open Sys2Proof.Claims

section Silt
variable {d : Dev} {fn op : Nat}

theorem Dev.siltCmd_of_not_ready (hr : d.ready = false) : d.siltCmd fn op = d := if_pos (.inr hr)

/-- R406: OP 1 dumps the ring. -/
theorem Dev.siltCmd_ring (hr : d.ready = true) :
    d.siltCmd fn 1 = (d.hostWrite (portOf fn) (4096 * d.reg .sltOutAddr 0) (siltSlots d.silt.entries)).siltEnd 0 := by
  simp [Dev.siltCmd, hr]

/-- R406: OP 2 and OP 3 dump the slots of the flash. -/
theorem Dev.siltCmd_flash (hr : d.ready = true) {k : Nat} (hk : k < 2) :
    d.siltCmd fn (k + 2) =
      (d.hostWrite (portOf fn) (4096 * d.reg .sltOutAddr 0) (flashBytes (nth none d.silt.flash k))).siltEnd 0 := by
  have hop : ¬ 3 < k + 2 := by omega
  simp [Dev.siltCmd, hr, hop]

end Silt

/-! ### Failures of the Lockkeeper -/

section Failures
variable {g : GenState}

theorem GenState.starting_iff :
    g.starting = true ↔ g = .lkkBoot ∨ g = .memTrain ∨ g = .surveyLoad ∨ g = .headgateLoad := by
  cases g <;> decide

theorem GenState.lkkRuns_eq_false_iff : g.lkkRuns = false ↔ g = .none ∨ g = .dry := by
  cases g <;> decide

end Failures

end Sys2Proof.Machine

namespace Sys2Proof.Proofs
open Sys2Proof.Machine Sys2Proof.Claims

/-- Settles O49: each clause is one branch of its command's meaning. -/
theorem unitsReturnHeadgatesRestartAndTemperaturesWarn : Obligations.UnitsReturnHeadgatesRestartAndTemperaturesWarn := by
  intro s kind u h t temp fn hh ht hd
  have watchdog := runs_of_meaning (i := .hgWatchdog h) hd (decide_eq_true hh) (execHgWatchdog h s) rfl rfl
  have restart := runs_of_meaning (i := .hgRestart h) hd (decide_eq_true hh) (execHgRestart h s) rfl rfl
  have kick := runs_of_meaning (i := .watchdogKick) hd rfl (execWatchdogKick s) rfl rfl
  have warn := runs_of_meaning (i := .thermalWarn t temp) hd (decide_eq_true ht) (execThermalWarn t temp s) rfl rfl
  have fall := runs_of_meaning (i := .temperatureFall t temp) hd (decide_eq_true ht) (execTemperatureFall t temp s) rfl rfl
  have crit (ht : t < 4) :=
    runs_of_meaning (i := .thermalCrit t temp) hd (decide_eq_true ht) (execThermalCrit t temp s) rfl rfl
  have copied := runs_of_always (i := .flashCopy) rfl (execFlashCopy s) rfl rfl
  refine ⟨fun hmem hl => ⟨fun ⟨hw, _⟩ => ?passed, fun ⟨hw, _⟩ => ?failed⟩, fun hs hr => watchdog.congr (if_pos ⟨hs, hr⟩),
    fun hn => watchdog.congr (if_neg ?down), fun hs => restart.congr (if_pos hs), fun hs => restart.congr (if_neg hs),
    fun hl => kick.congr (if_pos hl), fun hl => kick.congr (if_neg hl), fun hle hwd => warn.congr (if_pos ⟨hle, hwd⟩),
    fun hn => warn.congr (if_neg ?warned), fun hle => fall.congr (if_pos hle),
    fun hlt => fall.congr (if_neg (Nat.not_le.mpr hlt)), fun ht hle hs => (crit ht).congr (if_pos ⟨hle, hs⟩),
    fun ht hn => (crit ht).congr (if_neg ?cool), copied, fun ⟨hw, _⟩ hf hpf => ?dumps⟩
  case passed =>
    exact (runs_of_meaning hd hw (execReturnTestDone kind u true s) rfl rfl).congr
      ((if_pos ⟨List.contains_iff_mem.mpr hmem, hl⟩).trans (if_pos rfl))
  case failed =>
    exact (runs_of_meaning hd hw (execReturnTestDone kind u false s) rfl rfl).congr
      ((if_pos ⟨List.contains_iff_mem.mpr hmem, hl⟩).trans (if_neg Bool.false_ne_true))
  case down => exact fun ⟨hs, hr⟩ => hn.elim (absurd hs) (fun hn => Bool.false_ne_true (hn.symm.trans hr))
  case warned => exact fun ⟨hle, hwd⟩ => hn.elim (Nat.not_lt.mpr hle) (fun hn => Bool.false_ne_true (hwd.symm.trans hn))
  case cool => exact fun ⟨hle, hs⟩ => hn.elim (Nat.not_lt.mpr hle) hs
  case dumps =>
    have ring := (runs_of_hostAble (i := .dumpRam fn) ⟨⟨hw, hd⟩, hf⟩ (execDumpRam fn s) rfl rfl).congr (if_pos hpf)
    have slot0 := (runs_of_hostAble (i := .dumpFlash0 fn) ⟨⟨hw, hd⟩, hf⟩ (execDumpFlash0 fn s) rfl rfl).congr (if_pos hpf)
    have slot1 := (runs_of_hostAble (i := .dumpFlash1 fn) ⟨⟨hw, hd⟩, hf⟩ (execDumpFlash1 fn s) rfl rfl).congr (if_pos hpf)
    exact ⟨fun hr => ⟨ring.congr (Dev.siltCmd_of_not_ready hr), slot0.congr (Dev.siltCmd_of_not_ready hr),
        slot1.congr (Dev.siltCmd_of_not_ready hr)⟩,
      fun hr => ⟨ring.congr (Dev.siltCmd_ring hr), slot0.congr (Dev.siltCmd_flash hr (k := 0) (by decide)),
        slot1.congr (Dev.siltCmd_flash hr (k := 1) (by decide))⟩⟩

/-- Settles O50: nothing on the way to the branch of Dry or takeover changes GEN_STATE. -/
theorem lockkeeperFailuresTakeOverOrEnterDry : Obligations.LockkeeperFailuresTakeOverOrEnterDry := by
  intro s cause ⟨hw, hd⟩ d0 d fails n counted e g
  have fail := runs_of_meaning hd hw (execLkkFail cause s) rfl rfl
  have done := runs_of_meaning (i := .recoveryDone) hd rfl (execRecoveryDone s) rfl rfl
  have hgen : e.startup.gen = g := congrArg Startup.gen
    (Dev.startup_of_work ((Dev.work_siltAt ..).trans (Dev.work_ite (Dev.work_advance _) rfl)))
  refine ⟨fun hg => fail.congr (if_neg (ne_true_of_eq_false (GenState.lkkRuns_eq_false_iff.mpr hg))), fun hg => ?starting,
    fun hg => ⟨fun hn => ?third, fun hn => ?takeover⟩, fun hg => done.congr (if_neg hg), fun hg => done.congr (if_pos hg)⟩
  case starting =>
    have hruns : g.lkkRuns = true := by obtain h | h | h | h := hg <;> rw [h] <;> rfl
    exact (fail.congr (if_pos hruns)).congr (if_pos (.inr (hgen ▸ GenState.starting_iff.mpr hg)))
  case third =>
    have hruns : g.lkkRuns = true := by obtain h | h := hg <;> rw [h] <;> rfl
    exact (fail.congr (if_pos hruns)).congr (if_pos (.inl hn))
  case takeover =>
    have hruns : g.lkkRuns = true := by obtain h | h := hg <;> rw [h] <;> rfl
    have hstart : ¬ g.starting = true := by obtain h | h := hg <;> rw [h] <;> decide
    exact (fail.congr (if_pos hruns)).congr (if_neg (not_or.mpr ⟨Nat.not_le.mpr hn, hgen ▸ hstart⟩))

end Sys2Proof.Proofs
end

section
/-!
PROOFS. Management over MCTP and PLDM (17 R396 to R403).
-/
namespace Sys2Proof.Machine
open Sys2Proof.Claims

/-! ### Bindings -/

/-- R396, R399: a frozen device drops a message on a binding and counts it, and through a binding that is up it reaches the
Lockkeeper, which leaves the device e. -/
def Answered (s : State) (b : Nat) (i : Instr) (e : Dev) : Prop :=
  let d := s.dev
  let up := d.frozen = false ∧ d.lkk.state = 1 ∧
    (if b = 0 then d.reg .lkkSmbEn 0 = 1 else (nth Port.init d.ports (b - 1)).linkUp = true)
  (d.frozen = true → Runs i s (d.setLkk { d.lkk with dropped := sat32 (d.lkk.dropped + 1) })) ∧
    (d.frozen = false → ¬ up → Leaves i s) ∧ (up → Runs i s e)

theorem Dev.mctpUp_iff {d : Dev} {b : Nat} : d.mctpUp b = true ↔ d.lkk.state = 1 ∧
    (if b = 0 then d.reg .lkkSmbEn 0 = 1 else (nth Port.init d.ports (b - 1)).linkUp = true) := by
  simp only [Dev.mctpUp, Bool.and_eq_true, beq_iff_eq]
  split <;> simp

section Messages
variable {s : State} {i : Instr} {b : Nat} {e : Dev} {f : Dev → Dev}

theorem runs_of_onMsg (hd : s.dev.dry = false) (hw : i.wf = true) (m : Host.Outcome State Fault Refusal)
    (he : exec i s = m) (hm : m = live i s fun d => d.onMsg b f) (hfrozen : s.dev.frozen = false)
    (hup : s.dev.mctpUp b = true) (hf : f s.dev = e) : Runs i s e :=
  (runs_of_meaning hd hw m he hm).congr ((if_neg (ne_true_of_eq_false hfrozen)).trans ((if_pos hup).trans hf))

theorem answered_of_onMsg (hd : s.dev.dry = false) (hw : i.wf = true) (m : Host.Outcome State Fault Refusal)
    (he : exec i s = m) (hm : m = live i s fun d => d.onMsg b f) (hf : f s.dev = e) : Answered s b i e := by
  have run := runs_of_meaning hd hw m he hm
  refine ⟨fun h => run.congr (if_pos h), fun h hdown => ?_, fun ⟨h, hup⟩ => ?_⟩
  · refine run.congr ((if_neg (ne_true_of_eq_false h)).trans (if_neg fun hup => hdown ⟨h, Dev.mctpUp_iff.mp hup⟩))
  · exact runs_of_onMsg hd hw m he hm h (Dev.mctpUp_iff.mpr hup) hf

end Messages

/-- R400: the device has no command of another type. -/
theorem pldmCommands_of_other {v : Nat} (h0 : v ≠ 0) (h2 : v ≠ 2) (h5 : v ≠ 5) : pldmCommands v = [] :=
  (if_neg h0).trans ((if_neg h2).trans (if_neg h5))

/-! ### The firmware update -/

/-- R402: a command of the update restarts its timeout. -/
def Dev.updateServed (d : Dev) : Dev := d.modUpdate fun u => { u with lastReq := d.time.osc }

section Updates
variable {d : Dev} {b cmd : Nat} {states : List Nat} {f : Dev → Dev}

/-- R402: a command of the update in its state is served. -/
theorem Dev.inUpdate_of_in (hb : d.lkk.update.binding = b) (hs : d.lkk.update.state ∈ states) :
    d.inUpdate b cmd states f = f d.updateServed :=
  if_pos ⟨hb, List.contains_iff_mem.mpr hs⟩

theorem Dev.inUpdate_of_not_in (h : ¬ (d.lkk.update.binding = b ∧ d.lkk.update.state ∈ states)) :
    d.inUpdate b cmd states f = d.notExpected b cmd :=
  if_neg fun ⟨hb, hs⟩ => h ⟨hb, List.contains_iff_mem.mp hs⟩

/-- The update is on the binding and in a state. -/
theorem Dev.inUpdate_of_state {st : Nat} (h : d.lkk.update.binding = b ∧ d.lkk.update.state = st) :
    d.inUpdate b cmd [st] f = f d.updateServed :=
  Dev.inUpdate_of_in h.1 (List.mem_singleton.mpr h.2)

theorem Dev.inUpdate_of_not_state {st : Nat} (h : ¬ (d.lkk.update.binding = b ∧ d.lkk.update.state = st)) :
    d.inUpdate b cmd [st] f = d.notExpected b cmd :=
  Dev.inUpdate_of_not_in fun ⟨hb, hs⟩ => h ⟨hb, List.mem_singleton.mp hs⟩

end Updates

end Sys2Proof.Machine

namespace Sys2Proof.Proofs
open Sys2Proof.Machine Sys2Proof.Claims

/-- Settles O51: every command stands behind its binding, and is answered by one branch of its meaning. -/
theorem managementCommandsAreAnswered : Obligations.ManagementCommandsAreAnswered := by
  intro s b v hb hd
  have hw : bindOk b = true := decide_eq_true hb
  refine ⟨answered_of_onMsg hd hw (execMctpMalformed b s) rfl rfl rfl,
    answered_of_onMsg hd hw (execMctpType b s) rfl rfl rfl,
    fun h => ?stuck,
    fun h => ⟨answered_of_onMsg hd hw (execSetEndpointId b v s) rfl rfl (if_pos h),
      answered_of_onMsg hd hw (execSetTid b v s) rfl rfl (if_pos h)⟩,
    fun h => ⟨answered_of_onMsg hd hw (execSetEndpointId b v s) rfl rfl (if_neg h),
      answered_of_onMsg hd hw (execSetTid b v s) rfl rfl (if_neg h)⟩,
    answered_of_onMsg hd hw (execGetEndpointId b s) rfl rfl rfl,
    answered_of_onMsg hd hw (execGetEndpointUuid b s) rfl rfl rfl,
    answered_of_onMsg hd hw (execGetMctpVersionSupport b s) rfl rfl rfl,
    answered_of_onMsg hd hw (execGetMessageTypeSupport b s) rfl rfl rfl,
    answered_of_onMsg hd hw (execGetTid b s) rfl rfl rfl,
    answered_of_onMsg hd hw (execGetPldmVersion ⟨b, 2⟩ s) rfl rfl rfl,
    answered_of_onMsg hd hw (execGetPldmVersion ⟨b, 5⟩ s) rfl rfl rfl,
    answered_of_onMsg hd hw (execGetPldmVersion ⟨b, 0⟩ s) rfl rfl rfl,
    answered_of_onMsg hd hw (execGetPldmTypes b s) rfl rfl rfl,
    answered_of_onMsg hd hw (execGetPldmCommands ⟨b, 0⟩ s) rfl rfl rfl,
    answered_of_onMsg hd hw (execGetPldmCommands ⟨b, 2⟩ s) rfl rfl rfl,
    answered_of_onMsg hd hw (execGetPldmCommands ⟨b, 5⟩ s) rfl rfl rfl,
    fun h0 h2 h5 => ⟨?version, ?commands⟩,
    answered_of_onMsg hd hw (execErrorUnsupportedPldmCmd b s) rfl rfl rfl,
    answered_of_onMsg hd hw (execGetPdrRepositoryInfo b s) rfl rfl rfl,
    fun h1 h => answered_of_onMsg hd hw (execGetPdr b v s) rfl rfl (if_pos ⟨h1, h⟩),
    fun h => answered_of_onMsg hd hw (execGetPdr b v s) rfl rfl (if_neg (by omega)),
    fun x hx => ?read,
    fun hx => ?unread,
    answered_of_onMsg hd hw (execGetStateSensorReadings b sensorCount s) rfl rfl rfl,
    fun h => answered_of_onMsg hd hw (execGetStateSensorReadings b v s) rfl rfl (if_neg h),
    answered_of_onMsg hd hw (execSetEventReceiver b v s) rfl rfl rfl,
    answered_of_onMsg hd hw (execPlatformEventMessage b s) rfl rfl rfl⟩
  case stuck =>
    subst h
    exact answered_of_onMsg hd rfl (execSmbusStuck s) rfl rfl rfl
  case version =>
    exact answered_of_onMsg hd hw (execGetPldmVersion ⟨b, v⟩ s) rfl rfl ((if_neg h2).trans ((if_neg h5).trans (if_neg h0)))
  case commands =>
    exact answered_of_onMsg hd hw (execGetPldmCommands ⟨b, v⟩ s) rfl rfl (by simp [pldmCommands_of_other h0 h2 h5, cmdPldm])
  case read => exact answered_of_onMsg hd hw (execGetSensorReading b v s) rfl rfl (by simp [hx, cmdPldm])
  case unread => exact answered_of_onMsg hd hw (execGetSensorReading b v s) rfl rfl (by simp [hx, cmdPldm])

/-- Settles O52: a command is malformed, or outside the update's state, or served in it. -/
theorem firmwareUpdatesRunThroughTheirStates : Obligations.FirmwareUpdatesRunThroughTheirStates := by
  intro s b at_ off comp bytes self hb hd
  have hw : bindOk b = true := decide_eq_true hb
  have timeout := runs_of_meaning (i := .pldmUpdateTimeout at_) hd rfl (execPldmUpdateTimeout at_ s) rfl rfl
  refine ⟨fun hf hup => ?commands, fun hs ht => timeout.congr (if_pos ⟨hs, ht⟩), fun h => timeout.congr (if_neg ?early)⟩
  case early => exact fun ⟨hs, ht⟩ => h.elim hs (Nat.not_lt.mpr ht)
  have request (ok : Bool) {e : Dev} :=
    runs_of_onMsg (i := .requestUpdate b ok) (e := e) hd hw (execRequestUpdate b ok s) rfl rfl hf hup
  have table (ok : Bool) {e : Dev} :=
    runs_of_onMsg (i := .passComponentTable b ok) (e := e) hd hw (execPassComponentTable b ok s) rfl rfl hf hup
  have offer (ok : Bool) {e : Dev} :=
    runs_of_onMsg (i := .updateComponent b comp ok) (e := e) hd hw (execUpdateComponent b comp ok s) rfl rfl hf hup
  have activate (ok self : Bool) {e : Dev} :=
    runs_of_onMsg (i := .activateFirmware b ok self) (e := e) hd hw (execActivateFirmware b ok self s) rfl rfl hf hup
  have data {e : Dev} :=
    runs_of_onMsg (i := .requestFirmwareData b off bytes) (e := e) hd hw (execRequestFirmwareData b off bytes s) rfl rfl hf hup
  have verify {e : Dev} := runs_of_onMsg (i := .verifyComplete b) (e := e) hd hw (execVerifyComplete b s) rfl rfl hf hup
  have dropImage {e : Dev} :=
    runs_of_onMsg (i := .cancelUpdateComponent b) (e := e) hd hw (execCancelUpdateComponent b s) rfl rfl hf hup
  have cancel {e : Dev} := runs_of_onMsg (i := .cancelUpdate b) (e := e) hd hw (execCancelUpdate b s) rfl rfl hf hup
  have status {e : Dev} := runs_of_onMsg (i := .getStatus b) (e := e) hd hw (execGetStatus b s) rfl rfl hf hup
  have formed : ¬ (!true) = true := by decide
  have within : s.dev.lkk.update.binding = b ∧ s.dev.lkk.update.state ∈ [1, 2, 3] ↔
      (s.dev.lkk.update.binding = b ∧ s.dev.lkk.update.state = 1) ∨
      (s.dev.lkk.update.binding = b ∧ s.dev.lkk.update.state = 2) ∨
      (s.dev.lkk.update.binding = b ∧ s.dev.lkk.update.state = 3) := by simp [and_or_left]
  refine ⟨⟨request false rfl, table false rfl, offer false rfl, activate false self rfl⟩,
    fun hs => request true ((if_neg formed).trans (if_pos hs)),
    fun hs => request true ((if_neg formed).trans (if_neg (not_not_intro hs))),
    fun h => table true ((if_neg formed).trans (Dev.inUpdate_of_state h)),
    fun h => table true ((if_neg formed).trans (Dev.inUpdate_of_not_state h)),
    fun h hc => offer true ((if_neg formed).trans ((Dev.inUpdate_of_state h).trans (if_pos hc))),
    fun h h1 h2 => offer true ((if_neg formed).trans ((Dev.inUpdate_of_state h).trans (if_neg (not_or.mpr ⟨h1, h2⟩)))),
    fun h => ⟨offer true ((if_neg formed).trans (Dev.inUpdate_of_not_state h)),
      activate true self ((if_neg formed).trans (Dev.inUpdate_of_not_state h))⟩,
    fun h => ⟨activate true true ((if_neg formed).trans (Dev.inUpdate_of_state h)), activate true false ?activated⟩,
    fun h => ⟨data (Dev.inUpdate_of_state h), dropImage (Dev.inUpdate_of_state h), fun hc => verify ?passed,
      fun hc => verify ?failed⟩,
    fun h => ⟨data (Dev.inUpdate_of_not_state h), verify (Dev.inUpdate_of_not_state h),
      dropImage (Dev.inUpdate_of_not_state h)⟩,
    fun h => cancel (Dev.inUpdate_of_in (within.mpr h).1 (within.mpr h).2),
    fun h => cancel (Dev.inUpdate_of_not_in (mt within.mp h)),
    fun h => status (congrArg (fun e : Dev => e.respond b 0x61B 0 [s.dev.lkk.update.state]) (if_pos h)),
    fun h => status (congrArg (fun e : Dev => e.respond b 0x61B 0 [s.dev.lkk.update.state]) (if_neg h))⟩
  case activated =>
    refine (if_neg formed).trans ((Dev.inUpdate_of_state h).trans ?_)
    simp only [Bool.false_eq_true, if_false, List.contains_iff_mem]
    rfl
  case passed =>
    have passes : (s.dev.updateServed.firmwareCode s.dev.updateServed.lkk.update.component
        s.dev.updateServed.lkk.update.image == 0) = true := beq_iff_eq.mpr hc
    refine (Dev.inUpdate_of_state h).trans ?_
    simp only [passes, if_true]
    rfl
  case failed =>
    have fails : (s.dev.updateServed.firmwareCode s.dev.updateServed.lkk.update.component
        s.dev.updateServed.lkk.update.image == 0) = false := beq_eq_false_iff_ne.mpr hc
    refine (Dev.inUpdate_of_state h).trans ?_
    simp only [fails, Bool.false_eq_true, if_false]
    rfl

end Sys2Proof.Proofs
end

section
/-!
PROOFS. Corrected errors (17 R383).
-/
namespace Sys2Proof.Machine
open Sys2Proof.Claims

section Corrected
variable {d : Dev} {kind u n a : Nat}

/-- R383: a threshold writes its entry into the Silt record alone, with a mark of the Lockkeeper. -/
theorem Dev.siltEv_threshold (t : Nat) : d.siltEv srcLkk 0x0010 0 kind u t =
    (d.issue srcLkk (d.nextMark srcLkk)).siltPut
      { mark := d.nextMark srcLkk, seq := 0, source := srcLkk, event := 0x0010, status := 0, kind, flags := 0, unit := u,
        ctx := 0xFFFF, detail := w64 t } := rfl

/-- Beyond the unit a count reaches the marks and the Silt record alone. -/
theorem Dev.countCe_keeps {γ : Type} (π : Dev → γ)
    (h : ∀ (d : Dev) (t : Nat), π (d.siltEv srcLkk 0x0010 0 kind u t) = π d) :
    π (d.countCe kind u n) = π (d.modUnit kind u fun x => { x with ce := sat32 ((d.unit kind u).ce + n) }) :=
  foldl_keeps h _ _

/-- Each threshold takes one place in the ring. -/
theorem Dev.thresholds_next (l : List Nat) : ∀ d : Dev,
    (l.foldl (fun d t => d.siltEv srcLkk 0x0010 0 kind u t) d).silt.next = d.silt.next + l.length := by
  induction l with
  | nil => exact fun _ => rfl
  | cons t r ih =>
    intro d
    rw [List.foldl_cons, ih, Dev.siltEv_threshold, List.length_cons, Nat.add_comm r.length, ← Nat.add_assoc]
    rfl

/-- One error passes no threshold but its own count. -/
theorem ceSteps_passed_of_not_mem (h : a + 1 ∉ ceSteps) :
    (ceSteps.filter fun t => decide (a < t ∧ t ≤ sat32 (a + 1))) = [] := by
  refine List.filter_eq_nil_iff.mpr fun t ht hp => h ?_
  obtain ⟨hlo, hhi⟩ := of_decide_eq_true hp
  have hle : sat32 (a + 1) ≤ a + 1 := Nat.min_le_left ..
  exact (show t = a + 1 by omega) ▸ ht

theorem ceSteps_passed_of_mem (h : a + 1 ∈ ceSteps) :
    (ceSteps.filter fun t => decide (a < t ∧ t ≤ sat32 (a + 1))) = [a + 1] := by
  have hcases : a = 0 ∨ a = 15 ∨ a = 255 ∨ a = 4095 ∨ a = 65535 := by simpa [ceSteps] using h
  obtain rfl | rfl | rfl | rfl | rfl := hcases <;> decide

theorem le_of_mem_ceSteps {t : Nat} (h : t ∈ ceSteps) : t ≤ 65536 := by
  revert t
  decide

theorem Dev.countCe_one_of_not_mem (h : (d.unit kind u).ce + 1 ∉ ceSteps) :
    d.countCe kind u 1 = d.modUnit kind u fun x => { x with ce := sat32 ((d.unit kind u).ce + 1) } := by
  simp only [Dev.countCe, ceSteps_passed_of_not_mem h, List.foldl_nil]

theorem Dev.countCe_one_of_mem (h : (d.unit kind u).ce + 1 ∈ ceSteps) :
    d.countCe kind u 1 = (d.modUnit kind u fun x => { x with ce := sat32 ((d.unit kind u).ce + 1) }).siltEv srcLkk 0x0010 0
      kind u ((d.unit kind u).ce + 1) := by
  simp only [Dev.countCe, ceSteps_passed_of_mem h, List.foldl_cons, List.foldl_nil]

end Corrected

end Sys2Proof.Machine

namespace Sys2Proof.Proofs
open Sys2Proof.Machine Sys2Proof.Claims

/-- Settles O57: the count goes to the unit, and each threshold that it passes to the Silt record. -/
theorem correctedErrorsCountAndMarkTheirThresholds : Obligations.CorrectedErrorsCountAndMarkTheirThresholds := by
  intro d kind u n
  have units := Dev.countCe_keeps (d := d) (kind := kind) (u := u) (n := n) Dev.units fun _ _ => rfl
  refine ⟨?_, fun k v hk => ?_, Dev.countCe_keeps Dev.errs fun _ _ => rfl, Dev.countCe_keeps Dev.out fun _ _ => rfl,
    Dev.countCe_keeps Dev.mem fun _ _ => rfl, Dev.countCe_keeps Dev.regs fun _ _ => rfl, Dev.thresholds_next _ _,
    fun hn h => ?_, fun hn h => ⟨d.nextMark srcLkk, ?_⟩⟩
  · exact (congrArg (fun t => Tbl.get RasUnit.init t _) units).trans Tbl.get_set_same
  · exact (congrArg (fun t => Tbl.get RasUnit.init t _) units).trans (Tbl.get_set_ne hk)
  · rw [hn, Dev.countCe_one_of_not_mem h]
    rfl
  · have hdetail : w64 ((d.unit kind u).ce + 1) = (d.unit kind u).ce + 1 :=
      Nat.mod_eq_of_lt (Nat.lt_of_le_of_lt (le_of_mem_ceSteps h) (by decide))
    rw [hn, Dev.countCe_one_of_mem h, Dev.siltEv_threshold, hdetail]
    rfl

end Sys2Proof.Proofs
end
